-- ==== Sys2Proof/Word.lean ====
section
/-! DEFINITION. The words of the machine, and the small closed types that name operand kinds:
the keywords an instruction field can hold, and what an event refers to. -/

namespace Sys2Proof

/-- A 64-bit register or address word (R62, R100). -/
abbrev Word := BitVec 64
/-- One byte of memory. -/
abbrev Byte := BitVec 8
/-- One halfword of an instruction chain (R27). -/
abbrev Half := BitVec 16
/-- A v register: 128 bits (R265). -/
abbrev VReg := BitVec 128
/-- A general operand number after REGX (R31, R40). -/
abbrev RegNum := BitVec 6

/-- What a chain carries beside its operands (R29, R34, R36): the ten payload bits of its MOD prefix
(all zero when there is none, which are the defaults of R33), its length in halfwords, and its base word. -/
structure Chain where
  mod  : BitVec 10
  len  : Nat
  word : Half
deriving DecidableEq, Repr, Inhabited

namespace Chain
/-- The predicate number, MOD [9:7] (R29). -/
def pred (c : Chain) : BitVec 3 := c.mod.extractLsb' 7 3
/-- The sense bit, MOD [6]. -/
def sense (c : Chain) : Bool := c.mod.getLsbD 6
/-- The relaxed bit, MOD [5]. -/
def relaxed (c : Chain) : Bool := c.mod.getLsbD 5
/-- The scope field, MOD [4:3]. -/
def scope (c : Chain) : BitVec 2 := c.mod.extractLsb' 3 2
/-- The round field, MOD [2:0]. -/
def round (c : Chain) : BitVec 3 := c.mod.extractLsb' 0 3
end Chain

/-- The system registers that MFS and MTS name (R43). -/
inductive SysReg where
  | pc | tst | fctl | fst | srkey | srcnt | tcause | tepc | tval | tvec | tscratch
  | vtn | gsize | psite | tmode | clkdiv | eccnt | cyc | age
deriving DecidableEq, Repr, Inhabited

/-- The element types of major 0xC (R52, R266). -/
inductive VTy where
  | i8 | i16 | i32 | i64 | bf16 | f16 | f32 | f64
deriving DecidableEq, Repr, Inhabited

/-- The matrix element formats of VCVTQ (R52, R284): three narrowing and three widening selectors. -/
inductive QFmt where
  | e4m3 | e5m2 | e2m1 | we4m3 | we5m2 | we2m1
deriving DecidableEq, Repr, Inhabited

/-- The functions of VSFU (R52, R285). -/
inductive Sfu where
  | exp2 | log2 | rcp | rsqrt | sin | cos | tanh | sigm
deriving DecidableEq, Repr, Inhabited

/-- The operations of BARR (R223). -/
inductive BarrOp where
  | add | min | max | minu | maxu | fadd | fmax
deriving DecidableEq, Repr, Inhabited

/-- The link register numbers 40 to 43 (R40, R53). -/
inductive Link where
  | ln | lp | lnf | lpf
deriving DecidableEq, Repr, Inhabited

/-- The two directions along a chain of ranks (R248): `up` is toward rank + 1, `down` toward rank − 1. -/
inductive Dir where
  | up | down
deriving DecidableEq, Repr, Inhabited

/-- What an ACCESS_PERFORMED event refers to (R161, R299, R321, R168). -/
inductive AccessRef where
  /-- The outstanding relaxed access number `index` of a thread. -/
  | relaxed (agent thread index : Nat)
  /-- The next doubleword of the matrix transfer of a tile. -/
  | matrix (agent : Nat)
  /-- The next access of one unit of work of a copy command; where several reads are open, `last` takes the last of them. -/
  | copy (agent slot unit : Nat) (last : Bool)
  /-- The plain pod access a thread waits for, whose home is another module. -/
  | pod (agent thread : Nat)
  /-- A memory error found by an access in the doubleword at a memory key; `corrected` or left poisoned. -/
  | strike (key : Nat) (corrected : Bool)
deriving DecidableEq, Repr, Inhabited

end Sys2Proof
end

