-- ==== Sys2Proof/Machine/Float.lean ====
section
/-! DEFINITION. Floating-point formats, exact values and rounding (R62-R83): the helpers Decode, RoundTo, Canon, FMin, FMax, F
and the draw of stochastic rounding. -/

namespace Sys2Proof.Machine

/-- The floating-point formats (R63). -/
inductive Fp where
  | fp64 | fp32 | fp16 | bf16 | e5m2 | e4m3 | e2m1
deriving DecidableEq, Repr, Inhabited

namespace Fp
/-- Fraction bits. -/
def fbits : Fp → Nat
  | .fp64 => 52 | .fp32 => 23 | .fp16 => 10 | .bf16 => 7 | .e5m2 => 2 | .e4m3 => 3 | .e2m1 => 1
/-- Exponent bits. -/
def ebits : Fp → Nat
  | .fp64 => 11 | .fp32 => 8 | .fp16 => 5 | .bf16 => 8 | .e5m2 => 5 | .e4m3 => 4 | .e2m1 => 2
def bias : Fp → Nat
  | .fp64 => 1023 | .fp32 => 127 | .fp16 => 15 | .bf16 => 127 | .e5m2 => 15 | .e4m3 => 7 | .e2m1 => 1
/-- Whole width in bits. -/
def width (f : Fp) : Nat := 1 + f.ebits + f.fbits
/-- Formats with an infinity. -/
def hasInf : Fp → Bool
  | .e4m3 | .e2m1 => false
  | .fp64 | .fp32 | .fp16 | .bf16 | .e5m2 => true
/-- The sign bit as a number. -/
def signBit (f : Fp) : Nat := 2 ^ (f.ebits + f.fbits)
/-- The encoding of positive infinity, for a format that has it. -/
def infBits (f : Fp) : Nat := (2 ^ f.ebits - 1) * 2 ^ f.fbits
/-- The encoding of the largest finite magnitude (R63). -/
def maxBits : Fp → Nat
  | .e4m3 => 0x7E
  | .e2m1 => 0x7
  | f => f.infBits - 1
/-- Exponent of the last place of subnormals and of the smallest normals. -/
def qmin (f : Fp) : Int := 1 - f.bias - f.fbits
/-- Exponent of the last place at the largest finite magnitude. -/
def qmax (f : Fp) : Int := (f.maxBits / 2 ^ f.fbits : Nat) - f.bias - f.fbits
/-- Significand of the largest finite magnitude. -/
def mmax (f : Fp) : Nat := 2 ^ f.fbits + f.maxBits % 2 ^ f.fbits
/-- The canonical NaN (R67); E2M1 has none and takes +0 (R77). -/
def canon : Fp → Nat
  | .fp64 => 0x7FF8000000000000 | .fp32 => 0x7FC00000 | .fp16 => 0x7E00 | .bf16 => 0x7FC0 | .e5m2 => 0x7E | .e4m3 => 0x7F
  | .e2m1 => 0
end Fp

/-- An exact value: (-1)^neg * num * 2^exp, infinity or NaN (R78). -/
inductive FVal where
  | nan (signalling : Bool)
  | inf (neg : Bool)
  | fin (neg : Bool) (num : Nat) (exp : Int)
deriving DecidableEq, Repr, Inhabited

namespace FVal
def isNan : FVal → Bool
  | .nan _ => true | .inf _ => false | .fin _ _ _ => false
def isSnan : FVal → Bool
  | .nan b => b | .inf _ => false | .fin _ _ _ => false
def neg : FVal → FVal
  | .nan b => .nan b
  | .inf b => .inf !b
  | .fin b n e => .fin (!b) n e
/-- A number from an integer. -/
def ofInt (i : Int) : FVal := .fin (decide (i < 0)) i.natAbs 0
end FVal

/-- Decode(f, bits) (R63, R68). -/
def Fp.decode (f : Fp) (bits : Nat) : FVal :=
  let neg := bits / f.signBit % 2 == 1
  let e := bits / 2 ^ f.fbits % 2 ^ f.ebits
  let m := bits % 2 ^ f.fbits
  let finite : FVal := if e = 0 then .fin neg m f.qmin else .fin neg (2 ^ f.fbits + m) ((e : Int) - f.bias - f.fbits)
  match f with
  | .e2m1 => finite
  | .e4m3 => if e = 15 && m = 7 then .nan false else finite
  | _ => if e + 1 = 2 ^ f.ebits then (if m = 0 then .inf neg else .nan (m / 2 ^ (f.fbits - 1) % 2 == 0)) else finite

/-- Flag bits in the order of FST (R75). -/
def flagNX : BitVec 5 := 1
def flagUF : BitVec 5 := 2
def flagOF : BitVec 5 := 4
def flagDZ : BitVec 5 := 8
def flagNV : BitVec 5 := 16

/-! ### Rounding a magnitude (R70, R71, R81) -/

/-- How the discarded part stands to half a step. -/
inductive HalfCmp where
  | below | tie | above
deriving DecidableEq, Repr, Inhabited

/-- Whether a mode picks hi: mode code, sign, last bit of lo, the discarded part against half a step, its top 16 bits d, and
the draw r (R70). Code 0 does not arise. -/
def pickHi (mode : Nat) (neg loOdd : Bool) (h : HalfCmp) (d draw : Nat) : Bool :=
  match mode with
  | 1 => match h with | .above => true | .below => false | .tie => loOdd
  | 2 => false
  | 3 => neg
  | 4 => !neg
  | 5 => match h with | .above => true | .below => false | .tie => true
  | 6 => decide (65536 ≤ d + draw)
  | _ => !loOdd

/-- A non-zero magnitude: num * 2^exp, plus a part below the last bit of num when `sticky`. -/
structure Mag where
  num    : Nat
  exp    : Int
  sticky : Bool := false
deriving DecidableEq, Repr, Inhabited

/-- The whole steps of 2^q in a magnitude, and the rest: none, or its place against half a step and its top 16 bits. -/
def Mag.split (v : Mag) (q : Int) : Nat × Option (HalfCmp × Nat) :=
  if q ≤ v.exp then (v.num * 2 ^ (v.exp - q).toNat, if v.sticky then some (.below, 0) else none)
  else
    let sh := (q - v.exp).toNat
    let rest := v.num % 2 ^ sh
    (v.num / 2 ^ sh,
      if rest = 0 && !v.sticky then none
      else
        let half := 2 ^ (sh - 1)
        some (if rest < half then .below else if rest = half && !v.sticky then .tie else .above, rest * 65536 / 2 ^ sh))

/-- Round a magnitude to steps of 2^q: the number of steps, and whether it is inexact. -/
def Mag.round (v : Mag) (mode : Nat) (neg : Bool) (draw : Nat) (q : Int) : Nat × Bool :=
  let r := v.split q
  match r.2 with
  | none => (r.1, false)
  | some (h, d) => (if pickHi mode neg (r.1 % 2 == 1) h d draw then r.1 + 1 else r.1, true)

/-- Exponent of the leading bit. -/
def Mag.lead (v : Mag) : Int := v.exp + Nat.log2 v.num

/-- num1 * 2^exp1 < num2 * 2^exp2. -/
def scaledLt (n1 : Nat) (e1 : Int) (n2 : Nat) (e2 : Int) : Bool :=
  if e1 ≤ e2 then decide (n1 < n2 * 2 ^ (e2 - e1).toNat) else decide (n1 * 2 ^ (e1 - e2).toNat < n2)

/-- What a rounding delivers: a significand at an exponent, or beyond the largest finite magnitude. -/
inductive RoundedMag where
  | fin (m : Nat) (q : Int)
  | over
deriving DecidableEq, Repr, Inhabited

/-- Round a non-zero magnitude into a format's finite range (R71), with OF, UF and NX judged as R69 says. -/
def roundInto (f : Fp) (mode : Nat) (neg : Bool) (draw : Nat) (v : Mag) : RoundedMag × BitVec 5 :=
  let qu : Int := v.lead - f.fbits
  let un := v.round mode neg draw qu
  let ofl := scaledLt f.mmax f.qmax un.1 qu
  let tiny := scaledLt un.1 qu 1 (1 - (f.bias : Int))
  let q := max qu f.qmin
  let top := v.split f.qmax
  if f.mmax < top.1 || (top.1 == f.mmax && top.2.isSome) then
    -- lo is the largest finite magnitude, and the step above it is one unit in its last place; round to odd thus goes beyond
    -- the range only where that magnitude is even, in E4M3 (log 34)
    let far := decide (f.mmax < top.1)
    let hi := match top.2, far with
      | some (h, d), false => pickHi mode neg (f.mmax % 2 == 1) h d draw
      | _, _ => pickHi mode neg (f.mmax % 2 == 1) .above 65536 draw
    (if hi then .over else .fin f.mmax f.qmax, flagNX ||| (if ofl then flagOF else 0))
  else
    let b := v.round mode neg draw q
    (.fin b.1 q, if b.2 then flagNX ||| (if tiny then flagUF else 0) else 0)

/-- The bits of a finite significand at its exponent. -/
def Fp.pack (f : Fp) (neg : Bool) (m : Nat) (q : Int) : Nat :=
  let s := if neg then f.signBit else 0
  if m < 2 ^ f.fbits then s + m else s + (q + f.fbits + f.bias).toNat * 2 ^ f.fbits + (m - 2 ^ f.fbits)

/-- The narrowing behaviour: FCTL.SAT of a conversion, or none for arithmetic (R73, R77). -/
abbrev Sat := Option Bool

/-- What is delivered for a finite value whose rounding goes beyond the range (R73, R77). -/
def Fp.beyond (f : Fp) (sat : Sat) (neg : Bool) : Nat × BitVec 5 :=
  let s := if neg then f.signBit else 0
  match f, sat with
  | .e2m1, _ => (s + f.maxBits, flagOF ||| flagNX)
  | .e4m3, some true => (s + f.maxBits, flagOF ||| flagNX)
  | .e4m3, _ => (f.canon, flagOF ||| flagNV ||| flagNX)
  | _, some true => (s + f.maxBits, flagOF ||| flagNX)
  | _, _ => (s + f.infBits, flagOF ||| flagNX)

/-- Deliver a magnitude of a sign in a format (R71, R73). -/
def Fp.deliver (f : Fp) (sat : Sat) (mode : Nat) (draw : Nat) (neg : Bool) (v : Mag) : Nat × BitVec 5 :=
  match roundInto f mode neg draw v with
  | (.fin m q, fl) => (f.pack neg m q, fl)
  | (.over, fl) => let r := f.beyond sat neg; (r.1, fl ||| r.2)

/-- RoundTo(f, v, m) for an exact value, with its flags (R71-R73, R77). A NaN here is the value of an invalid or NaN operation;
its own NV is the caller's. -/
def Fp.roundTo (f : Fp) (sat : Sat) (mode : Nat) (draw : Nat) : FVal → Nat × BitVec 5
  | .nan _ => (f.canon, match f with | .e2m1 => flagNV | _ => 0)
  | .inf neg =>
    let s := if neg then f.signBit else 0
    match f, sat with
    | .e2m1, _ => (s + f.maxBits, flagNV ||| flagNX)
    | .e4m3, some true => (s + f.maxBits, flagNX)
    | .e4m3, _ => (f.canon, flagNV ||| flagNX)
    | _, _ => (s + f.infBits, 0)
  | .fin neg num exp =>
    if num = 0 then (if neg then f.signBit else 0, 0) else f.deliver sat mode draw neg { num := num, exp := exp }

/-! ### Exact operations (R72) -/

namespace FVal

/-- The signed sum of two finite values at one exponent. -/
def addFin (mode : Nat) (n1 : Bool) (m1 : Nat) (e1 : Int) (n2 : Bool) (m2 : Nat) (e2 : Int) : FVal :=
  let e := min e1 e2
  let a : Int := (m1 * 2 ^ (e1 - e).toNat : Nat)
  let b : Int := (m2 * 2 ^ (e2 - e).toNat : Nat)
  let sum := (if n1 then -a else a) + (if n2 then -b else b)
  if sum = 0 then (if m1 = 0 && m2 = 0 && n1 == n2 then .fin n1 0 0 else .fin (mode == 3) 0 0)
  else .fin (decide (sum < 0)) sum.natAbs e

/-- a + b, with the flags of an invalid operation or a signalling operand (R68, R69, R72). -/
def add (mode : Nat) (a b : FVal) : FVal × BitVec 5 :=
  let sn : BitVec 5 := if a.isSnan || b.isSnan then flagNV else 0
  match a, b with
  | .nan _, _ => (.nan false, sn)
  | _, .nan _ => (.nan false, sn)
  | .inf x, .inf y => if x == y then (.inf x, 0) else (.nan false, flagNV)
  | .inf x, .fin _ _ _ => (.inf x, 0)
  | .fin _ _ _, .inf y => (.inf y, 0)
  | .fin n1 m1 e1, .fin n2 m2 e2 => (addFin mode n1 m1 e1 n2 m2 e2, 0)

/-- a * b. -/
def mul (a b : FVal) : FVal × BitVec 5 :=
  let sn : BitVec 5 := if a.isSnan || b.isSnan then flagNV else 0
  match a, b with
  | .nan _, _ => (.nan false, sn)
  | _, .nan _ => (.nan false, sn)
  | .inf x, .inf y => (.inf (x != y), 0)
  | .inf x, .fin n m _ => if m = 0 then (.nan false, flagNV) else (.inf (x != n), 0)
  | .fin n m _, .inf y => if m = 0 then (.nan false, flagNV) else (.inf (n != y), 0)
  | .fin n1 m1 e1, .fin n2 m2 e2 => (.fin (n1 != n2) (m1 * m2) (e1 + e2), 0)

/-- a * b + c with one rounding to come: invalid where the product or the sum is. -/
def fma (mode : Nat) (a b c : FVal) : FVal × BitVec 5 :=
  let p := mul a b
  let r := add mode p.1 c
  (r.1, p.2 ||| r.2)

/-- An ordering of two numbers: a < b (NaN never). -/
def lt : FVal → FVal → Bool
  | .nan _, _ => false
  | _, .nan _ => false
  | .inf x, .inf y => x && !y
  | .inf x, .fin _ _ _ => x
  | .fin _ _ _, .inf y => !y
  | .fin n1 m1 e1, .fin n2 m2 e2 =>
    let e := min e1 e2
    let a : Int := (m1 * 2 ^ (e1 - e).toNat : Nat)
    let b : Int := (m2 * 2 ^ (e2 - e).toNat : Nat)
    decide ((if n1 then -a else a) < (if n2 then -b else b))

/-- a = b as numbers; the zeros are equal. -/
def eq (a b : FVal) : Bool := !a.isNan && !b.isNan && !lt a b && !lt b a

/-- Whether a value carries a minus sign. -/
def isNeg : FVal → Bool
  | .nan _ => false | .inf n => n | .fin n _ _ => n

end FVal

/-- FMin of R78 on bits: the result's bits and flags. -/
def Fp.fmin (f : Fp) (a b : Nat) : Nat × BitVec 5 :=
  let x := f.decode a
  let y := f.decode b
  let fl : BitVec 5 := if x.isSnan || y.isSnan then flagNV else 0
  (if x.isNan then (if y.isNan then f.canon else b) else if y.isNan then a
   else if x.lt y then a else if y.lt x then b else if x.isNeg then a else b, fl)

/-- FMax of R78. -/
def Fp.fmax (f : Fp) (a b : Nat) : Nat × BitVec 5 :=
  let x := f.decode a
  let y := f.decode b
  let fl : BitVec 5 := if x.isSnan || y.isSnan then flagNV else 0
  (if x.isNan then (if y.isNan then f.canon else b) else if y.isNan then a
   else if y.lt x then a else if x.lt y then b else if x.isNeg then b else a, fl)

/-- a + b rounded in a format. -/
def Fp.addBits (f : Fp) (mode draw a b : Nat) : Nat × BitVec 5 :=
  let v := FVal.add mode (f.decode a) (f.decode b)
  let r := f.roundTo none mode draw v.1
  (r.1, v.2 ||| r.2)

/-- a * b rounded in a format. -/
def Fp.mulBits (f : Fp) (mode draw a b : Nat) : Nat × BitVec 5 :=
  let v := FVal.mul (f.decode a) (f.decode b)
  let r := f.roundTo none mode draw v.1
  (r.1, v.2 ||| r.2)

/-- a * b + c with one rounding. -/
def Fp.fmaBits (f : Fp) (mode draw a b c : Nat) : Nat × BitVec 5 :=
  let v := FVal.fma mode (f.decode a) (f.decode b) (f.decode c)
  let r := f.roundTo none mode draw v.1
  (r.1, v.2 ||| r.2)

/-- A quotient of non-zero magnitudes with enough bits for any rounding. -/
def Mag.quot (m1 : Nat) (e1 : Int) (m2 : Nat) (e2 : Int) : Mag :=
  let k := 160 + Nat.log2 m2
  { num := m1 * 2 ^ k / m2, exp := e1 - e2 - k, sticky := m1 * 2 ^ k % m2 != 0 }

/-- The integer square root by trial of bits from 2^k down. -/
def isqrtBits (n : Nat) : Nat → Nat → Nat
  | 0, r => r
  | k + 1, r => let t := r + 2 ^ k; if t * t ≤ n then isqrtBits n k t else isqrtBits n k r

/-- The root of a non-zero magnitude with enough bits for any rounding. -/
def Mag.root (m : Nat) (e : Int) : Mag :=
  let e2 := e / 2 * 2 - 320
  let n := m * 2 ^ (e - e2).toNat
  let r := isqrtBits n (Nat.log2 n / 2 + 1) 0
  { num := r, exp := e2 / 2, sticky := r * r != n }

/-- a / b rounded (R69, R72). -/
def Fp.divBits (f : Fp) (mode draw a b : Nat) : Nat × BitVec 5 :=
  let x := f.decode a
  let y := f.decode b
  let sn : BitVec 5 := if x.isSnan || y.isSnan then flagNV else 0
  match x, y with
  | .nan _, _ => (f.canon, sn)
  | _, .nan _ => (f.canon, sn)
  | .inf _, .inf _ => (f.canon, flagNV)
  | .inf s, .fin t _ _ => f.roundTo none mode draw (.inf (s != t))
  | .fin s _ _, .inf t => (if s != t then f.signBit else 0, 0)
  | .fin s m1 e1, .fin t m2 e2 =>
    if m2 = 0 then
      if m1 = 0 then (f.canon, flagNV)
      else let r := f.roundTo none mode draw (.inf (s != t)); (r.1, r.2 ||| flagDZ)
    else if m1 = 0 then (if s != t then f.signBit else 0, 0)
    else f.deliver none mode draw (s != t) (Mag.quot m1 e1 m2 e2)

/-- The square root rounded; the root of -0 is -0 (R69). -/
def Fp.sqrtBits (f : Fp) (mode draw a : Nat) : Nat × BitVec 5 :=
  match f.decode a with
  | .nan s => (f.canon, if s then flagNV else 0)
  | .inf false => (f.infBits, 0)
  | .inf true => (f.canon, flagNV)
  | .fin s m e =>
    if m = 0 then (if s then f.signBit else 0, 0)
    else if s then (f.canon, flagNV)
    else f.deliver none mode draw false (Mag.root m e)

/-! ### Conversions to integers (R77) -/

/-- Round a value to a signed integer of `w` bits; the bits and the flags. -/
def toIntBits (w : Nat) (sat : Bool) (mode draw : Nat) (v : FVal) : Nat × BitVec 5 :=
  let lowest := 2 ^ (w - 1)
  let highest := 2 ^ (w - 1) - 1
  match v with
  | .nan _ => (if sat then 0 else lowest, flagNV)
  | .inf neg => (if sat && !neg then highest else lowest, flagNV ||| flagNX)
  | .fin neg num exp =>
    if num = 0 then (0, 0)
    else
      let r := Mag.round { num := num, exp := exp } mode neg draw 0
      let i : Int := if neg then -(r.1 : Int) else r.1
      if i < -(lowest : Int) || (highest : Int) < i then
        (if sat && !neg then highest else lowest, flagNV ||| flagNX)
      else ((i % (2 ^ w : Nat)).toNat, if r.2 then flagNX else 0)

/-! ### PEG and stochastic draws (R79, R80) -/

/-- The PEG function F(k, c). -/
def peg (k : Word) (c : BitVec 32) : BitVec 32 :=
  let x := (c ^^^ k.setWidth 32) * 0x9E3779B1#32
  let x := (x ^^^ (x >>> 15)) ^^^ k.extractLsb' 32 32
  let x := x * 0x85EBCA77#32
  x ^^^ (x >>> 13)

/-- SRDraw(l) from SRKEY, SRCNT, rank, gang index and thread (R80). -/
def srDraw (key cnt : Word) (rank gang thread lane : Nat) : Nat :=
  let lo := key.setWidth 32 ^^^ BitVec.ofNat 32 (rank * 4) ^^^ BitVec.ofNat 32 thread
  let hi := key.extractLsb' 32 32 ^^^ BitVec.ofNat 32 gang
  (peg (hi ++ lo) ((cnt * 16).setWidth 32 + BitVec.ofNat 32 lane)).toNat % 65536

end Sys2Proof.Machine
end

