-- ==== Sys2Proof/Syntax.lean ====
section
/-! DEFINITION. The instructions and hardware events of the machine: one constructor for each row of spec/opcode_table.json.
A row with bits is an instruction and carries its chain `c`; a row without bits is an event, a whole step of the hardware (spec/95). -/

namespace Sys2Proof

/-- Every row of spec/opcode_table.json, in the table's order. Register operands are the extended 6-bit numbers of R40 and R42,
immediates are extended to 64 bits under R30 (an `off` is not yet multiplied by the access size, R48). -/
inductive Instr where
  /-- NOP (R45). -/
  | nop (c : Chain)
  /-- TRAP (R384). -/
  | trap (c : Chain) (imm : Word)
  /-- ERET (R387). -/
  | eret (c : Chain)
  /-- MFS (R381). -/
  | mfs (c : Chain) (x : RegNum) (r : SysReg)
  /-- MTS (R381). -/
  | mts (c : Chain) (x : RegNum) (r : SysReg)
  /-- BRK (R384). -/
  | brk (c : Chain) (imm : Word)
  /-- HALT (R343). -/
  | halt (c : Chain)
  /-- SLEEP (R387). -/
  | sleep (c : Chain)
  /-- ALIGN (R134). -/
  | align (c : Chain) (tag : BitVec 8)
  /-- PREF (R135). -/
  | pref (c : Chain) (x : RegNum)
  /-- TSTOP (R398). -/
  | tstop (c : Chain) (x : RegNum)
  /-- TSAVE (R399). -/
  | tsave (c : Chain) (x : RegNum) (y : RegNum)
  /-- TLOAD (R400). -/
  | tload (c : Chain) (x : RegNum) (y : RegNum)
  /-- TGO (R401). -/
  | tgo (c : Chain) (x : RegNum)
  /-- TMAP (R402). -/
  | tmap (c : Chain) (x : RegNum) (y : RegNum)
  /-- TQUAR (R403). -/
  | tquar (c : Chain) (x : RegNum)
  /-- ZERO (R404). -/
  | zero (c : Chain) (x : RegNum) (y : RegNum)
  /-- TLBINV (R405). -/
  | tlbinv (c : Chain) (x : RegNum) (y : RegNum)
  /-- VOTE (R406). -/
  | vote (c : Chain) (x : RegNum)
  /-- ADD (R106). -/
  | add (c : Chain) (x : RegNum) (y : RegNum) (z : RegNum)
  /-- SUB (R106). -/
  | sub (c : Chain) (x : RegNum) (y : RegNum) (z : RegNum)
  /-- AND (R106). -/
  | and (c : Chain) (x : RegNum) (y : RegNum) (z : RegNum)
  /-- OR (R106). -/
  | or (c : Chain) (x : RegNum) (y : RegNum) (z : RegNum)
  /-- XOR (R106). -/
  | xor (c : Chain) (x : RegNum) (y : RegNum) (z : RegNum)
  /-- SHL (R106). -/
  | shl (c : Chain) (x : RegNum) (y : RegNum) (z : RegNum)
  /-- SHR (R106). -/
  | shr (c : Chain) (x : RegNum) (y : RegNum) (z : RegNum)
  /-- SAR (R106). -/
  | sar (c : Chain) (x : RegNum) (y : RegNum) (z : RegNum)
  /-- ADDW (R106). -/
  | addw (c : Chain) (x : RegNum) (y : RegNum) (z : RegNum)
  /-- SUBW (R106). -/
  | subw (c : Chain) (x : RegNum) (y : RegNum) (z : RegNum)
  /-- ANDN (R106). -/
  | andn (c : Chain) (x : RegNum) (y : RegNum) (z : RegNum)
  /-- ORN (R106). -/
  | orn (c : Chain) (x : RegNum) (y : RegNum) (z : RegNum)
  /-- XNOR (R106). -/
  | xnor (c : Chain) (x : RegNum) (y : RegNum) (z : RegNum)
  /-- ROL (R106). -/
  | rol (c : Chain) (x : RegNum) (y : RegNum) (z : RegNum)
  /-- ROR (R106). -/
  | ror (c : Chain) (x : RegNum) (y : RegNum) (z : RegNum)
  /-- SCADD (R106). -/
  | scadd (c : Chain) (x : RegNum) (y : RegNum) (z : RegNum)
  /-- MUL (R107). -/
  | mul (c : Chain) (x : RegNum) (y : RegNum) (z : RegNum)
  /-- MULH (R107). -/
  | mulh (c : Chain) (x : RegNum) (y : RegNum) (z : RegNum)
  /-- MULHU (R107). -/
  | mulhu (c : Chain) (x : RegNum) (y : RegNum) (z : RegNum)
  /-- MULHSU (R107). -/
  | mulhsu (c : Chain) (x : RegNum) (y : RegNum) (z : RegNum)
  /-- DIV (R108). -/
  | div (c : Chain) (x : RegNum) (y : RegNum) (z : RegNum)
  /-- DIVU (R108). -/
  | divu (c : Chain) (x : RegNum) (y : RegNum) (z : RegNum)
  /-- REM (R108). -/
  | rem (c : Chain) (x : RegNum) (y : RegNum) (z : RegNum)
  /-- REMU (R108). -/
  | remu (c : Chain) (x : RegNum) (y : RegNum) (z : RegNum)
  /-- SLT (R109). -/
  | slt (c : Chain) (x : RegNum) (y : RegNum) (z : RegNum)
  /-- SLTU (R109). -/
  | sltu (c : Chain) (x : RegNum) (y : RegNum) (z : RegNum)
  /-- SEQ (R109). -/
  | seq (c : Chain) (x : RegNum) (y : RegNum) (z : RegNum)
  /-- SNE (R109). -/
  | sne (c : Chain) (x : RegNum) (y : RegNum) (z : RegNum)
  /-- MIN (R109). -/
  | min (c : Chain) (x : RegNum) (y : RegNum) (z : RegNum)
  /-- MAX (R109). -/
  | max (c : Chain) (x : RegNum) (y : RegNum) (z : RegNum)
  /-- MINU (R109). -/
  | minu (c : Chain) (x : RegNum) (y : RegNum) (z : RegNum)
  /-- MAXU (R109). -/
  | maxu (c : Chain) (x : RegNum) (y : RegNum) (z : RegNum)
  /-- CLZ (R111). -/
  | clz (c : Chain) (x : RegNum) (y : RegNum)
  /-- CTZ (R111). -/
  | ctz (c : Chain) (x : RegNum) (y : RegNum)
  /-- POPC (R111). -/
  | popc (c : Chain) (x : RegNum) (y : RegNum)
  /-- BREV (R111). -/
  | brev (c : Chain) (x : RegNum) (y : RegNum)
  /-- BSWAP (R111). -/
  | bswap (c : Chain) (x : RegNum) (y : RegNum)
  /-- SEXB (R111). -/
  | sexb (c : Chain) (x : RegNum) (y : RegNum)
  /-- SEXH (R111). -/
  | sexh (c : Chain) (x : RegNum) (y : RegNum)
  /-- SEXW (R111). -/
  | sexw (c : Chain) (x : RegNum) (y : RegNum)
  /-- HXY (R112). -/
  | hxy (c : Chain) (x : RegNum) (y : RegNum) (z : RegNum)
  /-- HIDX (R113). -/
  | hidx (c : Chain) (x : RegNum) (y : RegNum) (z : RegNum)
  /-- SEL (R110). -/
  | sel (c : Chain) (x : RegNum) (y : RegNum) (z : RegNum)
  /-- J (R121). -/
  | j (c : Chain) (imm : Word)
  /-- CALL (R121). -/
  | call (c : Chain) (imm : Word)
  /-- JR (R122). -/
  | jr (c : Chain) (x : RegNum)
  /-- CALLR (R122). -/
  | callr (c : Chain) (x : RegNum)
  /-- RET (R122). -/
  | ret (c : Chain)
  /-- ADDI (R114). -/
  | addi (c : Chain) (x : RegNum) (y : RegNum) (imm : Word)
  /-- ANDI (R114). -/
  | andi (c : Chain) (x : RegNum) (y : RegNum) (imm : Word)
  /-- ORI (R114). -/
  | ori (c : Chain) (x : RegNum) (y : RegNum) (imm : Word)
  /-- XORI (R114). -/
  | xori (c : Chain) (x : RegNum) (y : RegNum) (imm : Word)
  /-- SHLI (R114). -/
  | shli (c : Chain) (x : RegNum) (y : RegNum) (imm : Word)
  /-- SHRI (R114). -/
  | shri (c : Chain) (x : RegNum) (y : RegNum) (imm : Word)
  /-- SARI (R114). -/
  | sari (c : Chain) (x : RegNum) (y : RegNum) (imm : Word)
  /-- LI (R115). -/
  | li (c : Chain) (x : RegNum) (imm : Word)
  /-- LIH (R115). -/
  | lih (c : Chain) (x : RegNum) (imm : Word)
  /-- ADDPC (R115). -/
  | addpc (c : Chain) (x : RegNum) (imm : Word)
  /-- LDB (R164). -/
  | ldb (c : Chain) (x : RegNum) (y : RegNum) (off : Word)
  /-- LDH (R164). -/
  | ldh (c : Chain) (x : RegNum) (y : RegNum) (off : Word)
  /-- LDW (R164). -/
  | ldw (c : Chain) (x : RegNum) (y : RegNum) (off : Word)
  /-- LDD (R164). -/
  | ldd (c : Chain) (x : RegNum) (y : RegNum) (off : Word)
  /-- LDBS (R164). -/
  | ldbs (c : Chain) (x : RegNum) (y : RegNum) (off : Word)
  /-- LDHS (R164). -/
  | ldhs (c : Chain) (x : RegNum) (y : RegNum) (off : Word)
  /-- LDWS (R164). -/
  | ldws (c : Chain) (x : RegNum) (y : RegNum) (off : Word)
  /-- LDF (R165). -/
  | ldf (c : Chain) (x : RegNum) (y : RegNum) (off : Word)
  /-- LDFD (R165). -/
  | ldfd (c : Chain) (x : RegNum) (y : RegNum) (off : Word)
  /-- LDFE (R165). -/
  | ldfe (c : Chain) (x : RegNum) (y : RegNum) (off : Word)
  /-- LDFED (R165). -/
  | ldfed (c : Chain) (x : RegNum) (y : RegNum) (off : Word)
  /-- VLD (R167). -/
  | vld (c : Chain) (x : RegNum) (y : RegNum) (off : Word)
  /-- STB (R164). -/
  | stb (c : Chain) (x : RegNum) (y : RegNum) (off : Word)
  /-- STH (R164). -/
  | sth (c : Chain) (x : RegNum) (y : RegNum) (off : Word)
  /-- STW (R164). -/
  | stw (c : Chain) (x : RegNum) (y : RegNum) (off : Word)
  /-- STD (R164). -/
  | std (c : Chain) (x : RegNum) (y : RegNum) (off : Word)
  /-- STE (R165). -/
  | ste (c : Chain) (x : RegNum) (y : RegNum) (off : Word)
  /-- STED (R165). -/
  | sted (c : Chain) (x : RegNum) (y : RegNum) (off : Word)
  /-- STF (R165). -/
  | stf (c : Chain) (x : RegNum) (y : RegNum) (off : Word)
  /-- STFD (R165). -/
  | stfd (c : Chain) (x : RegNum) (y : RegNum) (off : Word)
  /-- VST (R167). -/
  | vst (c : Chain) (x : RegNum) (y : RegNum) (off : Word)
  /-- BZ (R119). -/
  | bz (c : Chain) (x : RegNum) (imm : Word)
  /-- BNZ (R119). -/
  | bnz (c : Chain) (x : RegNum) (imm : Word)
  /-- BLTZ (R119). -/
  | bltz (c : Chain) (x : RegNum) (imm : Word)
  /-- BGEZ (R119). -/
  | bgez (c : Chain) (x : RegNum) (imm : Word)
  /-- BQ (R119). -/
  | bq (c : Chain) (q : BitVec 3) (imm : Word)
  /-- BNQ (R119). -/
  | bnq (c : Chain) (q : BitVec 3) (imm : Word)
  /-- LOOP (R125). -/
  | loop (c : Chain) (x : RegNum) (imm : Word)
  /-- BEQ (R120). -/
  | beq (c : Chain) (x : RegNum) (y : RegNum) (imm : Word)
  /-- BNE (R120). -/
  | bne (c : Chain) (x : RegNum) (y : RegNum) (imm : Word)
  /-- BLT (R120). -/
  | blt (c : Chain) (x : RegNum) (y : RegNum) (imm : Word)
  /-- BGE (R120). -/
  | bge (c : Chain) (x : RegNum) (y : RegNum) (imm : Word)
  /-- BLTU (R120). -/
  | bltu (c : Chain) (x : RegNum) (y : RegNum) (imm : Word)
  /-- BGEU (R120). -/
  | bgeu (c : Chain) (x : RegNum) (y : RegNum) (imm : Word)
  /-- LRW (R201). -/
  | lrw (c : Chain) (x : RegNum) (y : RegNum)
  /-- SCH (R202). -/
  | sch (c : Chain) (x : RegNum) (y : RegNum)
  /-- LRO (R208). -/
  | lro (c : Chain) (x : RegNum) (y : RegNum)
  /-- SCO (R209). -/
  | sco (c : Chain) (x : RegNum) (y : RegNum)
  /-- OINIT (R207). -/
  | oinit (c : Chain) (x : RegNum) (y : RegNum)
  /-- AADD (R210). -/
  | aadd (c : Chain) (x : RegNum) (y : RegNum)
  /-- AAND (R210). -/
  | aand (c : Chain) (x : RegNum) (y : RegNum)
  /-- AOR (R210). -/
  | aor (c : Chain) (x : RegNum) (y : RegNum)
  /-- AXOR (R210). -/
  | axor (c : Chain) (x : RegNum) (y : RegNum)
  /-- AMIN (R210). -/
  | amin (c : Chain) (x : RegNum) (y : RegNum)
  /-- AMAX (R210). -/
  | amax (c : Chain) (x : RegNum) (y : RegNum)
  /-- AMINU (R210). -/
  | aminu (c : Chain) (x : RegNum) (y : RegNum)
  /-- AMAXU (R210). -/
  | amaxu (c : Chain) (x : RegNum) (y : RegNum)
  /-- ASWAP (R210). -/
  | aswap (c : Chain) (x : RegNum) (y : RegNum)
  /-- ACAS (R210). -/
  | acas (c : Chain) (x : RegNum) (y : RegNum)
  /-- AFADD (R210). -/
  | afadd (c : Chain) (x : RegNum) (y : RegNum)
  /-- AFADDO (R212). -/
  | afaddo (c : Chain) (x : RegNum) (y : RegNum)
  /-- AADDW (R210). -/
  | aaddw (c : Chain) (x : RegNum) (y : RegNum)
  /-- AANDW (R210). -/
  | aandw (c : Chain) (x : RegNum) (y : RegNum)
  /-- AORW (R210). -/
  | aorw (c : Chain) (x : RegNum) (y : RegNum)
  /-- AXORW (R210). -/
  | axorw (c : Chain) (x : RegNum) (y : RegNum)
  /-- AMINW (R210). -/
  | aminw (c : Chain) (x : RegNum) (y : RegNum)
  /-- AMAXW (R210). -/
  | amaxw (c : Chain) (x : RegNum) (y : RegNum)
  /-- AMINUW (R210). -/
  | aminuw (c : Chain) (x : RegNum) (y : RegNum)
  /-- AMAXUW (R210). -/
  | amaxuw (c : Chain) (x : RegNum) (y : RegNum)
  /-- ASWAPW (R210). -/
  | aswapw (c : Chain) (x : RegNum) (y : RegNum)
  /-- ACASW (R210). -/
  | acasw (c : Chain) (x : RegNum) (y : RegNum)
  /-- AFADDW (R210). -/
  | afaddw (c : Chain) (x : RegNum) (y : RegNum)
  /-- AFADDOW (R212). -/
  | afaddow (c : Chain) (x : RegNum) (y : RegNum)
  /-- FENCE (R214). -/
  | fence (c : Chain)
  /-- FENCE_G (R180). -/
  | fenceG (c : Chain)
  /-- FENCE_M (R180). -/
  | fenceM (c : Chain)
  /-- FENCE_P (R180). -/
  | fenceP (c : Chain)
  /-- WAITC (R199). -/
  | waitc (c : Chain) (k : BitVec 4) (y : RegNum)
  /-- WAITF (R195). -/
  | waitf (c : Chain) (y : RegNum)
  /-- CLRF (R196). -/
  | clrf (c : Chain) (y : RegNum)
  /-- TAKE (R102). -/
  | take (c : Chain) (x : RegNum) (y : RegNum)
  /-- BAR (R219). -/
  | bar (c : Chain) (b : BitVec 2)
  /-- BARS (R225). -/
  | bars (c : Chain) (b : BitVec 2)
  /-- BARCFG (R221). -/
  | barcfg (c : Chain) (b : BitVec 2) (x : RegNum)
  /-- BARQ (R222). -/
  | barq (c : Chain) (x : RegNum) (b : BitVec 2)
  /-- BARR (R223). -/
  | barr (c : Chain) (x : RegNum) (b : BitVec 2) (op : BarrOp)
  /-- PUT (R243). -/
  | put (c : Chain) (x : RegNum) (y : RegNum) (k : BitVec 4)
  /-- PUTV (R243). -/
  | putv (c : Chain) (x : RegNum) (y : RegNum) (k : BitVec 4)
  /-- GET (R244). -/
  | get (c : Chain) (x : RegNum) (y : RegNum) (k : BitVec 4)
  /-- SEND (R246). -/
  | send (c : Chain) (x : RegNum) (y : RegNum)
  /-- CSET (R242). -/
  | cset (c : Chain) (k : BitVec 4) (x : RegNum)
  /-- CINC (R242). -/
  | cinc (c : Chain) (k : BitVec 4) (x : RegNum) (y : RegNum)
  /-- CRD (R242). -/
  | crd (c : Chain) (x : RegNum) (k : BitVec 4)
  /-- POST (R256). -/
  | post (c : Chain) (x : RegNum) (y : RegNum)
  /-- ARM (R251). -/
  | arm (c : Chain) (slot : BitVec 3) (x : RegNum) (y : RegNum)
  /-- DISARM (R253). -/
  | disarm (c : Chain) (slot : BitVec 3)
  /-- VADD (R273). -/
  | vadd (c : Chain) (t : VTy) (x : RegNum) (y : RegNum) (z : RegNum)
  /-- VSUB (R273). -/
  | vsub (c : Chain) (t : VTy) (x : RegNum) (y : RegNum) (z : RegNum)
  /-- VMUL (R273). -/
  | vmul (c : Chain) (t : VTy) (x : RegNum) (y : RegNum) (z : RegNum)
  /-- VFMA (R273). -/
  | vfma (c : Chain) (t : VTy) (x : RegNum) (y : RegNum) (z : RegNum)
  /-- VMIN (R273). -/
  | vmin (c : Chain) (t : VTy) (x : RegNum) (y : RegNum) (z : RegNum)
  /-- VMAX (R273). -/
  | vmax (c : Chain) (t : VTy) (x : RegNum) (y : RegNum) (z : RegNum)
  /-- VADDMIN (R274). -/
  | vaddmin (c : Chain) (t : VTy) (x : RegNum) (y : RegNum) (z : RegNum)
  /-- VDIV (R275). -/
  | vdiv (c : Chain) (t : VTy) (x : RegNum) (y : RegNum) (z : RegNum)
  /-- VSQRT (R275). -/
  | vsqrt (c : Chain) (t : VTy) (x : RegNum) (y : RegNum)
  /-- VAND (R276). -/
  | vand (c : Chain) (t : VTy) (x : RegNum) (y : RegNum) (z : RegNum)
  /-- VOR (R276). -/
  | vor (c : Chain) (t : VTy) (x : RegNum) (y : RegNum) (z : RegNum)
  /-- VXOR (R276). -/
  | vxor (c : Chain) (t : VTy) (x : RegNum) (y : RegNum) (z : RegNum)
  /-- VSHL (R276). -/
  | vshl (c : Chain) (t : VTy) (x : RegNum) (y : RegNum) (z : RegNum)
  /-- VSHR (R276). -/
  | vshr (c : Chain) (t : VTy) (x : RegNum) (y : RegNum) (z : RegNum)
  /-- VSAR (R276). -/
  | vsar (c : Chain) (t : VTy) (x : RegNum) (y : RegNum) (z : RegNum)
  /-- VCEQ (R277). -/
  | vceq (c : Chain) (t : VTy) (q : BitVec 3) (y : RegNum) (z : RegNum)
  /-- VCLT (R277). -/
  | vclt (c : Chain) (t : VTy) (q : BitVec 3) (y : RegNum) (z : RegNum)
  /-- VCLE (R277). -/
  | vcle (c : Chain) (t : VTy) (q : BitVec 3) (y : RegNum) (z : RegNum)
  /-- VSEL (R278). -/
  | vsel (c : Chain) (t : VTy) (x : RegNum) (y : RegNum) (z : RegNum)
  /-- VSLU (R279). -/
  | vslu (c : Chain) (t : VTy) (x : RegNum) (y : RegNum) (z : RegNum)
  /-- VSLD (R279). -/
  | vsld (c : Chain) (t : VTy) (x : RegNum) (y : RegNum) (z : RegNum)
  /-- VPERM (R280). -/
  | vperm (c : Chain) (t : VTy) (x : RegNum) (y : RegNum) (z : RegNum)
  /-- VBCST (R281). -/
  | vbcst (c : Chain) (t : VTy) (x : RegNum) (y : RegNum)
  /-- VEXT (R281). -/
  | vext (c : Chain) (t : VTy) (x : RegNum) (y : RegNum) (lane : RegNum)
  /-- VINS (R281). -/
  | vins (c : Chain) (t : VTy) (x : RegNum) (y : RegNum) (lane : RegNum)
  /-- VREDADD (R282). -/
  | vredadd (c : Chain) (t : VTy) (x : RegNum) (y : RegNum)
  /-- VCVT (R283). -/
  | vcvt (c : Chain) (t : VTy) (x : RegNum) (y : RegNum) (src : VTy)
  /-- VCVTQ (R284). -/
  | vcvtq (c : Chain) (t : VTy) (x : RegNum) (y : RegNum) (f : QFmt)
  /-- VSFU (R285). -/
  | vsfu (c : Chain) (t : VTy) (x : RegNum) (y : RegNum) (fn : Sfu)
  /-- VPEG (R286). -/
  | vpeg (c : Chain) (x : RegNum) (y : RegNum) (z : RegNum)
  /-- MTCFG (R293). -/
  | mtcfg (c : Chain) (m : BitVec 2) (y : RegNum)
  /-- MFCFG (R294). -/
  | mfcfg (c : Chain) (x : RegNum) (m : BitVec 2)
  /-- MLD (R298). -/
  | mld (c : Chain) (m : BitVec 2) (y : RegNum)
  /-- MLDL (R302). -/
  | mldl (c : Chain) (m : BitVec 2) (link : Link)
  /-- MST (R298). -/
  | mst (c : Chain) (m : BitVec 2) (y : RegNum)
  /-- MPASS (R303). -/
  | mpass (c : Chain) (m : BitVec 2) (dir : Dir)
  /-- MZERO (R301). -/
  | mzero (c : Chain) (acc : BitVec 2)
  /-- MRDA (R298). -/
  | mrda (c : Chain) (acc : BitVec 2) (y : RegNum)
  /-- MWRA (R298). -/
  | mwra (c : Chain) (acc : BitVec 2) (y : RegNum)
  /-- MSCL (R298). -/
  | mscl (c : Chain) (m : BitVec 2) (y : RegNum)
  /-- MMA (R295). -/
  | mma (c : Chain) (acc : BitVec 2) (m : BitVec 2) (n : BitVec 2)
  /-- SCFG (R315). -/
  | scfg (c : Chain) (h : BitVec 3) (y : RegNum)
  /-- SADV (R316). -/
  | sadv (c : Chain) (h : BitVec 3) (y : RegNum)
  /-- SQRY (R317). -/
  | sqry (c : Chain) (x : RegNum) (h : BitVec 3)
  /-- SCLR (R318). -/
  | sclr (c : Chain) (h : BitVec 3)
  /-- CPY (R321). -/
  | cpy (c : Chain) (x : RegNum) (y : RegNum)
  /-- CPYG (R321). -/
  | cpyg (c : Chain) (x : RegNum) (y : RegNum)
  /-- CPYS (R321). -/
  | cpys (c : Chain) (x : RegNum) (y : RegNum)
  /-- CPYZ (R321). -/
  | cpyz (c : Chain) (x : RegNum) (y : RegNum)
  /-- CJOIN (R325). -/
  | cjoin (c : Chain) (x : RegNum)
  /-- EVPOP (R330). -/
  | evpop (c : Chain) (x : RegNum)
  /-- EVWAIT (R330). -/
  | evwait (c : Chain) (x : RegNum)
  /-- LAUNCH (R338). -/
  | launch (c : Chain) (x : RegNum)
  /-- CANCEL (R339). -/
  | cancel (c : Chain) (x : RegNum)
  /-- GWAIT (R340). -/
  | gwait (c : Chain) (x : RegNum)
  /-- GQRY (R340). -/
  | gqry (c : Chain) (x : RegNum) (y : RegNum)
  /-- SPAWN (R341). -/
  | spawn (c : Chain) (x : RegNum) (y : RegNum)
  /-- SEED (R345). -/
  | seed (c : Chain) (x : RegNum)
  /-- CRDIG (R375). -/
  | crdig (c : Chain) (x : RegNum) (i : BitVec 1)
  /-- CRON (R376). -/
  | cron (c : Chain)
  /-- CROFF (R376). -/
  | croff (c : Chain)
  /-- CRSTAT (R377). -/
  | crstat (c : Chain) (x : RegNum) (y : RegNum)
  /-- INSTRUCTION_FETCH_FILL (R131). -/
  | instructionFetchFill (agent : Nat) (line : Word)
  /-- ALIGN_TIMEOUT (R134). -/
  | alignTimeout (agent thread : Nat)
  /-- THREAD_UNPARK (R95). -/
  | threadUnpark (agent thread : Nat)
  /-- ACCESS_PERFORMED (R161). -/
  | accessPerformed (a : AccessRef)
  /-- DEFERRED_FAULT (R163). -/
  | deferredFault (agent thread : Nat)
  /-- TRANSLATION_WALK_DONE (R155). -/
  | translationWalkDone (station index : Nat)
  /-- WALK_RETRY (R155). -/
  | walkRetry (station : Nat)
  /-- STATION_REPLAY_WRITE (R156). -/
  | stationReplayWrite (station : Nat) (value : Word)
  /-- RESERVATION_REVOKE (R204). -/
  | reservationRevoke (agent thread : Nat)
  /-- QUEUE_TABLE_READMIT (R200). -/
  | queueTableReadmit (bank : Nat)
  /-- OINIT_RETRY (R206). -/
  | oinitRetry (agent thread : Nat)
  /-- BARRIER_COMPLETE (R219). -/
  | barrierComplete (handle : Word) (gang ident level group : Nat)
  /-- SPEC_ROLLBACK (R232). -/
  | specRollback (agent thread : Nat)
  /-- PUT_LAND (R243). -/
  | putLand (msg : Nat)
  /-- GET_REQUEST_SERVE (R244). -/
  | getRequestServe (msg : Nat)
  /-- GET_RESPONSE (R244). -/
  | getResponse (msg : Nat)
  /-- SEND_LAND (R246). -/
  | sendLand (msg : Nat)
  /-- CINC_LAND (R242). -/
  | cincLand (msg : Nat)
  /-- INBOX_REFILL (R246). -/
  | inboxRefill (agent : Nat)
  /-- POST_APPEND (R256). -/
  | postAppend (msg : Nat)
  /-- MESSAGE_REFUSED (R258). -/
  | messageRefused (msg : Nat)
  /-- OUTBOUND_ACK (R239). -/
  | outboundAck (agent msg : Nat)
  /-- TILE_FAULT (R260). -/
  | tileFault (handle : Word) (gang : Nat)
  /-- TRIGGER_ACTION (R252). -/
  | triggerAction (agent : Nat)
  /-- GANG_STALL_REPORT (R264). -/
  | gangStallReport (handle : Word) (gang : Nat)
  /-- MMA_COMPLETE (R297). -/
  | mmaComplete (agent : Nat)
  /-- MATRIX_TRANSFER_COMPLETE (R299). -/
  | matrixTransferComplete (agent : Nat)
  /-- COPY_START (R323). -/
  | copyStart (agent slot : Nat)
  /-- COPY_COMPLETE (R324). -/
  | copyComplete (agent slot : Nat)
  /-- COPY_FAULT (R322). -/
  | copyFault (agent slot : Nat)
  /-- COPY_BUDGET_WINDOW (R327). -/
  | copyBudgetWindow
  /-- LAUNCH_ACCEPT (R335). -/
  | launchAccept (msg : Nat)
  /-- DEAL_ROUND (R347). -/
  | dealRound (node : Nat) (handle : Word)
  /-- GANG_START (R349). -/
  | gangStart (handle : Word) (gang : Nat)
  /-- TILE_RETIRE (R344). -/
  | tileRetire (agent : Nat)
  /-- GRID_COMPLETE (R356). -/
  | gridComplete (handle : Word)
  /-- CANCEL_ACCEPT (R359). -/
  | cancelAccept (agent thread : Nat)
  /-- CANCEL_REACH_YARD (R359). -/
  | cancelReachYard (handle : Word) (yard : Nat)
  /-- MODULE_LEAVE_POD (R358). -/
  | moduleLeavePod (module : Nat)
  /-- YARD_WITHHOLD (R348). -/
  | yardWithhold (yard : Nat)
  /-- YARD_RECOVER (R348). -/
  | yardRecover (yard : Nat)
  /-- WATCHDOG_EXPIRE (R407). -/
  | watchdogExpire (handle : Word) (gang : Nat)
  /-- QUANTUM_EXPIRY (R24). -/
  | quantumExpiry (handle : Word) (gang : Nat)
  /-- GANG_SWAP_OUT (R393). -/
  | gangSwapOut (handle : Word) (gang : Nat)
  /-- TILE_STOP_DONE (R392). -/
  | tileStopDone (agent : Nat)
  /-- GANG_SWAP_IN (R393). -/
  | gangSwapIn (handle : Word) (gang : Nat)
  /-- RERUN_SITE_RECLAIM (R26). -/
  | rerunSiteReclaim (vd : Nat)
  /-- RERUN_VERDICT (R369). -/
  | rerunVerdict (handle : Word) (gang : Nat)
  /-- CRUISE_HOLD_CLEAR (R367). -/
  | cruiseHoldClear (handle : Word)
  /-- ENTROPY_TEST_FAIL (R85). -/
  | entropyTestFail (test : Nat)
  /-- ENTROPY_RECOVER (R85). -/
  | entropyRecover
  /-- SEED_LOG_HEAD_WRITE (R87). -/
  | seedLogHeadWrite (value : Word)
  /-- REPLAY_SOURCE_SIZE_WRITE (R88). -/
  | replaySourceSizeWrite (value : Word)
  /-- QUEUE_RECORD_APPEND (R456). -/
  | queueRecordAppend (index : Nat)
  /-- HOST_WRITE (R410). -/
  | hostWrite (core : Nat) (addr : Word) (size : Nat) (data : BitVec 512)
  /-- HOST_READ (R410). -/
  | hostRead (core : Nat) (addr : Word) (size : Nat)
  /-- HOST_LAUNCH_DOORBELL (R414). -/
  | hostLaunchDoorbell (queue : Nat) (tail : BitVec 32)
  /-- HOST_LAUNCH_RECORD_READ (R415). -/
  | hostLaunchRecordRead (queue : Nat)
  /-- HOST_RECORD_RETRY (R415). -/
  | hostRecordRetry (queue : Nat)
  /-- HOST_QUEUE_RESUME (R415). -/
  | hostQueueResume (queue : Nat)
  /-- HOST_LINK_DOWN (R409). -/
  | hostLinkDown (port : Nat)
  /-- FEATURE_REQUEST_WRITE (R423). -/
  | featureRequestWrite (value : BitVec 128)
  /-- ATTESTATION_REQUEST (R422). -/
  | attestationRequest
  /-- VD_ENTRY_WRITE (R413). -/
  | vdEntryWrite (vd offset : Nat) (value : Word)
  /-- VAULT_ZERO_DONE (R159). -/
  | vaultZeroDone (site : Nat)
  /-- SITE_POWER_WRITE (R413). -/
  | sitePowerWrite (site : Nat) (bits : BitVec 2)
  /-- MCR_WRITE (R412). -/
  | mcrWrite (offset : Nat) (value : Word)
  /-- POD_REQUEST (R158). -/
  | podRequest (module vd space : Nat) (addr : Word) (size : Nat) (write : Bool) (data : Word)
  /-- POD_FLIT_REPLAY (R417). -/
  | podFlitReplay (port : Nat)
  /-- POD_LINK_DOWN (R417). -/
  | podLinkDown (port : Nat)
  /-- POD_PORTS_DOWN_TIMEOUT (R419). -/
  | podPortsDownTimeout (module : Nat)
  /-- MODULE_BOOT (R421). -/
  | moduleBoot
  /-- OVERCURRENT_TRIP (R427). -/
  | overcurrentTrip
  /-- VOLTAGE_WINDOW (R424). -/
  | voltageWindow
  /-- STACK_THERMAL_CHANGE (R428). -/
  | stackThermalChange (stack tenths : Nat)
  /-- LINK_WORD_ARRIVE (R248). -/
  | linkWordArrive (index : Nat)
  /-- VOLTAGE_RAMP_DONE (R424). -/
  | voltageRampDone (course : Nat)
deriving DecidableEq, Repr, Inhabited

end Sys2Proof
end

