-- ==== Sys2Proof/WellFormed.lean ====
section
/-! DEFINITION. Which terms of `Instr` are well-formed: the operand restrictions that the encoding rules state
(R42-R54, R115, R189, R268, R330), and the ranges of the numbers an event carries. -/

namespace Sys2Proof

/-- Lanes of a v register for an element type (R266). -/
def VTy.lanes : VTy → Nat
  | .i8 => 16 | .i16 => 8 | .i32 => 4 | .i64 => 2
  | .bf16 => 8 | .f16 => 8 | .f32 => 4 | .f64 => 2

/-- Types 4 to 7 are the floating-point types (R266). -/
def VTy.isFloat : VTy → Bool
  | .bf16 | .f16 | .f32 | .f64 => true
  | .i8 | .i16 | .i32 | .i64 => false

/-- The pairs gX, gX+1 of ACAS, AFADDO, EVPOP and EVWAIT need an even X of at most 30 (R189, R330). -/
def pairReg (x : RegNum) : Bool := x.toNat % 2 == 0 && x.toNat ≤ 30

/-- A shared register number (R40). -/
def isShared (x : RegNum) : Bool := 32 ≤ x.toNat && x.toNat < 40

/-- A stream handle number (R40). -/
def isHandle (x : RegNum) : Bool := 48 ≤ x.toNat && x.toNat < 56

/-- System registers that MTS may not name (R43, R380). -/
def SysReg.readOnly : SysReg → Bool
  | .pc | .vtn | .gsize | .psite | .tmode | .cyc | .age => true
  | _ => false

/-- An agent number: a site 0 to 65,535, or 65,536 + q for service core q. -/
def okAgent (a : Nat) : Bool := a < 65540
/-- A thread number of a tile (R14). -/
def okThread (t : Nat) : Bool := t < 4

/-- Ranges of what an ACCESS_PERFORMED event names. -/
def AccessRef.wf : AccessRef → Bool
  | .relaxed a t i => okAgent a && okThread t && i < 8
  | .matrix a => okAgent a
  | .copy a s _ _ => okAgent a && s < 4
  | .pod a t => okAgent a && okThread t
  | .strike _ _ => true

/-- Operand legality of an instruction, and number ranges of an event. -/
def Instr.wf : Instr → Bool
  | .lih _ x _ => x.toNat < 32
  | .mts _ _ r => !r.readOnly
  | .take _ _ y => isShared y
  | .acas _ x _ | .acasw _ x _ | .afaddo _ x _ | .afaddow _ x _ => pairReg x
  | .evpop _ x | .evwait _ x => pairReg x
  | .fence c => c.scope == 0
  | .fenceG c => c.scope == 1
  | .fenceM c => c.scope == 2
  | .fenceP c => c.scope == 3
  | .vfma _ _ x _ _ | .vaddmin _ _ x _ _ => !isHandle x
  | .vdiv _ t _ _ _ => t.isFloat
  | .vsqrt _ t _ _ => t.isFloat
  | .vshl _ t _ _ _ | .vshr _ t _ _ _ | .vsar _ t _ _ _ | .vperm _ t _ _ _ => !t.isFloat
  | .vext _ t _ _ lane => lane.toNat < t.lanes
  | .vins _ t x _ lane => lane.toNat < t.lanes && !isHandle x
  | .vcvtq _ t _ _ _ => t.isFloat
  | .vsfu _ t _ _ _ => t.isFloat
  | .instructionFetchFill a _ => okAgent a
  | .alignTimeout a t | .threadUnpark a t | .deferredFault a t | .reservationRevoke a t | .oinitRetry a t
  | .specRollback a t | .cancelAccept a t => okAgent a && okThread t
  | .accessPerformed r => r.wf
  | .translationWalkDone st _ | .walkRetry st | .stationReplayWrite st _ => st < 64
  | .barrierComplete _ _ b k _ => b < 4 && k ≤ 8
  | .inboxRefill a | .triggerAction a | .mmaComplete a | .matrixTransferComplete a | .tileRetire a | .tileStopDone a => okAgent a
  | .outboundAck a _ => okAgent a
  | .copyStart a s | .copyComplete a s | .copyFault a s => okAgent a && s < 4
  | .cancelReachYard _ y | .yardWithhold y | .yardRecover y => y < 256
  | .moduleLeavePod m | .podPortsDownTimeout m => m < 64
  | .rerunSiteReclaim v => v < 256
  | .hostWrite q _ n _ | .hostRead q _ n => q < 4 && (n == 8 || n == 64)
  | .hostLaunchDoorbell q _ | .hostLaunchRecordRead q | .hostRecordRetry q | .hostQueueResume q => q < 16
  | .hostLinkDown p => p < 4
  | .vdEntryWrite v off _ => v < 256 && off < 512 && off % 8 == 0
  | .vaultZeroDone s | .sitePowerWrite s _ => s < 65536
  | .mcrWrite off _ => off < 2 ^ 24 && off % 8 == 0
  | .podRequest m v p _ n _ _ => m < 64 && v < 256 && p < 65536 && (n == 1 || n == 2 || n == 4 || n == 8)
  | .podFlitReplay p | .podLinkDown p => p < 48
  | .stackThermalChange st _ => st < 24
  | .voltageRampDone c => c < 4096
  | .dealRound n _ => n < 261
  | _ => true

end Sys2Proof
end

