-- ==== Sys2Proof/Decode.lean ====
section
/-! DEFINITION. Reading a chain of halfwords as an instruction (R27-R54), and writing one (R58).
Decoding is total: a chain either gives one constructor of `Instr` or is refused under a named error. -/

namespace Sys2Proof

/-! ### Prefixes (R29-R35) -/

/-- The prefixes read so far. -/
structure Prefixes where
  /-- IMX payloads in chain order (R30). -/
  imx   : List (BitVec 10) := []
  /-- The REGX payload (R31). -/
  regx  : Option (BitVec 10) := none
  /-- The PAGE payload (R32). -/
  page  : Option (BitVec 10) := none
  /-- The MOD payload (R33). -/
  modp  : Option (BitVec 10) := none
  /-- How many prefixes there are (R35). -/
  count : Nat := 0
deriving DecidableEq, Repr, Inhabited

/-- Why a chain is no instruction (R35, R38, R44): the halfword each carries is the one that TVAL reports. -/
inductive DecodeError where
  /-- A fifth prefix, a fourth IMX, or a second REGX, PAGE or MOD (R35). -/
  | chainLimit (h : Half)
  /-- A page, function or field value that the opcode map does not assign (R38 step 2, R44). -/
  | unassigned (h : Half)
  /-- The list ended before a base word. -/
  | truncated
deriving DecidableEq, Repr, Inhabited

/-- Major opcode, bits [15:12] (R28). -/
def majorOf (h : Half) : BitVec 4 := h.extractLsb' 12 4

/-- A prefix halfword has 0xF in [15:12] (R29). -/
def isPrefixWord (h : Half) : Bool := majorOf h == 0xF#4

/-- One more prefix halfword, `none` where it breaks a limit of R35. -/
def Prefixes.push (p : Prefixes) (h : Half) : Option Prefixes :=
  let d : BitVec 10 := h.extractLsb' 0 10
  if 4 ≤ p.count then none
  else match (h.extractLsb' 10 2).toNat with
    | 0 => if 3 ≤ p.imx.length then none else some { p with imx := p.imx ++ [d], count := p.count + 1 }
    | 1 => if p.regx.isSome then none else some { p with regx := some d, count := p.count + 1 }
    | 2 => if p.page.isSome then none else some { p with page := some d, count := p.count + 1 }
    | _ => if p.modp.isSome then none else some { p with modp := some d, count := p.count + 1 }

/-- The page that applies (R32). -/
def Prefixes.pageNo (p : Prefixes) : Nat := (p.page.getD 0).toNat
/-- High bits of X, Y and Z from REGX (R31). -/
def Prefixes.hiX (p : Prefixes) : BitVec 3 := (p.regx.getD 0).extractLsb' 7 3
def Prefixes.hiY (p : Prefixes) : BitVec 3 := (p.regx.getD 0).extractLsb' 4 3
def Prefixes.hiZ (p : Prefixes) : BitVec 3 := (p.regx.getD 0).extractLsb' 1 3

/-- Base fields of the three-operand layouts (R28). -/
def fieldX (w : Half) : BitVec 3 := w.extractLsb' 9 3
def fieldY (w : Half) : BitVec 3 := w.extractLsb' 6 3
def fieldZ (w : Half) : BitVec 3 := w.extractLsb' 3 3
/-- Function code of RRR and of RRF. -/
def fn3 (w : Half) : BitVec 3 := w.extractLsb' 0 3
def fn6 (w : Half) : BitVec 6 := w.extractLsb' 0 6

/-- The extended register numbers (R31). -/
def Prefixes.rx (p : Prefixes) (w : Half) : RegNum := p.hiX ++ fieldX w
def Prefixes.ry (p : Prefixes) (w : Half) : RegNum := p.hiY ++ fieldY w
def Prefixes.rz (p : Prefixes) (w : Half) : RegNum := p.hiZ ++ fieldZ w

/-- A value of `bits` bits extended to 64 (R30). -/
def extendImm (signed : Bool) (bits v : Nat) : Word :=
  if signed && decide (2 ^ (bits - 1) ≤ v) then BitVec.ofInt 64 ((v : Int) - (2 ^ bits : Nat)) else BitVec.ofNat 64 v

/-- P1 :: P2 :: P3 :: base field, extended (R30). -/
def Prefixes.immediate (p : Prefixes) (signed : Bool) (width : Nat) (field : Nat) : Word :=
  extendImm signed (10 * p.imx.length + width) (p.imx.foldl (fun a d => a * 1024 + d.toNat) 0 * 2 ^ width + field)

/-- The chain a base word closes. -/
def Prefixes.chain (p : Prefixes) (w : Half) : Chain := { mod := p.modp.getD 0, len := p.count + 1, word := w }

/-! ### Keyword codes -/

/-- Element type codes (R52). -/
def VTy.code : VTy → BitVec 3
  | .i8 => 0 | .i16 => 1 | .i32 => 2 | .i64 => 3 | .bf16 => 4 | .f16 => 5 | .f32 => 6 | .f64 => 7
def VTy.ofCode (b : BitVec 3) : VTy :=
  match b.toNat with
  | 0 => .i8 | 1 => .i16 | 2 => .i32 | 3 => .i64 | 4 => .bf16 | 5 => .f16 | 6 => .f32 | _ => .f64

/-- VCVTQ selectors, 3 and 7 unassigned (R52). -/
def QFmt.code : QFmt → BitVec 3
  | .e4m3 => 0 | .e5m2 => 1 | .e2m1 => 2 | .we4m3 => 4 | .we5m2 => 5 | .we2m1 => 6
def QFmt.ofCode (b : BitVec 3) : Option QFmt :=
  match b.toNat with
  | 0 => some .e4m3 | 1 => some .e5m2 | 2 => some .e2m1 | 4 => some .we4m3 | 5 => some .we5m2 | 6 => some .we2m1 | _ => none

/-- VSFU selectors (R52). -/
def Sfu.code : Sfu → BitVec 3
  | .exp2 => 0 | .log2 => 1 | .rcp => 2 | .rsqrt => 3 | .sin => 4 | .cos => 5 | .tanh => 6 | .sigm => 7
def Sfu.ofCode (b : BitVec 3) : Sfu :=
  match b.toNat with
  | 0 => .exp2 | 1 => .log2 | 2 => .rcp | 3 => .rsqrt | 4 => .sin | 5 => .cos | 6 => .tanh | _ => .sigm

/-- BARR functions 0x08 to 0x0E (R50). -/
def BarrOp.code : BarrOp → BitVec 6
  | .add => 0x08 | .min => 0x09 | .max => 0x0A | .minu => 0x0B | .maxu => 0x0C | .fadd => 0x0D | .fmax => 0x0E

/-- Link register numbers (R40). -/
def Link.number : Link → RegNum
  | .ln => 40 | .lp => 41 | .lnf => 42 | .lpf => 43
def Link.ofNumber (r : RegNum) : Option Link :=
  match r.toNat with
  | 40 => some .ln | 41 => some .lp | 42 => some .lnf | 43 => some .lpf | _ => none
/-- MPASS names its direction by LN (toward rank + 1) or LP (toward rank - 1) (R53, R303). -/
def Dir.number : Dir → RegNum
  | .up => 40 | .down => 41
def Dir.ofNumber (r : RegNum) : Option Dir :=
  match r.toNat with
  | 40 => some .up | 41 => some .down | _ => none

/-- System register numbers (R43). -/
def SysReg.number : SysReg → BitVec 5
  | .pc => 0 | .tst => 1 | .fctl => 2 | .fst => 3 | .srkey => 4 | .srcnt => 5 | .tcause => 6 | .tepc => 7 | .tval => 8
  | .tvec => 9 | .tscratch => 10 | .vtn => 16 | .gsize => 17 | .psite => 18 | .tmode => 19 | .clkdiv => 20 | .eccnt => 21
  | .cyc => 22 | .age => 23
def SysReg.ofNumber (b : BitVec 5) : Option SysReg :=
  match b.toNat with
  | 0 => some .pc | 1 => some .tst | 2 => some .fctl | 3 => some .fst | 4 => some .srkey | 5 => some .srcnt
  | 6 => some .tcause | 7 => some .tepc | 8 => some .tval | 9 => some .tvec | 10 => some .tscratch
  | 16 => some .vtn | 17 => some .gsize | 18 => some .psite | 19 => some .tmode | 20 => some .clkdiv | 21 => some .eccnt
  | 22 => some .cyc | 23 => some .age | _ => none

/-- m, acc and barrier identifier fields: base values 4 to 7 are illegal (R42). -/
def low2 (b : BitVec 3) : Option (BitVec 2) := if b.toNat < 4 then some (b.setWidth 2) else none

/-! ### Base words, one table per major opcode (R45-R54) -/

/-- Major 0x0, page 0: the S layout and the hint region (R28, R45). -/
def decodeSysPage0 (p : Prefixes) (w : Half) : Option Instr :=
  let c := p.chain w
  let x : RegNum := p.hiX ++ w.extractLsb' 5 3
  if w.getLsbD 11 then
    match (w.extractLsb' 8 3).toNat with
    | 1 => some (.align c (w.extractLsb' 0 8))
    | 2 => some (.pref c x)
    | _ => some (.nop c)
  else match (w.extractLsb' 8 3).toNat with
    | 0 => some (.nop c)
    | 1 => some (.trap c (p.immediate false 8 (w.extractLsb' 0 8).toNat))
    | 2 => some (.eret c)
    | 3 => (SysReg.ofNumber (w.extractLsb' 0 5)).map (.mfs c x)
    | 4 => (SysReg.ofNumber (w.extractLsb' 0 5)).bind fun r => if r.readOnly then none else some (.mts c x r)
    | 5 => some (.brk c (p.immediate false 8 (w.extractLsb' 0 8).toNat))
    | 6 => some (.halt c)
    | _ => some (.sleep c)

/-- Major 0x0, page 1 (R45). -/
def decodeSysPage1 (p : Prefixes) (w : Half) : Option Instr :=
  let c := p.chain w
  let x := p.rx w
  let y := p.ry w
  match (fn6 w).toNat with
  | 0x00 => some (.tstop c x)
  | 0x01 => some (.tsave c x y)
  | 0x02 => some (.tload c x y)
  | 0x03 => some (.tgo c x)
  | 0x04 => some (.tmap c x y)
  | 0x05 => some (.tquar c x)
  | 0x06 => some (.zero c x y)
  | 0x07 => some (.tlbinv c x y)
  | 0x08 => some (.vote c x)
  | _ => none

/-- Major 0x1 (R46). -/
def decodeAlu (p : Prefixes) (w : Half) : Option Instr :=
  let c := p.chain w
  let x := p.rx w
  let y := p.ry w
  let z := p.rz w
  match p.pageNo, (fn3 w).toNat with
  | 0, 0 => some (.add c x y z)
  | 0, 1 => some (.sub c x y z)
  | 0, 2 => some (.and c x y z)
  | 0, 3 => some (.or c x y z)
  | 0, 4 => some (.xor c x y z)
  | 0, 5 => some (.shl c x y z)
  | 0, 6 => some (.shr c x y z)
  | 0, 7 => some (.sar c x y z)
  | 1, 0 => some (.addw c x y z)
  | 1, 1 => some (.subw c x y z)
  | 1, 2 => some (.andn c x y z)
  | 1, 3 => some (.orn c x y z)
  | 1, 4 => some (.xnor c x y z)
  | 1, 5 => some (.rol c x y z)
  | 1, 6 => some (.ror c x y z)
  | 1, 7 => some (.scadd c x y z)
  | _, _ => none

/-- Major 0x2 (R46). -/
def decodeMulCmp (p : Prefixes) (w : Half) : Option Instr :=
  let c := p.chain w
  let x := p.rx w
  let y := p.ry w
  let z := p.rz w
  match p.pageNo, (fn3 w).toNat with
  | 0, 0 => some (.mul c x y z)
  | 0, 1 => some (.mulh c x y z)
  | 0, 2 => some (.mulhu c x y z)
  | 0, 3 => some (.mulhsu c x y z)
  | 0, 4 => some (.div c x y z)
  | 0, 5 => some (.divu c x y z)
  | 0, 6 => some (.rem c x y z)
  | 0, 7 => some (.remu c x y z)
  | 1, 0 => some (.slt c x y z)
  | 1, 1 => some (.sltu c x y z)
  | 1, 2 => some (.seq c x y z)
  | 1, 3 => some (.sne c x y z)
  | 1, 4 => some (.min c x y z)
  | 1, 5 => some (.max c x y z)
  | 1, 6 => some (.minu c x y z)
  | 1, 7 => some (.maxu c x y z)
  | 2, 0 => some (.clz c x y)
  | 2, 1 => some (.ctz c x y)
  | 2, 2 => some (.popc c x y)
  | 2, 3 => some (.brev c x y)
  | 2, 4 => some (.bswap c x y)
  | 2, 5 => some (.sexb c x y)
  | 2, 6 => some (.sexh c x y)
  | 2, 7 => some (.sexw c x y)
  | 3, 0 => some (.hxy c x y z)
  | 3, 1 => some (.hidx c x y z)
  | 3, 2 => some (.sel c x y z)
  | _, _ => none

/-- Major 0x3 (R47). -/
def decodeJump (p : Prefixes) (w : Half) : Option Instr :=
  let c := p.chain w
  let i := p.immediate true 12 (w.extractLsb' 0 12).toNat
  match p.pageNo with
  | 0 => some (.j c i)
  | 1 => some (.call c i)
  | 2 => match (fn3 w).toNat with
    | 0 => some (.jr c (p.rx w))
    | 1 => some (.callr c (p.rx w))
    | 2 => some (.ret c)
    | _ => none
  | _ => none

/-- Major 0x4 (R47): ADDI and ANDI sign-extend. -/
def decodeImmAlu (p : Prefixes) (w : Half) : Option Instr :=
  let c := p.chain w
  let x := p.rx w
  let y := p.ry w
  let s := p.immediate true 6 (fn6 w).toNat
  let u := p.immediate false 6 (fn6 w).toNat
  match p.pageNo with
  | 0 => some (.addi c x y s)
  | 1 => some (.andi c x y s)
  | 2 => some (.ori c x y u)
  | 3 => some (.xori c x y u)
  | 4 => some (.shli c x y u)
  | 5 => some (.shri c x y u)
  | 6 => some (.sari c x y u)
  | _ => none

/-- Major 0x5 (R47, R115): LIH needs a g register. -/
def decodeLi (p : Prefixes) (w : Half) : Option Instr :=
  let c := p.chain w
  let x := p.rx w
  let f := (w.extractLsb' 0 9).toNat
  match p.pageNo with
  | 0 => some (.li c x (p.immediate true 9 f))
  | 1 => if x.toNat < 32 then some (.lih c x (p.immediate false 9 f)) else none
  | 2 => some (.addpc c x (p.immediate true 9 f))
  | _ => none

/-- Major 0x6 (R48). -/
def decodeLoad (p : Prefixes) (w : Half) : Option Instr :=
  let c := p.chain w
  let x := p.rx w
  let y := p.ry w
  let o := p.immediate true 4 (w.extractLsb' 0 4).toNat
  match p.pageNo, (w.extractLsb' 4 2).toNat with
  | 0, 0 => some (.ldb c x y o)
  | 0, 1 => some (.ldh c x y o)
  | 0, 2 => some (.ldw c x y o)
  | 0, 3 => some (.ldd c x y o)
  | 1, 0 => some (.ldbs c x y o)
  | 1, 1 => some (.ldhs c x y o)
  | 1, 2 => some (.ldws c x y o)
  | 2, 0 => some (.ldf c x y o)
  | 2, 1 => some (.ldfd c x y o)
  | 2, 2 => some (.ldfe c x y o)
  | 2, 3 => some (.ldfed c x y o)
  | 3, 0 => some (.vld c x y o)
  | _, _ => none

/-- Major 0x7 (R48). -/
def decodeStore (p : Prefixes) (w : Half) : Option Instr :=
  let c := p.chain w
  let x := p.rx w
  let y := p.ry w
  let o := p.immediate true 4 (w.extractLsb' 0 4).toNat
  match p.pageNo, (w.extractLsb' 4 2).toNat with
  | 0, 0 => some (.stb c x y o)
  | 0, 1 => some (.sth c x y o)
  | 0, 2 => some (.stw c x y o)
  | 0, 3 => some (.std c x y o)
  | 1, 0 => some (.ste c x y o)
  | 1, 1 => some (.sted c x y o)
  | 2, 0 => some (.stf c x y o)
  | 2, 1 => some (.stfd c x y o)
  | 3, 0 => some (.vst c x y o)
  | _, _ => none

/-- Major 0x8 (R49): page 0 only. -/
def decodeBranch (p : Prefixes) (w : Half) : Option Instr :=
  let c := p.chain w
  let x := p.rx w
  let i := p.immediate true 6 (fn6 w).toNat
  match p.pageNo, (fieldY w).toNat with
  | 0, 0 => some (.bz c x i)
  | 0, 1 => some (.bnz c x i)
  | 0, 2 => some (.bltz c x i)
  | 0, 3 => some (.bgez c x i)
  | 0, 4 => some (.bq c (fieldX w) i)
  | 0, 5 => some (.bnq c (fieldX w) i)
  | 0, 6 => some (.loop c x i)
  | _, _ => none

/-- Major 0x9 (R49). -/
def decodeCompareBranch (p : Prefixes) (w : Half) : Option Instr :=
  let c := p.chain w
  let x := p.rx w
  let y := p.ry w
  let i := p.immediate true 6 (fn6 w).toNat
  match p.pageNo with
  | 0 => some (.beq c x y i)
  | 1 => some (.bne c x y i)
  | 2 => some (.blt c x y i)
  | 3 => some (.bge c x y i)
  | 4 => some (.bltu c x y i)
  | 5 => some (.bgeu c x y i)
  | _ => none

/-- Major 0xA, page 0 (R50). -/
def decodeSync (p : Prefixes) (w : Half) : Option Instr :=
  let c := p.chain w
  let x := p.rx w
  let y := p.ry w
  match (fn6 w).toNat with
  | 0x00 => some (.lrw c x y)
  | 0x01 => some (.sch c x y)
  | 0x02 => some (.lro c x y)
  | 0x03 => some (.sco c x y)
  | 0x04 => some (.oinit c x y)
  | 0x08 => some (.aadd c x y)
  | 0x09 => some (.aand c x y)
  | 0x0A => some (.aor c x y)
  | 0x0B => some (.axor c x y)
  | 0x0C => some (.amin c x y)
  | 0x0D => some (.amax c x y)
  | 0x0E => some (.aminu c x y)
  | 0x0F => some (.amaxu c x y)
  | 0x10 => some (.aswap c x y)
  | 0x11 => if pairReg x then some (.acas c x y) else none
  | 0x12 => some (.afadd c x y)
  | 0x13 => if pairReg x then some (.afaddo c x y) else none
  | 0x14 => match c.scope.toNat with
    | 0 => some (.fence c)
    | 1 => some (.fenceG c)
    | 2 => some (.fenceM c)
    | _ => some (.fenceP c)
  | 0x15 => some (.waitc c (x.setWidth 4) y)
  | 0x16 => some (.waitf c y)
  | 0x17 => some (.clrf c y)
  | 0x18 => if isShared y then some (.take c x y) else none
  | 0x28 => some (.aaddw c x y)
  | 0x29 => some (.aandw c x y)
  | 0x2A => some (.aorw c x y)
  | 0x2B => some (.axorw c x y)
  | 0x2C => some (.aminw c x y)
  | 0x2D => some (.amaxw c x y)
  | 0x2E => some (.aminuw c x y)
  | 0x2F => some (.amaxuw c x y)
  | 0x30 => some (.aswapw c x y)
  | 0x31 => if pairReg x then some (.acasw c x y) else none
  | 0x32 => some (.afaddw c x y)
  | 0x33 => if pairReg x then some (.afaddow c x y) else none
  | _ => none

/-- Major 0xA, page 1 (R50). -/
def decodeBarrier (p : Prefixes) (w : Half) : Option Instr :=
  let c := p.chain w
  let x := p.rx w
  (low2 (fieldY w)).bind fun b => match (fn6 w).toNat with
  | 0x00 => some (.bar c b)
  | 0x01 => some (.bars c b)
  | 0x02 => some (.barcfg c b x)
  | 0x03 => some (.barq c x b)
  | 0x08 => some (.barr c x b .add)
  | 0x09 => some (.barr c x b .min)
  | 0x0A => some (.barr c x b .max)
  | 0x0B => some (.barr c x b .minu)
  | 0x0C => some (.barr c x b .maxu)
  | 0x0D => some (.barr c x b .fadd)
  | 0x0E => some (.barr c x b .fmax)
  | _ => none

/-- Major 0xB (R51). -/
def decodeMsg (p : Prefixes) (w : Half) : Option Instr :=
  let c := p.chain w
  let x := p.rx w
  let y := p.ry w
  let z := p.rz w
  let k : BitVec 4 := z.setWidth 4
  match p.pageNo, (fn3 w).toNat with
  | 0, 0 => some (.put c x y k)
  | 0, 1 => some (.putv c x y k)
  | 0, 2 => some (.get c x y k)
  | 0, 3 => some (.send c x y)
  | 0, 4 => some (.cset c k x)
  | 0, 5 => some (.cinc c k x y)
  | 0, 6 => some (.crd c x k)
  | 0, 7 => some (.post c x y)
  | 1, 0 => some (.arm c (fieldZ w) x y)
  | 1, 1 => some (.disarm c (fieldZ w))
  | _, _ => none

/-- Major 0xC (R52, R268). -/
def decodeVec (p : Prefixes) (w : Half) : Option Instr :=
  let c := p.chain w
  let x := p.rx w
  let y := p.ry w
  let z := p.rz w
  let t := VTy.ofCode (fn3 w)
  match p.pageNo with
  | 0 => some (.vadd c t x y z)
  | 1 => some (.vsub c t x y z)
  | 2 => some (.vmul c t x y z)
  | 3 => if !isHandle x then some (.vfma c t x y z) else none
  | 4 => some (.vmin c t x y z)
  | 5 => some (.vmax c t x y z)
  | 6 => if !isHandle x then some (.vaddmin c t x y z) else none
  | 7 => if t.isFloat then some (.vdiv c t x y z) else none
  | 8 => if t.isFloat then some (.vsqrt c t x y) else none
  | 9 => some (.vand c t x y z)
  | 10 => some (.vor c t x y z)
  | 11 => some (.vxor c t x y z)
  | 12 => if !t.isFloat then some (.vshl c t x y z) else none
  | 13 => if !t.isFloat then some (.vshr c t x y z) else none
  | 14 => if !t.isFloat then some (.vsar c t x y z) else none
  | 15 => some (.vceq c t (fieldX w) y z)
  | 16 => some (.vclt c t (fieldX w) y z)
  | 17 => some (.vcle c t (fieldX w) y z)
  | 18 => some (.vsel c t x y z)
  | 19 => some (.vslu c t x y z)
  | 20 => some (.vsld c t x y z)
  | 21 => if !t.isFloat then some (.vperm c t x y z) else none
  | 22 => some (.vbcst c t x y)
  | 23 => if decide (z.toNat < t.lanes) then some (.vext c t x y z) else none
  | 24 => if decide (z.toNat < t.lanes) && !isHandle x then some (.vins c t x y z) else none
  | 25 => some (.vredadd c t x y)
  | 26 => some (.vcvt c t x y (VTy.ofCode (fieldZ w)))
  | 27 => if t.isFloat then (QFmt.ofCode (fieldZ w)).map (.vcvtq c t x y) else none
  | 28 => if t.isFloat then some (.vsfu c t x y (Sfu.ofCode (fieldZ w))) else none
  | 29 => if t == .i32 then some (.vpeg c x y z) else none
  | _ => none

/-- Major 0xD (R53). -/
def decodeMtx (p : Prefixes) (w : Half) : Option Instr :=
  let c := p.chain w
  let x := p.rx w
  let y := p.ry w
  match p.pageNo, (fn6 w).toNat with
  | 0, 0x00 => (low2 (fieldX w)).map fun m => .mtcfg c m y
  | 0, 0x01 => (low2 (fieldY w)).map fun m => .mfcfg c x m
  | 0, 0x02 => (low2 (fieldX w)).map fun m => .mld c m y
  | 0, 0x03 => (low2 (fieldX w)).bind fun m => (Link.ofNumber y).map fun l => .mldl c m l
  | 0, 0x04 => (low2 (fieldX w)).map fun m => .mst c m y
  | 0, 0x05 => (low2 (fieldX w)).bind fun m => (Dir.ofNumber y).map fun d => .mpass c m d
  | 0, 0x06 => (low2 (fieldX w)).map fun a => .mzero c a
  | 0, 0x07 => (low2 (fieldX w)).map fun a => .mrda c a y
  | 0, 0x08 => (low2 (fieldX w)).map fun a => .mwra c a y
  | 0, 0x09 => (low2 (fieldX w)).map fun m => .mscl c m y
  | 0, 0x10 | 0, 0x11 | 0, 0x12 | 0, 0x13 =>
      (low2 (fieldX w)).bind fun a => (low2 (fieldY w)).map fun m => .mma c a m (w.extractLsb' 0 2)
  | _, _ => none

/-- Major 0xE (R54). -/
def decodeEng (p : Prefixes) (w : Half) : Option Instr :=
  let c := p.chain w
  let x := p.rx w
  let y := p.ry w
  match p.pageNo, (fn6 w).toNat with
  | 0, 0x00 => some (.scfg c (fieldX w) y)
  | 0, 0x01 => some (.sadv c (fieldX w) y)
  | 0, 0x02 => some (.sqry c x (fieldY w))
  | 0, 0x03 => some (.sclr c (fieldX w))
  | 0, 0x04 => some (.cpy c x y)
  | 0, 0x05 => some (.cpyg c x y)
  | 0, 0x06 => some (.cpys c x y)
  | 0, 0x07 => some (.cpyz c x y)
  | 0, 0x08 => some (.cjoin c x)
  | 0, 0x09 => if pairReg x then some (.evpop c x) else none
  | 0, 0x0A => if pairReg x then some (.evwait c x) else none
  | 1, 0x00 => some (.launch c x)
  | 1, 0x01 => some (.cancel c x)
  | 1, 0x02 => some (.gwait c x)
  | 1, 0x03 => some (.gqry c x y)
  | 1, 0x04 => some (.spawn c x y)
  | 1, 0x05 => some (.seed c x)
  | 1, 0x06 => if (fieldY w).toNat < 2 then some (.crdig c x ((fieldY w).setWidth 1)) else none
  | 1, 0x07 => some (.cron c)
  | 1, 0x08 => some (.croff c)
  | 1, 0x09 => some (.crstat c x y)
  | _, _ => none

/-- A base word under the prefixes before it; `none` where the opcode map assigns nothing (R44). -/
def decodeBase (p : Prefixes) (w : Half) : Option Instr :=
  match (majorOf w).toNat with
  | 0x0 => match p.pageNo with
    | 0 => decodeSysPage0 p w
    | 1 => decodeSysPage1 p w
    | _ => none
  | 0x1 => decodeAlu p w
  | 0x2 => decodeMulCmp p w
  | 0x3 => decodeJump p w
  | 0x4 => decodeImmAlu p w
  | 0x5 => decodeLi p w
  | 0x6 => decodeLoad p w
  | 0x7 => decodeStore p w
  | 0x8 => decodeBranch p w
  | 0x9 => decodeCompareBranch p w
  | 0xA => match p.pageNo with
    | 0 => decodeSync p w
    | 1 => decodeBarrier p w
    | _ => none
  | 0xB => decodeMsg p w
  | 0xC => decodeVec p w
  | 0xD => decodeMtx p w
  | 0xE => decodeEng p w
  | _ => none

/-- What one more halfword makes of a chain in progress: the fetch reads halfwords one at a time (R35, R131). -/
inductive Fed where
  /-- A prefix that keeps the limits. -/
  | more (p : Prefixes)
  /-- The base word closed the chain. -/
  | done (i : Instr)
  /-- Not an instruction. -/
  | bad (e : DecodeError)
deriving DecidableEq, Repr, Inhabited

/-- Take one halfword into a chain in progress. -/
def Prefixes.feed (p : Prefixes) (h : Half) : Fed :=
  if isPrefixWord h then
    match p.push h with
    | some p' => .more p'
    | none => .bad (.chainLimit h)
  else match decodeBase p h with
    | some i => .done i
    | none => .bad (.unassigned h)

/-- Read the rest of a chain from a list of halfwords; what is left of the list comes with it. -/
def decodeFrom (p : Prefixes) : List Half → Except DecodeError (Instr × List Half)
  | [] => .error .truncated
  | h :: rest => match p.feed h with
    | .more p' => decodeFrom p' rest
    | .done i => .ok (i, rest)
    | .bad e => .error e

/-- Read one instruction from halfwords. -/
def decode (hs : List Half) : Except DecodeError (Instr × List Half) := decodeFrom {} hs

/-- Halfwords are stored with the least significant byte first (R27). -/
def halvesOfBytes : List Byte → List Half
  | lo :: hi :: rest => (hi ++ lo) :: halvesOfBytes rest
  | _ => []

/-- The bytes of halfwords, least significant byte first (R27). -/
def bytesOfHalves : List Half → List Byte
  | [] => []
  | h :: rest => h.setWidth 8 :: h.extractLsb' 8 8 :: bytesOfHalves rest

/-- Read one instruction from bytes in memory order. -/
def decodeBytes (bs : List Byte) : Except DecodeError (Instr × List Half) := decode (halvesOfBytes bs)

/-- The halfwords, in memory order, that a table word of `nbits` bits stands for. A 32-bit row is a prefix halfword and a
base word; the table gives the prefix bits 31 to 16. Where bits 15 to 12 are 0xF the low half is the prefix, so it stands first
(log entry 8). -/
def tableHalves (nbits w : Nat) : List Half :=
  let lo : Half := BitVec.ofNat 16 w
  let hi : Half := BitVec.ofNat 16 (w / 65536)
  if nbits ≤ 16 then [lo] else if isPrefixWord lo then [lo, hi] else [hi, lo]

/-- The instruction the decoder reads from a table word. -/
def decodeTableWord (nbits w : Nat) : Option Instr :=
  match decodeBytes (bytesOfHalves (tableHalves nbits w)) with
  | .ok (i, _) => some i
  | .error _ => none

/-! ### The encoder (R27-R32, R58) -/

/-- RRR, RRF, S and H base words (R28). -/
def rrr (maj : BitVec 4) (x y z fn : BitVec 3) : Half := maj ++ x ++ y ++ z ++ fn
def rrf (maj : BitVec 4) (x y : BitVec 3) (fn : BitVec 6) : Half := maj ++ x ++ y ++ fn
def sLayout (fn x : BitVec 3) (k : BitVec 5) : Half := 0#5 ++ fn ++ x ++ k
def hLayout (code : BitVec 3) (op : BitVec 8) : Half := 1#5 ++ code ++ op
/-- The REGX payload of three high parts (R29). -/
def regxOf (x y z : BitVec 3) : BitVec 10 := x ++ y ++ z ++ 0#1

/-- A base word, whole or with an immediate field at its foot. -/
inductive BaseWord where
  | word (w : Half)
  | imm4 (hi : BitVec 12) (v : Word)
  | imm6 (signed : Bool) (hi : BitVec 10) (v : Word)
  | imm8 (hi : BitVec 8) (v : Word)
  | imm9 (signed : Bool) (hi : BitVec 7) (v : Word)
  | imm12 (hi : BitVec 4) (v : Word)
deriving DecidableEq, Repr, Inhabited

/-- Width of the immediate field, 0 for none. -/
def BaseWord.width : BaseWord → Nat
  | .word _ => 0 | .imm4 _ _ => 4 | .imm6 _ _ _ => 6 | .imm8 _ _ => 8 | .imm9 _ _ _ => 9 | .imm12 _ _ => 12
/-- Whether the immediate is sign-extended. -/
def BaseWord.signed : BaseWord → Bool
  | .word _ => false | .imm4 _ _ => true | .imm6 s _ _ => s | .imm8 _ _ => false | .imm9 s _ _ => s | .imm12 _ _ => true
/-- The whole immediate. -/
def BaseWord.value : BaseWord → Word
  | .word _ => 0 | .imm4 _ v => v | .imm6 _ _ v => v | .imm8 _ v => v | .imm9 _ _ v => v | .imm12 _ v => v
/-- The halfword: the field holds the immediate's low bits (R30). -/
def BaseWord.half : BaseWord → Half
  | .word w => w
  | .imm4 hi v => hi ++ v.setWidth 4
  | .imm6 _ hi v => hi ++ v.setWidth 6
  | .imm8 hi v => hi ++ v.setWidth 8
  | .imm9 _ hi v => hi ++ v.setWidth 9
  | .imm12 hi v => hi ++ v.setWidth 12

/-- The parts of an encoding that the opcode map fixes. -/
structure Enc where
  page : BitVec 10
  regx : BitVec 10
  base : BaseWord
deriving DecidableEq, Repr, Inhabited

/-- The encoding of every instruction, from the tables of R45-R54; an event has none. -/
def Instr.enc : Instr → Option Enc
  | .nop _ => some ⟨0, 0, .word (sLayout 0 0 0)⟩
  | .trap _ imm => some ⟨0, 0, .imm8 0x01 imm⟩
  | .eret _ => some ⟨0, 0, .word (sLayout 2 0 0)⟩
  | .mfs _ x r => some ⟨0, (regxOf (x.extractLsb' 3 3) 0#3 0#3), .word (sLayout 3 (x.extractLsb' 0 3) r.number)⟩
  | .mts _ x r => some ⟨0, (regxOf (x.extractLsb' 3 3) 0#3 0#3), .word (sLayout 4 (x.extractLsb' 0 3) r.number)⟩
  | .brk _ imm => some ⟨0, 0, .imm8 0x05 imm⟩
  | .halt _ => some ⟨0, 0, .word (sLayout 6 0 0)⟩
  | .sleep _ => some ⟨0, 0, .word (sLayout 7 0 0)⟩
  | .align _ tag => some ⟨0, 0, .word (hLayout 1 tag)⟩
  | .pref _ x => some ⟨0, (regxOf (x.extractLsb' 3 3) 0#3 0#3), .word (hLayout 2 ((x.extractLsb' 0 3) ++ 0#5))⟩
  | .tstop _ x => some ⟨1, (regxOf (x.extractLsb' 3 3) 0#3 0#3), .word (rrf 0x0 (x.extractLsb' 0 3) 0#3 0x0)⟩
  | .tsave _ x y => some ⟨1, (regxOf (x.extractLsb' 3 3) (y.extractLsb' 3 3) 0#3), .word (rrf 0x0 (x.extractLsb' 0 3) (y.extractLsb' 0 3) 0x1)⟩
  | .tload _ x y => some ⟨1, (regxOf (x.extractLsb' 3 3) (y.extractLsb' 3 3) 0#3), .word (rrf 0x0 (x.extractLsb' 0 3) (y.extractLsb' 0 3) 0x2)⟩
  | .tgo _ x => some ⟨1, (regxOf (x.extractLsb' 3 3) 0#3 0#3), .word (rrf 0x0 (x.extractLsb' 0 3) 0#3 0x3)⟩
  | .tmap _ x y => some ⟨1, (regxOf (x.extractLsb' 3 3) (y.extractLsb' 3 3) 0#3), .word (rrf 0x0 (x.extractLsb' 0 3) (y.extractLsb' 0 3) 0x4)⟩
  | .tquar _ x => some ⟨1, (regxOf (x.extractLsb' 3 3) 0#3 0#3), .word (rrf 0x0 (x.extractLsb' 0 3) 0#3 0x5)⟩
  | .zero _ x y => some ⟨1, (regxOf (x.extractLsb' 3 3) (y.extractLsb' 3 3) 0#3), .word (rrf 0x0 (x.extractLsb' 0 3) (y.extractLsb' 0 3) 0x6)⟩
  | .tlbinv _ x y => some ⟨1, (regxOf (x.extractLsb' 3 3) (y.extractLsb' 3 3) 0#3), .word (rrf 0x0 (x.extractLsb' 0 3) (y.extractLsb' 0 3) 0x7)⟩
  | .vote _ x => some ⟨1, (regxOf (x.extractLsb' 3 3) 0#3 0#3), .word (rrf 0x0 (x.extractLsb' 0 3) 0#3 0x8)⟩
  | .add _ x y z => some ⟨0, (regxOf (x.extractLsb' 3 3) (y.extractLsb' 3 3) (z.extractLsb' 3 3)), .word (rrr 0x1 (x.extractLsb' 0 3) (y.extractLsb' 0 3) (z.extractLsb' 0 3) 0)⟩
  | .sub _ x y z => some ⟨0, (regxOf (x.extractLsb' 3 3) (y.extractLsb' 3 3) (z.extractLsb' 3 3)), .word (rrr 0x1 (x.extractLsb' 0 3) (y.extractLsb' 0 3) (z.extractLsb' 0 3) 1)⟩
  | .and _ x y z => some ⟨0, (regxOf (x.extractLsb' 3 3) (y.extractLsb' 3 3) (z.extractLsb' 3 3)), .word (rrr 0x1 (x.extractLsb' 0 3) (y.extractLsb' 0 3) (z.extractLsb' 0 3) 2)⟩
  | .or _ x y z => some ⟨0, (regxOf (x.extractLsb' 3 3) (y.extractLsb' 3 3) (z.extractLsb' 3 3)), .word (rrr 0x1 (x.extractLsb' 0 3) (y.extractLsb' 0 3) (z.extractLsb' 0 3) 3)⟩
  | .xor _ x y z => some ⟨0, (regxOf (x.extractLsb' 3 3) (y.extractLsb' 3 3) (z.extractLsb' 3 3)), .word (rrr 0x1 (x.extractLsb' 0 3) (y.extractLsb' 0 3) (z.extractLsb' 0 3) 4)⟩
  | .shl _ x y z => some ⟨0, (regxOf (x.extractLsb' 3 3) (y.extractLsb' 3 3) (z.extractLsb' 3 3)), .word (rrr 0x1 (x.extractLsb' 0 3) (y.extractLsb' 0 3) (z.extractLsb' 0 3) 5)⟩
  | .shr _ x y z => some ⟨0, (regxOf (x.extractLsb' 3 3) (y.extractLsb' 3 3) (z.extractLsb' 3 3)), .word (rrr 0x1 (x.extractLsb' 0 3) (y.extractLsb' 0 3) (z.extractLsb' 0 3) 6)⟩
  | .sar _ x y z => some ⟨0, (regxOf (x.extractLsb' 3 3) (y.extractLsb' 3 3) (z.extractLsb' 3 3)), .word (rrr 0x1 (x.extractLsb' 0 3) (y.extractLsb' 0 3) (z.extractLsb' 0 3) 7)⟩
  | .addw _ x y z => some ⟨1, (regxOf (x.extractLsb' 3 3) (y.extractLsb' 3 3) (z.extractLsb' 3 3)), .word (rrr 0x1 (x.extractLsb' 0 3) (y.extractLsb' 0 3) (z.extractLsb' 0 3) 0)⟩
  | .subw _ x y z => some ⟨1, (regxOf (x.extractLsb' 3 3) (y.extractLsb' 3 3) (z.extractLsb' 3 3)), .word (rrr 0x1 (x.extractLsb' 0 3) (y.extractLsb' 0 3) (z.extractLsb' 0 3) 1)⟩
  | .andn _ x y z => some ⟨1, (regxOf (x.extractLsb' 3 3) (y.extractLsb' 3 3) (z.extractLsb' 3 3)), .word (rrr 0x1 (x.extractLsb' 0 3) (y.extractLsb' 0 3) (z.extractLsb' 0 3) 2)⟩
  | .orn _ x y z => some ⟨1, (regxOf (x.extractLsb' 3 3) (y.extractLsb' 3 3) (z.extractLsb' 3 3)), .word (rrr 0x1 (x.extractLsb' 0 3) (y.extractLsb' 0 3) (z.extractLsb' 0 3) 3)⟩
  | .xnor _ x y z => some ⟨1, (regxOf (x.extractLsb' 3 3) (y.extractLsb' 3 3) (z.extractLsb' 3 3)), .word (rrr 0x1 (x.extractLsb' 0 3) (y.extractLsb' 0 3) (z.extractLsb' 0 3) 4)⟩
  | .rol _ x y z => some ⟨1, (regxOf (x.extractLsb' 3 3) (y.extractLsb' 3 3) (z.extractLsb' 3 3)), .word (rrr 0x1 (x.extractLsb' 0 3) (y.extractLsb' 0 3) (z.extractLsb' 0 3) 5)⟩
  | .ror _ x y z => some ⟨1, (regxOf (x.extractLsb' 3 3) (y.extractLsb' 3 3) (z.extractLsb' 3 3)), .word (rrr 0x1 (x.extractLsb' 0 3) (y.extractLsb' 0 3) (z.extractLsb' 0 3) 6)⟩
  | .scadd _ x y z => some ⟨1, (regxOf (x.extractLsb' 3 3) (y.extractLsb' 3 3) (z.extractLsb' 3 3)), .word (rrr 0x1 (x.extractLsb' 0 3) (y.extractLsb' 0 3) (z.extractLsb' 0 3) 7)⟩
  | .mul _ x y z => some ⟨0, (regxOf (x.extractLsb' 3 3) (y.extractLsb' 3 3) (z.extractLsb' 3 3)), .word (rrr 0x2 (x.extractLsb' 0 3) (y.extractLsb' 0 3) (z.extractLsb' 0 3) 0)⟩
  | .mulh _ x y z => some ⟨0, (regxOf (x.extractLsb' 3 3) (y.extractLsb' 3 3) (z.extractLsb' 3 3)), .word (rrr 0x2 (x.extractLsb' 0 3) (y.extractLsb' 0 3) (z.extractLsb' 0 3) 1)⟩
  | .mulhu _ x y z => some ⟨0, (regxOf (x.extractLsb' 3 3) (y.extractLsb' 3 3) (z.extractLsb' 3 3)), .word (rrr 0x2 (x.extractLsb' 0 3) (y.extractLsb' 0 3) (z.extractLsb' 0 3) 2)⟩
  | .mulhsu _ x y z => some ⟨0, (regxOf (x.extractLsb' 3 3) (y.extractLsb' 3 3) (z.extractLsb' 3 3)), .word (rrr 0x2 (x.extractLsb' 0 3) (y.extractLsb' 0 3) (z.extractLsb' 0 3) 3)⟩
  | .div _ x y z => some ⟨0, (regxOf (x.extractLsb' 3 3) (y.extractLsb' 3 3) (z.extractLsb' 3 3)), .word (rrr 0x2 (x.extractLsb' 0 3) (y.extractLsb' 0 3) (z.extractLsb' 0 3) 4)⟩
  | .divu _ x y z => some ⟨0, (regxOf (x.extractLsb' 3 3) (y.extractLsb' 3 3) (z.extractLsb' 3 3)), .word (rrr 0x2 (x.extractLsb' 0 3) (y.extractLsb' 0 3) (z.extractLsb' 0 3) 5)⟩
  | .rem _ x y z => some ⟨0, (regxOf (x.extractLsb' 3 3) (y.extractLsb' 3 3) (z.extractLsb' 3 3)), .word (rrr 0x2 (x.extractLsb' 0 3) (y.extractLsb' 0 3) (z.extractLsb' 0 3) 6)⟩
  | .remu _ x y z => some ⟨0, (regxOf (x.extractLsb' 3 3) (y.extractLsb' 3 3) (z.extractLsb' 3 3)), .word (rrr 0x2 (x.extractLsb' 0 3) (y.extractLsb' 0 3) (z.extractLsb' 0 3) 7)⟩
  | .slt _ x y z => some ⟨1, (regxOf (x.extractLsb' 3 3) (y.extractLsb' 3 3) (z.extractLsb' 3 3)), .word (rrr 0x2 (x.extractLsb' 0 3) (y.extractLsb' 0 3) (z.extractLsb' 0 3) 0)⟩
  | .sltu _ x y z => some ⟨1, (regxOf (x.extractLsb' 3 3) (y.extractLsb' 3 3) (z.extractLsb' 3 3)), .word (rrr 0x2 (x.extractLsb' 0 3) (y.extractLsb' 0 3) (z.extractLsb' 0 3) 1)⟩
  | .seq _ x y z => some ⟨1, (regxOf (x.extractLsb' 3 3) (y.extractLsb' 3 3) (z.extractLsb' 3 3)), .word (rrr 0x2 (x.extractLsb' 0 3) (y.extractLsb' 0 3) (z.extractLsb' 0 3) 2)⟩
  | .sne _ x y z => some ⟨1, (regxOf (x.extractLsb' 3 3) (y.extractLsb' 3 3) (z.extractLsb' 3 3)), .word (rrr 0x2 (x.extractLsb' 0 3) (y.extractLsb' 0 3) (z.extractLsb' 0 3) 3)⟩
  | .min _ x y z => some ⟨1, (regxOf (x.extractLsb' 3 3) (y.extractLsb' 3 3) (z.extractLsb' 3 3)), .word (rrr 0x2 (x.extractLsb' 0 3) (y.extractLsb' 0 3) (z.extractLsb' 0 3) 4)⟩
  | .max _ x y z => some ⟨1, (regxOf (x.extractLsb' 3 3) (y.extractLsb' 3 3) (z.extractLsb' 3 3)), .word (rrr 0x2 (x.extractLsb' 0 3) (y.extractLsb' 0 3) (z.extractLsb' 0 3) 5)⟩
  | .minu _ x y z => some ⟨1, (regxOf (x.extractLsb' 3 3) (y.extractLsb' 3 3) (z.extractLsb' 3 3)), .word (rrr 0x2 (x.extractLsb' 0 3) (y.extractLsb' 0 3) (z.extractLsb' 0 3) 6)⟩
  | .maxu _ x y z => some ⟨1, (regxOf (x.extractLsb' 3 3) (y.extractLsb' 3 3) (z.extractLsb' 3 3)), .word (rrr 0x2 (x.extractLsb' 0 3) (y.extractLsb' 0 3) (z.extractLsb' 0 3) 7)⟩
  | .clz _ x y => some ⟨2, (regxOf (x.extractLsb' 3 3) (y.extractLsb' 3 3) 0#3), .word (rrr 0x2 (x.extractLsb' 0 3) (y.extractLsb' 0 3) 0#3 0)⟩
  | .ctz _ x y => some ⟨2, (regxOf (x.extractLsb' 3 3) (y.extractLsb' 3 3) 0#3), .word (rrr 0x2 (x.extractLsb' 0 3) (y.extractLsb' 0 3) 0#3 1)⟩
  | .popc _ x y => some ⟨2, (regxOf (x.extractLsb' 3 3) (y.extractLsb' 3 3) 0#3), .word (rrr 0x2 (x.extractLsb' 0 3) (y.extractLsb' 0 3) 0#3 2)⟩
  | .brev _ x y => some ⟨2, (regxOf (x.extractLsb' 3 3) (y.extractLsb' 3 3) 0#3), .word (rrr 0x2 (x.extractLsb' 0 3) (y.extractLsb' 0 3) 0#3 3)⟩
  | .bswap _ x y => some ⟨2, (regxOf (x.extractLsb' 3 3) (y.extractLsb' 3 3) 0#3), .word (rrr 0x2 (x.extractLsb' 0 3) (y.extractLsb' 0 3) 0#3 4)⟩
  | .sexb _ x y => some ⟨2, (regxOf (x.extractLsb' 3 3) (y.extractLsb' 3 3) 0#3), .word (rrr 0x2 (x.extractLsb' 0 3) (y.extractLsb' 0 3) 0#3 5)⟩
  | .sexh _ x y => some ⟨2, (regxOf (x.extractLsb' 3 3) (y.extractLsb' 3 3) 0#3), .word (rrr 0x2 (x.extractLsb' 0 3) (y.extractLsb' 0 3) 0#3 6)⟩
  | .sexw _ x y => some ⟨2, (regxOf (x.extractLsb' 3 3) (y.extractLsb' 3 3) 0#3), .word (rrr 0x2 (x.extractLsb' 0 3) (y.extractLsb' 0 3) 0#3 7)⟩
  | .hxy _ x y z => some ⟨3, (regxOf (x.extractLsb' 3 3) (y.extractLsb' 3 3) (z.extractLsb' 3 3)), .word (rrr 0x2 (x.extractLsb' 0 3) (y.extractLsb' 0 3) (z.extractLsb' 0 3) 0)⟩
  | .hidx _ x y z => some ⟨3, (regxOf (x.extractLsb' 3 3) (y.extractLsb' 3 3) (z.extractLsb' 3 3)), .word (rrr 0x2 (x.extractLsb' 0 3) (y.extractLsb' 0 3) (z.extractLsb' 0 3) 1)⟩
  | .sel _ x y z => some ⟨3, (regxOf (x.extractLsb' 3 3) (y.extractLsb' 3 3) (z.extractLsb' 3 3)), .word (rrr 0x2 (x.extractLsb' 0 3) (y.extractLsb' 0 3) (z.extractLsb' 0 3) 2)⟩
  | .j _ imm => some ⟨0, 0, .imm12 0x3 imm⟩
  | .call _ imm => some ⟨1, 0, .imm12 0x3 imm⟩
  | .jr _ x => some ⟨2, (regxOf (x.extractLsb' 3 3) 0#3 0#3), .word (rrr 0x3 (x.extractLsb' 0 3) 0 0 0)⟩
  | .callr _ x => some ⟨2, (regxOf (x.extractLsb' 3 3) 0#3 0#3), .word (rrr 0x3 (x.extractLsb' 0 3) 0 0 1)⟩
  | .ret _ => some ⟨2, 0, .word (rrr 0x3 0#3 0 0 2)⟩
  | .addi _ x y imm => some ⟨0, (regxOf (x.extractLsb' 3 3) (y.extractLsb' 3 3) 0#3), .imm6 true (0x4#4 ++ (x.extractLsb' 0 3) ++ (y.extractLsb' 0 3)) imm⟩
  | .andi _ x y imm => some ⟨1, (regxOf (x.extractLsb' 3 3) (y.extractLsb' 3 3) 0#3), .imm6 true (0x4#4 ++ (x.extractLsb' 0 3) ++ (y.extractLsb' 0 3)) imm⟩
  | .ori _ x y imm => some ⟨2, (regxOf (x.extractLsb' 3 3) (y.extractLsb' 3 3) 0#3), .imm6 false (0x4#4 ++ (x.extractLsb' 0 3) ++ (y.extractLsb' 0 3)) imm⟩
  | .xori _ x y imm => some ⟨3, (regxOf (x.extractLsb' 3 3) (y.extractLsb' 3 3) 0#3), .imm6 false (0x4#4 ++ (x.extractLsb' 0 3) ++ (y.extractLsb' 0 3)) imm⟩
  | .shli _ x y imm => some ⟨4, (regxOf (x.extractLsb' 3 3) (y.extractLsb' 3 3) 0#3), .imm6 false (0x4#4 ++ (x.extractLsb' 0 3) ++ (y.extractLsb' 0 3)) imm⟩
  | .shri _ x y imm => some ⟨5, (regxOf (x.extractLsb' 3 3) (y.extractLsb' 3 3) 0#3), .imm6 false (0x4#4 ++ (x.extractLsb' 0 3) ++ (y.extractLsb' 0 3)) imm⟩
  | .sari _ x y imm => some ⟨6, (regxOf (x.extractLsb' 3 3) (y.extractLsb' 3 3) 0#3), .imm6 false (0x4#4 ++ (x.extractLsb' 0 3) ++ (y.extractLsb' 0 3)) imm⟩
  | .li _ x imm => some ⟨0, (regxOf (x.extractLsb' 3 3) 0#3 0#3), .imm9 true (0x5#4 ++ (x.extractLsb' 0 3)) imm⟩
  | .lih _ x imm => some ⟨1, (regxOf (x.extractLsb' 3 3) 0#3 0#3), .imm9 false (0x5#4 ++ (x.extractLsb' 0 3)) imm⟩
  | .addpc _ x imm => some ⟨2, (regxOf (x.extractLsb' 3 3) 0#3 0#3), .imm9 true (0x5#4 ++ (x.extractLsb' 0 3)) imm⟩
  | .ldb _ x y off => some ⟨0, (regxOf (x.extractLsb' 3 3) (y.extractLsb' 3 3) 0#3), .imm4 (0x6#4 ++ (x.extractLsb' 0 3) ++ (y.extractLsb' 0 3) ++ 0#2) off⟩
  | .ldh _ x y off => some ⟨0, (regxOf (x.extractLsb' 3 3) (y.extractLsb' 3 3) 0#3), .imm4 (0x6#4 ++ (x.extractLsb' 0 3) ++ (y.extractLsb' 0 3) ++ 1#2) off⟩
  | .ldw _ x y off => some ⟨0, (regxOf (x.extractLsb' 3 3) (y.extractLsb' 3 3) 0#3), .imm4 (0x6#4 ++ (x.extractLsb' 0 3) ++ (y.extractLsb' 0 3) ++ 2#2) off⟩
  | .ldd _ x y off => some ⟨0, (regxOf (x.extractLsb' 3 3) (y.extractLsb' 3 3) 0#3), .imm4 (0x6#4 ++ (x.extractLsb' 0 3) ++ (y.extractLsb' 0 3) ++ 3#2) off⟩
  | .ldbs _ x y off => some ⟨1, (regxOf (x.extractLsb' 3 3) (y.extractLsb' 3 3) 0#3), .imm4 (0x6#4 ++ (x.extractLsb' 0 3) ++ (y.extractLsb' 0 3) ++ 0#2) off⟩
  | .ldhs _ x y off => some ⟨1, (regxOf (x.extractLsb' 3 3) (y.extractLsb' 3 3) 0#3), .imm4 (0x6#4 ++ (x.extractLsb' 0 3) ++ (y.extractLsb' 0 3) ++ 1#2) off⟩
  | .ldws _ x y off => some ⟨1, (regxOf (x.extractLsb' 3 3) (y.extractLsb' 3 3) 0#3), .imm4 (0x6#4 ++ (x.extractLsb' 0 3) ++ (y.extractLsb' 0 3) ++ 2#2) off⟩
  | .ldf _ x y off => some ⟨2, (regxOf (x.extractLsb' 3 3) (y.extractLsb' 3 3) 0#3), .imm4 (0x6#4 ++ (x.extractLsb' 0 3) ++ (y.extractLsb' 0 3) ++ 0#2) off⟩
  | .ldfd _ x y off => some ⟨2, (regxOf (x.extractLsb' 3 3) (y.extractLsb' 3 3) 0#3), .imm4 (0x6#4 ++ (x.extractLsb' 0 3) ++ (y.extractLsb' 0 3) ++ 1#2) off⟩
  | .ldfe _ x y off => some ⟨2, (regxOf (x.extractLsb' 3 3) (y.extractLsb' 3 3) 0#3), .imm4 (0x6#4 ++ (x.extractLsb' 0 3) ++ (y.extractLsb' 0 3) ++ 2#2) off⟩
  | .ldfed _ x y off => some ⟨2, (regxOf (x.extractLsb' 3 3) (y.extractLsb' 3 3) 0#3), .imm4 (0x6#4 ++ (x.extractLsb' 0 3) ++ (y.extractLsb' 0 3) ++ 3#2) off⟩
  | .vld _ x y off => some ⟨3, (regxOf (x.extractLsb' 3 3) (y.extractLsb' 3 3) 0#3), .imm4 (0x6#4 ++ (x.extractLsb' 0 3) ++ (y.extractLsb' 0 3) ++ 0#2) off⟩
  | .stb _ x y off => some ⟨0, (regxOf (x.extractLsb' 3 3) (y.extractLsb' 3 3) 0#3), .imm4 (0x7#4 ++ (x.extractLsb' 0 3) ++ (y.extractLsb' 0 3) ++ 0#2) off⟩
  | .sth _ x y off => some ⟨0, (regxOf (x.extractLsb' 3 3) (y.extractLsb' 3 3) 0#3), .imm4 (0x7#4 ++ (x.extractLsb' 0 3) ++ (y.extractLsb' 0 3) ++ 1#2) off⟩
  | .stw _ x y off => some ⟨0, (regxOf (x.extractLsb' 3 3) (y.extractLsb' 3 3) 0#3), .imm4 (0x7#4 ++ (x.extractLsb' 0 3) ++ (y.extractLsb' 0 3) ++ 2#2) off⟩
  | .std _ x y off => some ⟨0, (regxOf (x.extractLsb' 3 3) (y.extractLsb' 3 3) 0#3), .imm4 (0x7#4 ++ (x.extractLsb' 0 3) ++ (y.extractLsb' 0 3) ++ 3#2) off⟩
  | .ste _ x y off => some ⟨1, (regxOf (x.extractLsb' 3 3) (y.extractLsb' 3 3) 0#3), .imm4 (0x7#4 ++ (x.extractLsb' 0 3) ++ (y.extractLsb' 0 3) ++ 0#2) off⟩
  | .sted _ x y off => some ⟨1, (regxOf (x.extractLsb' 3 3) (y.extractLsb' 3 3) 0#3), .imm4 (0x7#4 ++ (x.extractLsb' 0 3) ++ (y.extractLsb' 0 3) ++ 1#2) off⟩
  | .stf _ x y off => some ⟨2, (regxOf (x.extractLsb' 3 3) (y.extractLsb' 3 3) 0#3), .imm4 (0x7#4 ++ (x.extractLsb' 0 3) ++ (y.extractLsb' 0 3) ++ 0#2) off⟩
  | .stfd _ x y off => some ⟨2, (regxOf (x.extractLsb' 3 3) (y.extractLsb' 3 3) 0#3), .imm4 (0x7#4 ++ (x.extractLsb' 0 3) ++ (y.extractLsb' 0 3) ++ 1#2) off⟩
  | .vst _ x y off => some ⟨3, (regxOf (x.extractLsb' 3 3) (y.extractLsb' 3 3) 0#3), .imm4 (0x7#4 ++ (x.extractLsb' 0 3) ++ (y.extractLsb' 0 3) ++ 0#2) off⟩
  | .bz _ x imm => some ⟨0, (regxOf (x.extractLsb' 3 3) 0#3 0#3), .imm6 true (0x8#4 ++ (x.extractLsb' 0 3) ++ 0#3) imm⟩
  | .bnz _ x imm => some ⟨0, (regxOf (x.extractLsb' 3 3) 0#3 0#3), .imm6 true (0x8#4 ++ (x.extractLsb' 0 3) ++ 1#3) imm⟩
  | .bltz _ x imm => some ⟨0, (regxOf (x.extractLsb' 3 3) 0#3 0#3), .imm6 true (0x8#4 ++ (x.extractLsb' 0 3) ++ 2#3) imm⟩
  | .bgez _ x imm => some ⟨0, (regxOf (x.extractLsb' 3 3) 0#3 0#3), .imm6 true (0x8#4 ++ (x.extractLsb' 0 3) ++ 3#3) imm⟩
  | .bq _ q imm => some ⟨0, 0, .imm6 true (0x8#4 ++ q ++ 4#3) imm⟩
  | .bnq _ q imm => some ⟨0, 0, .imm6 true (0x8#4 ++ q ++ 5#3) imm⟩
  | .loop _ x imm => some ⟨0, (regxOf (x.extractLsb' 3 3) 0#3 0#3), .imm6 true (0x8#4 ++ (x.extractLsb' 0 3) ++ 6#3) imm⟩
  | .beq _ x y imm => some ⟨0, (regxOf (x.extractLsb' 3 3) (y.extractLsb' 3 3) 0#3), .imm6 true (0x9#4 ++ (x.extractLsb' 0 3) ++ (y.extractLsb' 0 3)) imm⟩
  | .bne _ x y imm => some ⟨1, (regxOf (x.extractLsb' 3 3) (y.extractLsb' 3 3) 0#3), .imm6 true (0x9#4 ++ (x.extractLsb' 0 3) ++ (y.extractLsb' 0 3)) imm⟩
  | .blt _ x y imm => some ⟨2, (regxOf (x.extractLsb' 3 3) (y.extractLsb' 3 3) 0#3), .imm6 true (0x9#4 ++ (x.extractLsb' 0 3) ++ (y.extractLsb' 0 3)) imm⟩
  | .bge _ x y imm => some ⟨3, (regxOf (x.extractLsb' 3 3) (y.extractLsb' 3 3) 0#3), .imm6 true (0x9#4 ++ (x.extractLsb' 0 3) ++ (y.extractLsb' 0 3)) imm⟩
  | .bltu _ x y imm => some ⟨4, (regxOf (x.extractLsb' 3 3) (y.extractLsb' 3 3) 0#3), .imm6 true (0x9#4 ++ (x.extractLsb' 0 3) ++ (y.extractLsb' 0 3)) imm⟩
  | .bgeu _ x y imm => some ⟨5, (regxOf (x.extractLsb' 3 3) (y.extractLsb' 3 3) 0#3), .imm6 true (0x9#4 ++ (x.extractLsb' 0 3) ++ (y.extractLsb' 0 3)) imm⟩
  | .lrw _ x y => some ⟨0, (regxOf (x.extractLsb' 3 3) (y.extractLsb' 3 3) 0#3), .word (rrf 0xA (x.extractLsb' 0 3) (y.extractLsb' 0 3) 0x0)⟩
  | .sch _ x y => some ⟨0, (regxOf (x.extractLsb' 3 3) (y.extractLsb' 3 3) 0#3), .word (rrf 0xA (x.extractLsb' 0 3) (y.extractLsb' 0 3) 0x1)⟩
  | .lro _ x y => some ⟨0, (regxOf (x.extractLsb' 3 3) (y.extractLsb' 3 3) 0#3), .word (rrf 0xA (x.extractLsb' 0 3) (y.extractLsb' 0 3) 0x2)⟩
  | .sco _ x y => some ⟨0, (regxOf (x.extractLsb' 3 3) (y.extractLsb' 3 3) 0#3), .word (rrf 0xA (x.extractLsb' 0 3) (y.extractLsb' 0 3) 0x3)⟩
  | .oinit _ x y => some ⟨0, (regxOf (x.extractLsb' 3 3) (y.extractLsb' 3 3) 0#3), .word (rrf 0xA (x.extractLsb' 0 3) (y.extractLsb' 0 3) 0x4)⟩
  | .aadd _ x y => some ⟨0, (regxOf (x.extractLsb' 3 3) (y.extractLsb' 3 3) 0#3), .word (rrf 0xA (x.extractLsb' 0 3) (y.extractLsb' 0 3) 0x8)⟩
  | .aand _ x y => some ⟨0, (regxOf (x.extractLsb' 3 3) (y.extractLsb' 3 3) 0#3), .word (rrf 0xA (x.extractLsb' 0 3) (y.extractLsb' 0 3) 0x9)⟩
  | .aor _ x y => some ⟨0, (regxOf (x.extractLsb' 3 3) (y.extractLsb' 3 3) 0#3), .word (rrf 0xA (x.extractLsb' 0 3) (y.extractLsb' 0 3) 0xa)⟩
  | .axor _ x y => some ⟨0, (regxOf (x.extractLsb' 3 3) (y.extractLsb' 3 3) 0#3), .word (rrf 0xA (x.extractLsb' 0 3) (y.extractLsb' 0 3) 0xb)⟩
  | .amin _ x y => some ⟨0, (regxOf (x.extractLsb' 3 3) (y.extractLsb' 3 3) 0#3), .word (rrf 0xA (x.extractLsb' 0 3) (y.extractLsb' 0 3) 0xc)⟩
  | .amax _ x y => some ⟨0, (regxOf (x.extractLsb' 3 3) (y.extractLsb' 3 3) 0#3), .word (rrf 0xA (x.extractLsb' 0 3) (y.extractLsb' 0 3) 0xd)⟩
  | .aminu _ x y => some ⟨0, (regxOf (x.extractLsb' 3 3) (y.extractLsb' 3 3) 0#3), .word (rrf 0xA (x.extractLsb' 0 3) (y.extractLsb' 0 3) 0xe)⟩
  | .amaxu _ x y => some ⟨0, (regxOf (x.extractLsb' 3 3) (y.extractLsb' 3 3) 0#3), .word (rrf 0xA (x.extractLsb' 0 3) (y.extractLsb' 0 3) 0xf)⟩
  | .aswap _ x y => some ⟨0, (regxOf (x.extractLsb' 3 3) (y.extractLsb' 3 3) 0#3), .word (rrf 0xA (x.extractLsb' 0 3) (y.extractLsb' 0 3) 0x10)⟩
  | .acas _ x y => some ⟨0, (regxOf (x.extractLsb' 3 3) (y.extractLsb' 3 3) 0#3), .word (rrf 0xA (x.extractLsb' 0 3) (y.extractLsb' 0 3) 0x11)⟩
  | .afadd _ x y => some ⟨0, (regxOf (x.extractLsb' 3 3) (y.extractLsb' 3 3) 0#3), .word (rrf 0xA (x.extractLsb' 0 3) (y.extractLsb' 0 3) 0x12)⟩
  | .afaddo _ x y => some ⟨0, (regxOf (x.extractLsb' 3 3) (y.extractLsb' 3 3) 0#3), .word (rrf 0xA (x.extractLsb' 0 3) (y.extractLsb' 0 3) 0x13)⟩
  | .aaddw _ x y => some ⟨0, (regxOf (x.extractLsb' 3 3) (y.extractLsb' 3 3) 0#3), .word (rrf 0xA (x.extractLsb' 0 3) (y.extractLsb' 0 3) 0x28)⟩
  | .aandw _ x y => some ⟨0, (regxOf (x.extractLsb' 3 3) (y.extractLsb' 3 3) 0#3), .word (rrf 0xA (x.extractLsb' 0 3) (y.extractLsb' 0 3) 0x29)⟩
  | .aorw _ x y => some ⟨0, (regxOf (x.extractLsb' 3 3) (y.extractLsb' 3 3) 0#3), .word (rrf 0xA (x.extractLsb' 0 3) (y.extractLsb' 0 3) 0x2a)⟩
  | .axorw _ x y => some ⟨0, (regxOf (x.extractLsb' 3 3) (y.extractLsb' 3 3) 0#3), .word (rrf 0xA (x.extractLsb' 0 3) (y.extractLsb' 0 3) 0x2b)⟩
  | .aminw _ x y => some ⟨0, (regxOf (x.extractLsb' 3 3) (y.extractLsb' 3 3) 0#3), .word (rrf 0xA (x.extractLsb' 0 3) (y.extractLsb' 0 3) 0x2c)⟩
  | .amaxw _ x y => some ⟨0, (regxOf (x.extractLsb' 3 3) (y.extractLsb' 3 3) 0#3), .word (rrf 0xA (x.extractLsb' 0 3) (y.extractLsb' 0 3) 0x2d)⟩
  | .aminuw _ x y => some ⟨0, (regxOf (x.extractLsb' 3 3) (y.extractLsb' 3 3) 0#3), .word (rrf 0xA (x.extractLsb' 0 3) (y.extractLsb' 0 3) 0x2e)⟩
  | .amaxuw _ x y => some ⟨0, (regxOf (x.extractLsb' 3 3) (y.extractLsb' 3 3) 0#3), .word (rrf 0xA (x.extractLsb' 0 3) (y.extractLsb' 0 3) 0x2f)⟩
  | .aswapw _ x y => some ⟨0, (regxOf (x.extractLsb' 3 3) (y.extractLsb' 3 3) 0#3), .word (rrf 0xA (x.extractLsb' 0 3) (y.extractLsb' 0 3) 0x30)⟩
  | .acasw _ x y => some ⟨0, (regxOf (x.extractLsb' 3 3) (y.extractLsb' 3 3) 0#3), .word (rrf 0xA (x.extractLsb' 0 3) (y.extractLsb' 0 3) 0x31)⟩
  | .afaddw _ x y => some ⟨0, (regxOf (x.extractLsb' 3 3) (y.extractLsb' 3 3) 0#3), .word (rrf 0xA (x.extractLsb' 0 3) (y.extractLsb' 0 3) 0x32)⟩
  | .afaddow _ x y => some ⟨0, (regxOf (x.extractLsb' 3 3) (y.extractLsb' 3 3) 0#3), .word (rrf 0xA (x.extractLsb' 0 3) (y.extractLsb' 0 3) 0x33)⟩
  | .fence _ => some ⟨0, 0, .word (rrf 0xA 0#3 0#3 0x14)⟩
  | .fenceG _ => some ⟨0, 0, .word (rrf 0xA 0#3 0#3 0x14)⟩
  | .fenceM _ => some ⟨0, 0, .word (rrf 0xA 0#3 0#3 0x14)⟩
  | .fenceP _ => some ⟨0, 0, .word (rrf 0xA 0#3 0#3 0x14)⟩
  | .waitc _ k y => some ⟨0, (regxOf ((k.setWidth 6).extractLsb' 3 3) (y.extractLsb' 3 3) 0#3), .word (rrf 0xA ((k.setWidth 6).extractLsb' 0 3) (y.extractLsb' 0 3) 0x15)⟩
  | .waitf _ y => some ⟨0, (regxOf 0#3 (y.extractLsb' 3 3) 0#3), .word (rrf 0xA 0#3 (y.extractLsb' 0 3) 0x16)⟩
  | .clrf _ y => some ⟨0, (regxOf 0#3 (y.extractLsb' 3 3) 0#3), .word (rrf 0xA 0#3 (y.extractLsb' 0 3) 0x17)⟩
  | .take _ x y => some ⟨0, (regxOf (x.extractLsb' 3 3) (y.extractLsb' 3 3) 0#3), .word (rrf 0xA (x.extractLsb' 0 3) (y.extractLsb' 0 3) 0x18)⟩
  | .bar _ b => some ⟨1, 0, .word (rrf 0xA 0#3 (b.setWidth 3) 0x0)⟩
  | .bars _ b => some ⟨1, 0, .word (rrf 0xA 0#3 (b.setWidth 3) 0x1)⟩
  | .barcfg _ b x => some ⟨1, (regxOf (x.extractLsb' 3 3) 0#3 0#3), .word (rrf 0xA (x.extractLsb' 0 3) (b.setWidth 3) 0x2)⟩
  | .barq _ x b => some ⟨1, (regxOf (x.extractLsb' 3 3) 0#3 0#3), .word (rrf 0xA (x.extractLsb' 0 3) (b.setWidth 3) 0x3)⟩
  | .barr _ x b op => some ⟨1, (regxOf (x.extractLsb' 3 3) 0#3 0#3), .word (rrf 0xA (x.extractLsb' 0 3) (b.setWidth 3) op.code)⟩
  | .put _ x y k => some ⟨0, (regxOf (x.extractLsb' 3 3) (y.extractLsb' 3 3) ((k.setWidth 6).extractLsb' 3 3)), .word (rrr 0xB (x.extractLsb' 0 3) (y.extractLsb' 0 3) ((k.setWidth 6).extractLsb' 0 3) 0)⟩
  | .putv _ x y k => some ⟨0, (regxOf (x.extractLsb' 3 3) (y.extractLsb' 3 3) ((k.setWidth 6).extractLsb' 3 3)), .word (rrr 0xB (x.extractLsb' 0 3) (y.extractLsb' 0 3) ((k.setWidth 6).extractLsb' 0 3) 1)⟩
  | .get _ x y k => some ⟨0, (regxOf (x.extractLsb' 3 3) (y.extractLsb' 3 3) ((k.setWidth 6).extractLsb' 3 3)), .word (rrr 0xB (x.extractLsb' 0 3) (y.extractLsb' 0 3) ((k.setWidth 6).extractLsb' 0 3) 2)⟩
  | .send _ x y => some ⟨0, (regxOf (x.extractLsb' 3 3) (y.extractLsb' 3 3) 0#3), .word (rrr 0xB (x.extractLsb' 0 3) (y.extractLsb' 0 3) 0#3 3)⟩
  | .cset _ k x => some ⟨0, (regxOf (x.extractLsb' 3 3) 0#3 ((k.setWidth 6).extractLsb' 3 3)), .word (rrr 0xB (x.extractLsb' 0 3) 0#3 ((k.setWidth 6).extractLsb' 0 3) 4)⟩
  | .cinc _ k x y => some ⟨0, (regxOf (x.extractLsb' 3 3) (y.extractLsb' 3 3) ((k.setWidth 6).extractLsb' 3 3)), .word (rrr 0xB (x.extractLsb' 0 3) (y.extractLsb' 0 3) ((k.setWidth 6).extractLsb' 0 3) 5)⟩
  | .crd _ x k => some ⟨0, (regxOf (x.extractLsb' 3 3) 0#3 ((k.setWidth 6).extractLsb' 3 3)), .word (rrr 0xB (x.extractLsb' 0 3) 0#3 ((k.setWidth 6).extractLsb' 0 3) 6)⟩
  | .post _ x y => some ⟨0, (regxOf (x.extractLsb' 3 3) (y.extractLsb' 3 3) 0#3), .word (rrr 0xB (x.extractLsb' 0 3) (y.extractLsb' 0 3) 0#3 7)⟩
  | .arm _ slot x y => some ⟨1, (regxOf (x.extractLsb' 3 3) (y.extractLsb' 3 3) 0#3), .word (rrr 0xB (x.extractLsb' 0 3) (y.extractLsb' 0 3) slot 0)⟩
  | .disarm _ slot => some ⟨1, 0, .word (rrr 0xB 0#3 0#3 slot 1)⟩
  | .vadd _ t x y z => some ⟨0, (regxOf (x.extractLsb' 3 3) (y.extractLsb' 3 3) (z.extractLsb' 3 3)), .word (rrr 0xC (x.extractLsb' 0 3) (y.extractLsb' 0 3) (z.extractLsb' 0 3) t.code)⟩
  | .vsub _ t x y z => some ⟨1, (regxOf (x.extractLsb' 3 3) (y.extractLsb' 3 3) (z.extractLsb' 3 3)), .word (rrr 0xC (x.extractLsb' 0 3) (y.extractLsb' 0 3) (z.extractLsb' 0 3) t.code)⟩
  | .vmul _ t x y z => some ⟨2, (regxOf (x.extractLsb' 3 3) (y.extractLsb' 3 3) (z.extractLsb' 3 3)), .word (rrr 0xC (x.extractLsb' 0 3) (y.extractLsb' 0 3) (z.extractLsb' 0 3) t.code)⟩
  | .vfma _ t x y z => some ⟨3, (regxOf (x.extractLsb' 3 3) (y.extractLsb' 3 3) (z.extractLsb' 3 3)), .word (rrr 0xC (x.extractLsb' 0 3) (y.extractLsb' 0 3) (z.extractLsb' 0 3) t.code)⟩
  | .vmin _ t x y z => some ⟨4, (regxOf (x.extractLsb' 3 3) (y.extractLsb' 3 3) (z.extractLsb' 3 3)), .word (rrr 0xC (x.extractLsb' 0 3) (y.extractLsb' 0 3) (z.extractLsb' 0 3) t.code)⟩
  | .vmax _ t x y z => some ⟨5, (regxOf (x.extractLsb' 3 3) (y.extractLsb' 3 3) (z.extractLsb' 3 3)), .word (rrr 0xC (x.extractLsb' 0 3) (y.extractLsb' 0 3) (z.extractLsb' 0 3) t.code)⟩
  | .vaddmin _ t x y z => some ⟨6, (regxOf (x.extractLsb' 3 3) (y.extractLsb' 3 3) (z.extractLsb' 3 3)), .word (rrr 0xC (x.extractLsb' 0 3) (y.extractLsb' 0 3) (z.extractLsb' 0 3) t.code)⟩
  | .vdiv _ t x y z => some ⟨7, (regxOf (x.extractLsb' 3 3) (y.extractLsb' 3 3) (z.extractLsb' 3 3)), .word (rrr 0xC (x.extractLsb' 0 3) (y.extractLsb' 0 3) (z.extractLsb' 0 3) t.code)⟩
  | .vsqrt _ t x y => some ⟨8, (regxOf (x.extractLsb' 3 3) (y.extractLsb' 3 3) 0#3), .word (rrr 0xC (x.extractLsb' 0 3) (y.extractLsb' 0 3) 0#3 t.code)⟩
  | .vand _ t x y z => some ⟨9, (regxOf (x.extractLsb' 3 3) (y.extractLsb' 3 3) (z.extractLsb' 3 3)), .word (rrr 0xC (x.extractLsb' 0 3) (y.extractLsb' 0 3) (z.extractLsb' 0 3) t.code)⟩
  | .vor _ t x y z => some ⟨10, (regxOf (x.extractLsb' 3 3) (y.extractLsb' 3 3) (z.extractLsb' 3 3)), .word (rrr 0xC (x.extractLsb' 0 3) (y.extractLsb' 0 3) (z.extractLsb' 0 3) t.code)⟩
  | .vxor _ t x y z => some ⟨11, (regxOf (x.extractLsb' 3 3) (y.extractLsb' 3 3) (z.extractLsb' 3 3)), .word (rrr 0xC (x.extractLsb' 0 3) (y.extractLsb' 0 3) (z.extractLsb' 0 3) t.code)⟩
  | .vshl _ t x y z => some ⟨12, (regxOf (x.extractLsb' 3 3) (y.extractLsb' 3 3) (z.extractLsb' 3 3)), .word (rrr 0xC (x.extractLsb' 0 3) (y.extractLsb' 0 3) (z.extractLsb' 0 3) t.code)⟩
  | .vshr _ t x y z => some ⟨13, (regxOf (x.extractLsb' 3 3) (y.extractLsb' 3 3) (z.extractLsb' 3 3)), .word (rrr 0xC (x.extractLsb' 0 3) (y.extractLsb' 0 3) (z.extractLsb' 0 3) t.code)⟩
  | .vsar _ t x y z => some ⟨14, (regxOf (x.extractLsb' 3 3) (y.extractLsb' 3 3) (z.extractLsb' 3 3)), .word (rrr 0xC (x.extractLsb' 0 3) (y.extractLsb' 0 3) (z.extractLsb' 0 3) t.code)⟩
  | .vceq _ t q y z => some ⟨15, (regxOf 0#3 (y.extractLsb' 3 3) (z.extractLsb' 3 3)), .word (rrr 0xC q (y.extractLsb' 0 3) (z.extractLsb' 0 3) t.code)⟩
  | .vclt _ t q y z => some ⟨16, (regxOf 0#3 (y.extractLsb' 3 3) (z.extractLsb' 3 3)), .word (rrr 0xC q (y.extractLsb' 0 3) (z.extractLsb' 0 3) t.code)⟩
  | .vcle _ t q y z => some ⟨17, (regxOf 0#3 (y.extractLsb' 3 3) (z.extractLsb' 3 3)), .word (rrr 0xC q (y.extractLsb' 0 3) (z.extractLsb' 0 3) t.code)⟩
  | .vsel _ t x y z => some ⟨18, (regxOf (x.extractLsb' 3 3) (y.extractLsb' 3 3) (z.extractLsb' 3 3)), .word (rrr 0xC (x.extractLsb' 0 3) (y.extractLsb' 0 3) (z.extractLsb' 0 3) t.code)⟩
  | .vslu _ t x y z => some ⟨19, (regxOf (x.extractLsb' 3 3) (y.extractLsb' 3 3) (z.extractLsb' 3 3)), .word (rrr 0xC (x.extractLsb' 0 3) (y.extractLsb' 0 3) (z.extractLsb' 0 3) t.code)⟩
  | .vsld _ t x y z => some ⟨20, (regxOf (x.extractLsb' 3 3) (y.extractLsb' 3 3) (z.extractLsb' 3 3)), .word (rrr 0xC (x.extractLsb' 0 3) (y.extractLsb' 0 3) (z.extractLsb' 0 3) t.code)⟩
  | .vperm _ t x y z => some ⟨21, (regxOf (x.extractLsb' 3 3) (y.extractLsb' 3 3) (z.extractLsb' 3 3)), .word (rrr 0xC (x.extractLsb' 0 3) (y.extractLsb' 0 3) (z.extractLsb' 0 3) t.code)⟩
  | .vbcst _ t x y => some ⟨22, (regxOf (x.extractLsb' 3 3) (y.extractLsb' 3 3) 0#3), .word (rrr 0xC (x.extractLsb' 0 3) (y.extractLsb' 0 3) 0#3 t.code)⟩
  | .vext _ t x y lane => some ⟨23, (regxOf (x.extractLsb' 3 3) (y.extractLsb' 3 3) (lane.extractLsb' 3 3)), .word (rrr 0xC (x.extractLsb' 0 3) (y.extractLsb' 0 3) (lane.extractLsb' 0 3) t.code)⟩
  | .vins _ t x y lane => some ⟨24, (regxOf (x.extractLsb' 3 3) (y.extractLsb' 3 3) (lane.extractLsb' 3 3)), .word (rrr 0xC (x.extractLsb' 0 3) (y.extractLsb' 0 3) (lane.extractLsb' 0 3) t.code)⟩
  | .vredadd _ t x y => some ⟨25, (regxOf (x.extractLsb' 3 3) (y.extractLsb' 3 3) 0#3), .word (rrr 0xC (x.extractLsb' 0 3) (y.extractLsb' 0 3) 0#3 t.code)⟩
  | .vcvt _ t x y src => some ⟨26, (regxOf (x.extractLsb' 3 3) (y.extractLsb' 3 3) 0#3), .word (rrr 0xC (x.extractLsb' 0 3) (y.extractLsb' 0 3) (src.code) t.code)⟩
  | .vcvtq _ t x y f => some ⟨27, (regxOf (x.extractLsb' 3 3) (y.extractLsb' 3 3) 0#3), .word (rrr 0xC (x.extractLsb' 0 3) (y.extractLsb' 0 3) (f.code) t.code)⟩
  | .vsfu _ t x y fn => some ⟨28, (regxOf (x.extractLsb' 3 3) (y.extractLsb' 3 3) 0#3), .word (rrr 0xC (x.extractLsb' 0 3) (y.extractLsb' 0 3) (fn.code) t.code)⟩
  | .vpeg _ x y z => some ⟨29, (regxOf (x.extractLsb' 3 3) (y.extractLsb' 3 3) (z.extractLsb' 3 3)), .word (rrr 0xC (x.extractLsb' 0 3) (y.extractLsb' 0 3) (z.extractLsb' 0 3) 2)⟩
  | .mtcfg _ m y => some ⟨0, (regxOf 0#3 (y.extractLsb' 3 3) 0#3), .word (rrf 0xD (m.setWidth 3) (y.extractLsb' 0 3) 0x0)⟩
  | .mfcfg _ x m => some ⟨0, (regxOf (x.extractLsb' 3 3) 0#3 0#3), .word (rrf 0xD (x.extractLsb' 0 3) (m.setWidth 3) 0x1)⟩
  | .mld _ m y => some ⟨0, (regxOf 0#3 (y.extractLsb' 3 3) 0#3), .word (rrf 0xD (m.setWidth 3) (y.extractLsb' 0 3) 0x2)⟩
  | .mldl _ m link => some ⟨0, (regxOf 0#3 (link.number.extractLsb' 3 3) 0#3), .word (rrf 0xD (m.setWidth 3) (link.number.extractLsb' 0 3) 0x3)⟩
  | .mst _ m y => some ⟨0, (regxOf 0#3 (y.extractLsb' 3 3) 0#3), .word (rrf 0xD (m.setWidth 3) (y.extractLsb' 0 3) 0x4)⟩
  | .mpass _ m dir => some ⟨0, (regxOf 0#3 (dir.number.extractLsb' 3 3) 0#3), .word (rrf 0xD (m.setWidth 3) (dir.number.extractLsb' 0 3) 0x5)⟩
  | .mzero _ acc => some ⟨0, 0, .word (rrf 0xD (acc.setWidth 3) 0#3 0x6)⟩
  | .mrda _ acc y => some ⟨0, (regxOf 0#3 (y.extractLsb' 3 3) 0#3), .word (rrf 0xD (acc.setWidth 3) (y.extractLsb' 0 3) 0x7)⟩
  | .mwra _ acc y => some ⟨0, (regxOf 0#3 (y.extractLsb' 3 3) 0#3), .word (rrf 0xD (acc.setWidth 3) (y.extractLsb' 0 3) 0x8)⟩
  | .mscl _ m y => some ⟨0, (regxOf 0#3 (y.extractLsb' 3 3) 0#3), .word (rrf 0xD (m.setWidth 3) (y.extractLsb' 0 3) 0x9)⟩
  | .mma _ acc m n => some ⟨0, 0, .word (rrf 0xD (acc.setWidth 3) (m.setWidth 3) (0x10#6 ||| n.setWidth 6))⟩
  | .scfg _ h y => some ⟨0, (regxOf 0#3 (y.extractLsb' 3 3) 0#3), .word (rrf 0xE h (y.extractLsb' 0 3) 0x0)⟩
  | .sadv _ h y => some ⟨0, (regxOf 0#3 (y.extractLsb' 3 3) 0#3), .word (rrf 0xE h (y.extractLsb' 0 3) 0x1)⟩
  | .sqry _ x h => some ⟨0, (regxOf (x.extractLsb' 3 3) 0#3 0#3), .word (rrf 0xE (x.extractLsb' 0 3) h 0x2)⟩
  | .sclr _ h => some ⟨0, 0, .word (rrf 0xE h 0#3 0x3)⟩
  | .cpy _ x y => some ⟨0, (regxOf (x.extractLsb' 3 3) (y.extractLsb' 3 3) 0#3), .word (rrf 0xE (x.extractLsb' 0 3) (y.extractLsb' 0 3) 0x4)⟩
  | .cpyg _ x y => some ⟨0, (regxOf (x.extractLsb' 3 3) (y.extractLsb' 3 3) 0#3), .word (rrf 0xE (x.extractLsb' 0 3) (y.extractLsb' 0 3) 0x5)⟩
  | .cpys _ x y => some ⟨0, (regxOf (x.extractLsb' 3 3) (y.extractLsb' 3 3) 0#3), .word (rrf 0xE (x.extractLsb' 0 3) (y.extractLsb' 0 3) 0x6)⟩
  | .cpyz _ x y => some ⟨0, (regxOf (x.extractLsb' 3 3) (y.extractLsb' 3 3) 0#3), .word (rrf 0xE (x.extractLsb' 0 3) (y.extractLsb' 0 3) 0x7)⟩
  | .cjoin _ x => some ⟨0, (regxOf (x.extractLsb' 3 3) 0#3 0#3), .word (rrf 0xE (x.extractLsb' 0 3) 0#3 0x8)⟩
  | .evpop _ x => some ⟨0, (regxOf (x.extractLsb' 3 3) 0#3 0#3), .word (rrf 0xE (x.extractLsb' 0 3) 0#3 0x9)⟩
  | .evwait _ x => some ⟨0, (regxOf (x.extractLsb' 3 3) 0#3 0#3), .word (rrf 0xE (x.extractLsb' 0 3) 0#3 0xa)⟩
  | .launch _ x => some ⟨1, (regxOf (x.extractLsb' 3 3) 0#3 0#3), .word (rrf 0xE (x.extractLsb' 0 3) 0#3 0x0)⟩
  | .cancel _ x => some ⟨1, (regxOf (x.extractLsb' 3 3) 0#3 0#3), .word (rrf 0xE (x.extractLsb' 0 3) 0#3 0x1)⟩
  | .gwait _ x => some ⟨1, (regxOf (x.extractLsb' 3 3) 0#3 0#3), .word (rrf 0xE (x.extractLsb' 0 3) 0#3 0x2)⟩
  | .gqry _ x y => some ⟨1, (regxOf (x.extractLsb' 3 3) (y.extractLsb' 3 3) 0#3), .word (rrf 0xE (x.extractLsb' 0 3) (y.extractLsb' 0 3) 0x3)⟩
  | .spawn _ x y => some ⟨1, (regxOf (x.extractLsb' 3 3) (y.extractLsb' 3 3) 0#3), .word (rrf 0xE (x.extractLsb' 0 3) (y.extractLsb' 0 3) 0x4)⟩
  | .seed _ x => some ⟨1, (regxOf (x.extractLsb' 3 3) 0#3 0#3), .word (rrf 0xE (x.extractLsb' 0 3) 0#3 0x5)⟩
  | .crdig _ x i => some ⟨1, (regxOf (x.extractLsb' 3 3) 0#3 0#3), .word (rrf 0xE (x.extractLsb' 0 3) (i.setWidth 3) 0x6)⟩
  | .cron _ => some ⟨1, 0, .word (rrf 0xE 0#3 0#3 0x7)⟩
  | .croff _ => some ⟨1, 0, .word (rrf 0xE 0#3 0#3 0x8)⟩
  | .crstat _ x y => some ⟨1, (regxOf (x.extractLsb' 3 3) (y.extractLsb' 3 3) 0#3), .word (rrf 0xE (x.extractLsb' 0 3) (y.extractLsb' 0 3) 0x9)⟩
  | .instructionFetchFill _ _ => none
  | .alignTimeout _ _ => none
  | .threadUnpark _ _ => none
  | .accessPerformed _ => none
  | .deferredFault _ _ => none
  | .translationWalkDone _ _ => none
  | .walkRetry _ => none
  | .stationReplayWrite _ _ => none
  | .reservationRevoke _ _ => none
  | .queueTableReadmit _ => none
  | .oinitRetry _ _ => none
  | .barrierComplete _ _ _ _ _ => none
  | .specRollback _ _ => none
  | .putLand _ => none
  | .getRequestServe _ => none
  | .getResponse _ => none
  | .sendLand _ => none
  | .cincLand _ => none
  | .inboxRefill _ => none
  | .postAppend _ => none
  | .messageRefused _ => none
  | .outboundAck _ _ => none
  | .tileFault _ _ => none
  | .triggerAction _ => none
  | .gangStallReport _ _ => none
  | .mmaComplete _ => none
  | .matrixTransferComplete _ => none
  | .copyStart _ _ => none
  | .copyComplete _ _ => none
  | .copyFault _ _ => none
  | .copyBudgetWindow => none
  | .launchAccept _ => none
  | .dealRound _ _ => none
  | .gangStart _ _ => none
  | .tileRetire _ => none
  | .gridComplete _ => none
  | .cancelAccept _ _ => none
  | .cancelReachYard _ _ => none
  | .moduleLeavePod _ => none
  | .yardWithhold _ => none
  | .yardRecover _ => none
  | .watchdogExpire _ _ => none
  | .quantumExpiry _ _ => none
  | .gangSwapOut _ _ => none
  | .tileStopDone _ => none
  | .gangSwapIn _ _ => none
  | .rerunSiteReclaim _ => none
  | .rerunVerdict _ _ => none
  | .cruiseHoldClear _ => none
  | .entropyTestFail _ => none
  | .entropyRecover => none
  | .seedLogHeadWrite _ => none
  | .replaySourceSizeWrite _ => none
  | .queueRecordAppend _ => none
  | .hostWrite _ _ _ _ => none
  | .hostRead _ _ _ => none
  | .hostLaunchDoorbell _ _ => none
  | .hostLaunchRecordRead _ => none
  | .hostRecordRetry _ => none
  | .hostQueueResume _ => none
  | .hostLinkDown _ => none
  | .featureRequestWrite _ => none
  | .attestationRequest => none
  | .vdEntryWrite _ _ _ => none
  | .vaultZeroDone _ => none
  | .sitePowerWrite _ _ => none
  | .mcrWrite _ _ => none
  | .podRequest _ _ _ _ _ _ _ => none
  | .podFlitReplay _ => none
  | .podLinkDown _ => none
  | .podPortsDownTimeout _ => none
  | .moduleBoot => none
  | .overcurrentTrip => none
  | .voltageWindow => none
  | .stackThermalChange _ _ => none
  | .linkWordArrive _ => none
  | .voltageRampDone _ => none

/-- The chain an instruction carries; the default for an event. -/
def Instr.chain : Instr → Chain
  | .nop c => c
  | .trap c _ => c
  | .eret c => c
  | .mfs c _ _ => c
  | .mts c _ _ => c
  | .brk c _ => c
  | .halt c => c
  | .sleep c => c
  | .align c _ => c
  | .pref c _ => c
  | .tstop c _ => c
  | .tsave c _ _ => c
  | .tload c _ _ => c
  | .tgo c _ => c
  | .tmap c _ _ => c
  | .tquar c _ => c
  | .zero c _ _ => c
  | .tlbinv c _ _ => c
  | .vote c _ => c
  | .add c _ _ _ => c
  | .sub c _ _ _ => c
  | .and c _ _ _ => c
  | .or c _ _ _ => c
  | .xor c _ _ _ => c
  | .shl c _ _ _ => c
  | .shr c _ _ _ => c
  | .sar c _ _ _ => c
  | .addw c _ _ _ => c
  | .subw c _ _ _ => c
  | .andn c _ _ _ => c
  | .orn c _ _ _ => c
  | .xnor c _ _ _ => c
  | .rol c _ _ _ => c
  | .ror c _ _ _ => c
  | .scadd c _ _ _ => c
  | .mul c _ _ _ => c
  | .mulh c _ _ _ => c
  | .mulhu c _ _ _ => c
  | .mulhsu c _ _ _ => c
  | .div c _ _ _ => c
  | .divu c _ _ _ => c
  | .rem c _ _ _ => c
  | .remu c _ _ _ => c
  | .slt c _ _ _ => c
  | .sltu c _ _ _ => c
  | .seq c _ _ _ => c
  | .sne c _ _ _ => c
  | .min c _ _ _ => c
  | .max c _ _ _ => c
  | .minu c _ _ _ => c
  | .maxu c _ _ _ => c
  | .clz c _ _ => c
  | .ctz c _ _ => c
  | .popc c _ _ => c
  | .brev c _ _ => c
  | .bswap c _ _ => c
  | .sexb c _ _ => c
  | .sexh c _ _ => c
  | .sexw c _ _ => c
  | .hxy c _ _ _ => c
  | .hidx c _ _ _ => c
  | .sel c _ _ _ => c
  | .j c _ => c
  | .call c _ => c
  | .jr c _ => c
  | .callr c _ => c
  | .ret c => c
  | .addi c _ _ _ => c
  | .andi c _ _ _ => c
  | .ori c _ _ _ => c
  | .xori c _ _ _ => c
  | .shli c _ _ _ => c
  | .shri c _ _ _ => c
  | .sari c _ _ _ => c
  | .li c _ _ => c
  | .lih c _ _ => c
  | .addpc c _ _ => c
  | .ldb c _ _ _ => c
  | .ldh c _ _ _ => c
  | .ldw c _ _ _ => c
  | .ldd c _ _ _ => c
  | .ldbs c _ _ _ => c
  | .ldhs c _ _ _ => c
  | .ldws c _ _ _ => c
  | .ldf c _ _ _ => c
  | .ldfd c _ _ _ => c
  | .ldfe c _ _ _ => c
  | .ldfed c _ _ _ => c
  | .vld c _ _ _ => c
  | .stb c _ _ _ => c
  | .sth c _ _ _ => c
  | .stw c _ _ _ => c
  | .std c _ _ _ => c
  | .ste c _ _ _ => c
  | .sted c _ _ _ => c
  | .stf c _ _ _ => c
  | .stfd c _ _ _ => c
  | .vst c _ _ _ => c
  | .bz c _ _ => c
  | .bnz c _ _ => c
  | .bltz c _ _ => c
  | .bgez c _ _ => c
  | .bq c _ _ => c
  | .bnq c _ _ => c
  | .loop c _ _ => c
  | .beq c _ _ _ => c
  | .bne c _ _ _ => c
  | .blt c _ _ _ => c
  | .bge c _ _ _ => c
  | .bltu c _ _ _ => c
  | .bgeu c _ _ _ => c
  | .lrw c _ _ => c
  | .sch c _ _ => c
  | .lro c _ _ => c
  | .sco c _ _ => c
  | .oinit c _ _ => c
  | .aadd c _ _ => c
  | .aand c _ _ => c
  | .aor c _ _ => c
  | .axor c _ _ => c
  | .amin c _ _ => c
  | .amax c _ _ => c
  | .aminu c _ _ => c
  | .amaxu c _ _ => c
  | .aswap c _ _ => c
  | .acas c _ _ => c
  | .afadd c _ _ => c
  | .afaddo c _ _ => c
  | .aaddw c _ _ => c
  | .aandw c _ _ => c
  | .aorw c _ _ => c
  | .axorw c _ _ => c
  | .aminw c _ _ => c
  | .amaxw c _ _ => c
  | .aminuw c _ _ => c
  | .amaxuw c _ _ => c
  | .aswapw c _ _ => c
  | .acasw c _ _ => c
  | .afaddw c _ _ => c
  | .afaddow c _ _ => c
  | .fence c => c
  | .fenceG c => c
  | .fenceM c => c
  | .fenceP c => c
  | .waitc c _ _ => c
  | .waitf c _ => c
  | .clrf c _ => c
  | .take c _ _ => c
  | .bar c _ => c
  | .bars c _ => c
  | .barcfg c _ _ => c
  | .barq c _ _ => c
  | .barr c _ _ _ => c
  | .put c _ _ _ => c
  | .putv c _ _ _ => c
  | .get c _ _ _ => c
  | .send c _ _ => c
  | .cset c _ _ => c
  | .cinc c _ _ _ => c
  | .crd c _ _ => c
  | .post c _ _ => c
  | .arm c _ _ _ => c
  | .disarm c _ => c
  | .vadd c _ _ _ _ => c
  | .vsub c _ _ _ _ => c
  | .vmul c _ _ _ _ => c
  | .vfma c _ _ _ _ => c
  | .vmin c _ _ _ _ => c
  | .vmax c _ _ _ _ => c
  | .vaddmin c _ _ _ _ => c
  | .vdiv c _ _ _ _ => c
  | .vsqrt c _ _ _ => c
  | .vand c _ _ _ _ => c
  | .vor c _ _ _ _ => c
  | .vxor c _ _ _ _ => c
  | .vshl c _ _ _ _ => c
  | .vshr c _ _ _ _ => c
  | .vsar c _ _ _ _ => c
  | .vceq c _ _ _ _ => c
  | .vclt c _ _ _ _ => c
  | .vcle c _ _ _ _ => c
  | .vsel c _ _ _ _ => c
  | .vslu c _ _ _ _ => c
  | .vsld c _ _ _ _ => c
  | .vperm c _ _ _ _ => c
  | .vbcst c _ _ _ => c
  | .vext c _ _ _ _ => c
  | .vins c _ _ _ _ => c
  | .vredadd c _ _ _ => c
  | .vcvt c _ _ _ _ => c
  | .vcvtq c _ _ _ _ => c
  | .vsfu c _ _ _ _ => c
  | .vpeg c _ _ _ => c
  | .mtcfg c _ _ => c
  | .mfcfg c _ _ => c
  | .mld c _ _ => c
  | .mldl c _ _ => c
  | .mst c _ _ => c
  | .mpass c _ _ => c
  | .mzero c _ => c
  | .mrda c _ _ => c
  | .mwra c _ _ => c
  | .mscl c _ _ => c
  | .mma c _ _ _ => c
  | .scfg c _ _ => c
  | .sadv c _ _ => c
  | .sqry c _ _ => c
  | .sclr c _ => c
  | .cpy c _ _ => c
  | .cpyg c _ _ => c
  | .cpys c _ _ => c
  | .cpyz c _ _ => c
  | .cjoin c _ => c
  | .evpop c _ => c
  | .evwait c _ => c
  | .launch c _ => c
  | .cancel c _ => c
  | .gwait c _ => c
  | .gqry c _ _ => c
  | .spawn c _ _ => c
  | .seed c _ => c
  | .crdig c _ _ => c
  | .cron c => c
  | .croff c => c
  | .crstat c _ _ => c
  | .instructionFetchFill _ _ => default
  | .alignTimeout _ _ => default
  | .threadUnpark _ _ => default
  | .accessPerformed _ => default
  | .deferredFault _ _ => default
  | .translationWalkDone _ _ => default
  | .walkRetry _ => default
  | .stationReplayWrite _ _ => default
  | .reservationRevoke _ _ => default
  | .queueTableReadmit _ => default
  | .oinitRetry _ _ => default
  | .barrierComplete _ _ _ _ _ => default
  | .specRollback _ _ => default
  | .putLand _ => default
  | .getRequestServe _ => default
  | .getResponse _ => default
  | .sendLand _ => default
  | .cincLand _ => default
  | .inboxRefill _ => default
  | .postAppend _ => default
  | .messageRefused _ => default
  | .outboundAck _ _ => default
  | .tileFault _ _ => default
  | .triggerAction _ => default
  | .gangStallReport _ _ => default
  | .mmaComplete _ => default
  | .matrixTransferComplete _ => default
  | .copyStart _ _ => default
  | .copyComplete _ _ => default
  | .copyFault _ _ => default
  | .copyBudgetWindow => default
  | .launchAccept _ => default
  | .dealRound _ _ => default
  | .gangStart _ _ => default
  | .tileRetire _ => default
  | .gridComplete _ => default
  | .cancelAccept _ _ => default
  | .cancelReachYard _ _ => default
  | .moduleLeavePod _ => default
  | .yardWithhold _ => default
  | .yardRecover _ => default
  | .watchdogExpire _ _ => default
  | .quantumExpiry _ _ => default
  | .gangSwapOut _ _ => default
  | .tileStopDone _ => default
  | .gangSwapIn _ _ => default
  | .rerunSiteReclaim _ => default
  | .rerunVerdict _ _ => default
  | .cruiseHoldClear _ => default
  | .entropyTestFail _ => default
  | .entropyRecover => default
  | .seedLogHeadWrite _ => default
  | .replaySourceSizeWrite _ => default
  | .queueRecordAppend _ => default
  | .hostWrite _ _ _ _ => default
  | .hostRead _ _ _ => default
  | .hostLaunchDoorbell _ _ => default
  | .hostLaunchRecordRead _ => default
  | .hostRecordRetry _ => default
  | .hostQueueResume _ => default
  | .hostLinkDown _ => default
  | .featureRequestWrite _ => default
  | .attestationRequest => default
  | .vdEntryWrite _ _ _ => default
  | .vaultZeroDone _ => default
  | .sitePowerWrite _ _ => default
  | .mcrWrite _ _ => default
  | .podRequest _ _ _ _ _ _ _ => default
  | .podFlitReplay _ => default
  | .podLinkDown _ => default
  | .podPortsDownTimeout _ => default
  | .moduleBoot => default
  | .overcurrentTrip => default
  | .voltageWindow => default
  | .stackThermalChange _ _ => default
  | .linkWordArrive _ => default
  | .voltageRampDone _ => default

/-- Whether a value reads back from a field of `bits` bits (R30). -/
def fitsImm (signed : Bool) (bits : Nat) (v : Word) : Bool :=
  if signed then decide (-(2 ^ (bits - 1) : Nat) ≤ v.toInt) && decide (v.toInt < (2 ^ (bits - 1) : Nat)) else decide (v.toNat < 2 ^ bits)

/-- The fewest IMX prefixes for an immediate (R58); 4 where three do not suffice. -/
def imxCount (b : BaseWord) : Nat :=
  if b.width == 0 then 0
  else if fitsImm b.signed b.width b.value then 0
  else if fitsImm b.signed (b.width + 10) b.value then 1
  else if fitsImm b.signed (b.width + 20) b.value then 2
  else if fitsImm b.signed (b.width + 30) b.value then 3
  else 4

/-- The IMX halfwords, the most significant payload first (R30). -/
def imxWords (width : Nat) (v : Word) : Nat → List Half
  | 0 => []
  | n + 1 => (0xF000#16 ||| ((v >>> (width + 10 * n)).setWidth 10).setWidth 16) :: imxWords width v n

/-- A prefix halfword, left out where its payload is zero (R58). -/
def prefixWord (kind : Half) (d : BitVec 10) : List Half := if d == 0 then [] else [kind ||| d.setWidth 16]

/-- The halfwords of an instruction in the order MOD, PAGE, REGX, IMX, base (R58); nothing for an event. -/
def encode (i : Instr) : List Half :=
  match i.enc with
  | none => []
  | some e => prefixWord 0xFC00 i.chain.mod ++ prefixWord 0xF800 e.page ++ prefixWord 0xF400 e.regx
      ++ imxWords e.base.width e.base.value (imxCount e.base) ++ [e.base.half]

/-- An instruction that `encode` writes whole: its immediate fits, its prefixes keep R35, and its chain says how it is encoded. -/
def Instr.encodable (i : Instr) : Bool :=
  match i.enc with
  | none => false
  | some e => i.wf && decide (imxCount e.base ≤ 3) && decide ((encode i).length ≤ 5)
      && i.chain.len == (encode i).length && i.chain.word == e.base.half

end Sys2Proof
end

