-- ==== Sys2Proof/Config.lean ====
section
/-! DEFINITION. What one module fixes, and the free values: constants without a body, of which nothing can be proved
but what holds for every value. Each is named in a log entry. -/

namespace Sys2Proof

/-- One move of the machine: a cycle of an agent's clock, with the threads that R93 and R94 would find ready in it, and whether the two
doublewords of a vector access issued in it are performed apart (R172); or a hardware event. -/
inductive Move where
  | cycle (agent : Nat) (ready : BitVec 4) (split : Bool)
  | event (e : Instr)
deriving DecidableEq, Repr, Inhabited

namespace Config

/-- Which move comes next where the agenda names none: the spec orders agents only as its rules say (log 3). -/
opaque schedule : Nat → Move
/-- 64 bits of the entropy source (R85; log 7). -/
opaque entropy : Nat → Word
/-- The value another module's memory returns (R158; log 1). -/
opaque podData : Nat → Word
/-- The cause with which another module answers an access: 0x03, 0x05, 0x06 or 0x0A; any other value is none (R158; log 1). -/
opaque podFault : Nat → BitVec 8
/-- A result that the spec does not state (log 28). -/
opaque openValue : Nat → Word
/-- The turns beyond the first that an access takes where R162 fixes none: rim, pod and control registers (log 67). -/
opaque openTurns : Nat → Nat → Nat
/-- The set of a station's translation cache for a VD, a space and a page number: the fixed function of R154 (log 19). -/
opaque tlbSet : Nat → Nat → Nat → Nat
/-- Which module of a grid's MASK runs a gang of another module's range (R346; log 1). -/
opaque podOwner : Nat → Nat → Nat
/-- Where a grid's range of gangs on this module begins and ends, among those the split of R346 allows (log 1). -/
opaque podRange : Nat → Nat → Nat
/-- How many pages of 64 KiB a VD's cruise overlays may hold: the register that module software sets is not given (R368; log 30). -/
opaque overlayPages : Nat → Nat
/-- The contents of flash at reset: boot slots, markers and the configuration blob (R420, R421; log 10). -/
opaque flash : Nat → Byte
/-- Whether the signature of a flash region verifies, with the bytes that have been written there since reset (R421; log 10). -/
opaque signed : List Host.Cell → Nat → Bool
/-- The flash region that an address of a firmware write names, 4 or more where it names none, and the place in it: the spec gives no
address (R421; log 85). -/
opaque firmwareRegion : Word → Nat
opaque firmwareOffset : Word → Nat
/-- A defective site of the signed blob (R4, R2; log 10). -/
opaque defective : Nat → Bool
/-- Where the swap region's allocator places a block of a size, by its count of earlier blocks (R335, R349; log 11). -/
opaque swapBlock : Nat → Nat → Nat
/-- Ring capacities in records that the home dispatcher gives skid queues and overflow rings (R335; log 12). -/
opaque ringCap : Nat → Nat
/-- How many gangs a dispatcher hands to each child in a dealing round (R347; log 13). -/
opaque dealShare : Nat → Nat → Nat
/-- The activity of a VD's tiles on a course in a window, as the energy that it takes at 1 V (R425; log 17). -/
opaque energy : Nat → Nat → Nat → Nat
/-- The ageing monitors' prediction for a course (R381; log 16). -/
opaque age : Nat → Nat → BitVec 32
/-- The SHAKE256 measurement of a flash region, with the bytes written there since reset (R422; log 22). -/
opaque measure : List Host.Cell → Nat → Nat
/-- Bytes of an attestation report, its signature among them, for its measurements, nonce, serial, feature grant and module number; the
count lets two reports differ (R422; log 22). -/
opaque report : List Nat → Nat → Nat → Nat → Nat → Nat → Nat → Byte

end Config
end Sys2Proof
end

