-- ==== Sys2Proof/Machine/Types.lean ====
section
/-! DEFINITION. The pieces of the machine's state: threads, tiles, sites, banks, stations, messages. -/

namespace Sys2Proof.Machine

/-- One of the two hardware loop entries of a thread (R124). -/
structure LoopEntry where
  start : Word := 0
  stop  : Word := 0
  count : Word := 0
  depth : BitVec 16 := 0
  valid : Bool := false
deriving DecidableEq, Repr, Inhabited

/-- A register operand with its kind (R42). -/
inductive OpRef where
  | g (n : RegNum)
  | v (n : RegNum)
deriving DecidableEq, Repr, Inhabited

/-- The wait that the synchronisation record of a saved thread names (R197). -/
structure WaitRec where
  addr   : Word := 0
  kind   : BitVec 8 := 0
  reg    : BitVec 8 := 0
  thr    : BitVec 32 := 0
  ticket : Word := 0
deriving DecidableEq, Repr, Inhabited

/-- What a parked thread waits for (R60, R95, R98, R197). `waitKind` gives its code in the tile image. -/
inductive Park where
  /-- Popping reads, full shared registers, busy registers, and room for the destination (R98). -/
  | operands (reads dests : List OpRef)
  /-- Every outstanding relaxed access performed (R161, R103). -/
  | drained
  /-- Room for a ninth relaxed access (R161). -/
  | relaxedSlot
  /-- Held while speculating, until the barrier completes (R229). -/
  | speculating
  /-- The store buffer's drain after a barrier (R233). -/
  | draining
  /-- Arrived at a barrier (R219). -/
  | barrier (b : Nat)
  /-- BARCFG behind an arrival of its own tile (R221). -/
  | barcfg (b : Nat)
  /-- In a bank's full/empty list (R165). -/
  | fullEmpty (addr : Word)
  /-- In a bank's list for WAITF (R195). -/
  | waitf (addr : Word)
  /-- WAITC (R199). -/
  | counter (k : Nat) (threshold : BitVec 32)
  /-- A reservation or atomic grant (R201, R210). -/
  | grant (addr : Word)
  /-- A ticket (R208, R212). -/
  | ticket (addr : Word) (t : Word)
  /-- OINIT behind a full order table (R206). -/
  | orderTable (key : Nat) (value : Word)
  /-- A translation walk in progress at a station, and the address that the access names (R155, R158). -/
  | walk (station vd space : Nat) (addr name : Word)
  /-- A rim fault under the wait policy, and the address that the access names (R156, R158). -/
  | rimFault (station vd space : Nat) (addr name : Word)
  /-- A cruise-hold on the page of an address (R152). -/
  | cruiseHold (addr : Word)
  /-- A gang that is not resident (R143). -/
  | absent (gang : Nat) (addr : Word)
  /-- A skid queue or overflow ring without room (R259). -/
  | ringFull (gang : Nat)
  /-- A vault being zeroed (R159). -/
  | zeroing (site : Nat)
  /-- A pod access at another module (R158). -/
  | pod (addr : Word)
  /-- The second doubleword of a vector access, of which the first has been performed (R172). -/
  | half (addr : Word)
  /-- The fill of the course-cache line that holds a halfword (R131). -/
  | fetch (addr : Word)
  /-- ALIGN: its tag, the tiles whose thread of the same number has issued one since, and the cycle of its issue (R134). -/
  | align (tag : BitVec 8) (seen : List Nat) (since : Word)
  /-- A free outbound entry (R239). -/
  | outbound
  /-- FENCE.G, .M, .P, and a barrier arrival behind posted operations (R180, R182). -/
  | fence (scope : Nat)
  /-- POST behind a waiting POST, or a LAUNCH's place (R176). -/
  | posted
  /-- The matrix unit or matrix state in use (R297, R306). -/
  | matrix
  /-- The thread's own MMA or matrix transfer in progress (R95). -/
  | matrixOwn
  /-- A free copy command slot (R319). -/
  | copySlot
  /-- CJOIN (R325). -/
  | cjoin (number : Word)
  /-- EVWAIT (R330). -/
  | event
  /-- GWAIT on a grid, with its destination (R340). -/
  | grid (gid : Word) (dest : RegNum)
  /-- CANCEL at the home dispatcher: the grid and the destination (R339). -/
  | dispatcher (gid : Word) (dest : RegNum)
  /-- SEED: no entropy, no room in the log, or no replay record (R85, R87, R88). -/
  | seed (kind : Nat)
  /-- SLEEP (R387). -/
  | sleep
  /-- So many elements of a stream, or so much room in it (R316, R323). -/
  | stream (h : Nat) (push : Bool) (n : Nat)
  /-- A claim of a stream's side by a copy command (R315, R318). -/
  | claim (h : Nat)
  /-- A copy command suspended for budget (R327). -/
  | budget
  /-- MTS of CLKDIV until the course's voltage carries the divider (R424). -/
  | voltage (div : Nat)
  /-- A unit without a thread, whose walk found no leaf under the trap policy (R156). -/
  | pageFault (addr : Word)
  /-- TSTOP, until the named agent's tile is stopped or gone, with its destination (R398). -/
  | tstop (agent : Nat) (dest : RegNum)
  /-- A supervisor operation on memory that has to wait, ZERO or TSAVE (R399, R404). -/
  | supervisor
  /-- A restored thread's wait, re-armed as its record names it, before it issues its chain again (R198). -/
  | rearmed (w : WaitRec)
  /-- A unit without a thread, until it is tried again. -/
  | stopped
deriving DecidableEq, Repr, Inhabited

/-- The reservation part of the synchronisation record (R197). -/
structure SyncRec where
  heldAddr : Word := 0
  /-- 0 none, 1 LRW, 2 LRO. -/
  heldKind : BitVec 8 := 0
  revoked  : Bool := false
  ticket   : Word := 0
  /-- The home of the reserved doubleword while it is held. -/
  heldKey  : Option Nat := none
deriving DecidableEq, Repr, Inhabited

/-- The full/empty accesses a bank can hold waiting (R165, R195). -/
inductive FeKind where
  | load (clear : Bool)
  | store
  | waitf
deriving DecidableEq, Repr, Inhabited

/-- The atomic operations (R210). -/
inductive AtomOp where
  | add | and | or | xor | min | max | minu | maxu | swap | cas | fadd | faddo
deriving DecidableEq, Repr, Inhabited

/-- What a request to another module asks for: a load or store, or what a bank serves at a pad (R158, R346). -/
inductive PodAct where
  | access
  | fe (k : FeKind)
  | clrf
  | lrw
  | atomic (op : AtomOp) (second : Word)
deriving DecidableEq, Repr, Inhabited

/-- An outstanding relaxed access, or the one request of a thread at another module (R158, R161). -/
structure Relaxed where
  addr   : Word
  size   : Nat
  store  : Bool
  signed : Bool := false
  /-- Destination of a load. -/
  dest   : RegNum := 0
  /-- The destination is a v register. -/
  vector : Bool := false
  data   : BitVec 128 := 0
  act    : PodAct := .access
  /-- The thread's CX at issue (R376). -/
  cx     : Bool := false
  /-- The cycle of its issue: those of one tile are ordered by it (R174). -/
  at_    : Word := 0
  /-- What the control window held at issue (R141). -/
  window : Option Word := none
  /-- The first doubleword of a vector access, once it has been performed (R172). -/
  first  : Option Word := none
  /-- The condition of R137 that struck it. -/
  fault  : Option (BitVec 8) := none
  /-- What it waits for. -/
  hold   : Option Park := none
deriving DecidableEq, Repr, Inhabited

/-- A deferred fault (R163). -/
structure Deferred where
  cause : BitVec 8
  value : Word
deriving DecidableEq, Repr, Inhabited

/-- One entry of the speculation store buffer: an aligned doubleword address, data and byte mask (R227), and the digest terms of the
stores that it holds, which count when it drains (R366). -/
structure BufEntry where
  addr : Word
  data : Word
  mask : BitVec 8
  terms : Vector (BitVec 32) 4 := Vector.replicate 4 0
deriving DecidableEq, Repr, Inhabited

/-- A checkpoint and what has been done since (R226-R230). -/
structure Spec where
  bar    : Nat
  /-- First halfword of the BARS chain (R460). -/
  barsPc : Word
  pc     : Word
  g      : Vector Word 32
  v      : Vector VReg 32
  q      : Vector (BitVec 16) 8
  fst    : BitVec 5
  srcnt  : Word
  loop0  : LoopEntry
  loop1  : LoopEntry
  ldepth : BitVec 16
  buf    : List BufEntry := []
  /-- A trap met while speculating (R230). -/
  held   : Option (BitVec 8 × Word) := none
deriving DecidableEq, Repr, Inhabited

/-- A thread of a tile. -/
structure Thread where
  /-- Started and not halted (R216). -/
  live     : Bool := false
  pc       : Word := 0
  g        : Vector Word 32 := Vector.replicate 32 0
  v        : Vector VReg 32 := Vector.replicate 32 0
  q        : Vector (BitVec 16) 8 := Vector.replicate 8 0
  tst      : BitVec 4 := 0
  fctl     : BitVec 4 := 0x9
  fst      : BitVec 5 := 0
  srkey    : Word := 0
  srcnt    : Word := 0
  tcause   : BitVec 9 := 0
  tepc     : Word := 0
  tval     : Word := 0
  tvec     : Word := 0
  tscratch : Word := 0
  ldepth   : BitVec 16 := 0
  loop0    : LoopEntry := {}
  loop1    : LoopEntry := {}
  /-- The cruise exclusion flag CX (R376). -/
  cx       : Bool := false
  /-- Pending outside traps: grid cancelled (0x09), watchdog (0x0E) (R385). -/
  cancelPending : Bool := false
  dogPending    : Bool := false
  /-- A rollback of R231 on its way to the thread. -/
  rollback : Bool := false
  sync     : SyncRec := {}
  /-- The wait part, as it stood when the thread was stopped. -/
  wait     : WaitRec := {}
  /-- Progress of a matrix transfer that a pre-emption stopped (R305): its address and the bytes done. -/
  mprogAddr  : Word := 0
  mprogBytes : BitVec 32 := 0
  /-- The sequence number of the thread's next SEED (R87, R459). -/
  seedSeq  : Word := 0
  park     : Option Park := none
  /-- The address after the base word of the parked instruction. -/
  parkNext : Word := 0
  /-- What the parked instruction has popped, to be put back if it is withdrawn (R170). A word that has been sent on stands under
  LNF or LPF. -/
  popped   : List (RegNum × VReg) := []
  /-- What an instruction that issues again had popped at its earlier issue and has not yet read this time. -/
  held     : List (RegNum × VReg) := []
  /-- The pushing destination for which a parked load has reserved a place (R160). -/
  claims   : List RegNum := []
  relaxed  : List Relaxed := []
  deferred : Option Deferred := none
  /-- Destination register and message of each LAUNCH whose handle is not back (R338). -/
  launching : List (RegNum × Nat) := []
  spec     : Option Spec := none
  /-- Drained stores not yet performed (R233). -/
  drain    : List BufEntry := []
  /-- A trap held through speculation and due after the drain (R230). -/
  dueTrap  : Option (BitVec 8 × Word) := none
deriving DecidableEq, Repr, Inhabited

/-- A change of a shared register that is not yet effective (R101, R102). -/
structure SharedChange where
  reg    : Nat
  /-- The cycle from which it counts. -/
  at_    : Word
  /-- The value of a write; `none` for the emptying of a TAKE. -/
  value  : Option Word
  thread : Nat
deriving DecidableEq, Repr, Inhabited

/-- Where a push goes: toward rank + 1 or rank - 1, or into a stream handle (R40). -/
inductive PushTo where
  | link (toward : Dir)
  | stream (h : Nat)
deriving DecidableEq, Repr, Inhabited

/-- A push of an issued instruction that is not yet performed (R96). -/
structure Push where
  to_    : PushTo
  value  : VReg
  /-- The cycle at which it is performed. -/
  at_    : Word
  thread : Nat
deriving DecidableEq, Repr, Inhabited

/-- A word in a link FIFO. `sent`: it has been passed on already, by an LNF or LPF whose instruction was withdrawn (R170). -/
structure FifoWord where
  word : Word
  sent : Bool := false
deriving DecidableEq, Repr, Inhabited

/-- A trigger slot: doubleword 0 with THR, CTR, DCTR, KIND, ARMED and STEP, and bytes 8 to 31 (R250). -/
structure Trigger where
  cfg : Word := 0
  d1  : Word := 0
  d2  : Word := 0
  d3  : Word := 0
deriving DecidableEq, Repr, Inhabited

/-- A trigger evaluation that waits its turn, or is under way at slot `z` with the counter's value (R252). -/
structure TrigEval where
  ctr   : Nat
  value : Option (BitVec 32) := none
  z     : Nat := 0
  /-- `some z`: the evaluation of slot z alone after its ARM. -/
  only  : Option Nat := none
deriving DecidableEq, Repr, Inhabited

/-- A stream handle (R312): configuration word, counts and status. -/
structure Stream where
  cfg   : Word := 0
  rd    : BitVec 32 := 0
  wr    : BitVec 32 := 0
  valid : Bool := false
  /-- Producer side and consumer side claimed by a copy command (R323). -/
  pcl   : Bool := false
  ccl   : Bool := false
deriving DecidableEq, Repr, Inhabited

/-- The four copy commands (R319, R331). -/
inductive CopyKind where
  | cpy | cpyg | cpys | cpyz
deriving DecidableEq, Repr, Inhabited

/-- Where a copy command stands. -/
inductive CopyPhase where
  /-- Issued, not yet started, or behind a claimed stream side (R323). -/
  | waiting
  | running
  /-- Finished but for its event, which waits for room (R324, R329). -/
  | closing
  /-- It has met a fault that is not yet reported (R322). -/
  | failing
  /-- Faulted: the slot waits for its join or its event (R325). -/
  | faulted
deriving DecidableEq, Repr, Inhabited

/-- A byte that a copy command has read and not yet written, with the poison of its doubleword. -/
structure CopyByte where
  at_    : Nat
  byte   : Byte
  poison : Bool
deriving DecidableEq, Repr, Inhabited

/-- A beat of a rim leg (R326): the 4 KiB of rim address that it covers on the command's reading or writing side, the station whose
channel it runs on, and the bytes still to move. One that is not active waits for a channel. -/
structure CopyBeat where
  write   : Bool
  page    : Nat
  station : Nat
  left    : Nat := 0
  active  : Bool := false
deriving DecidableEq, Repr, Inhabited

/-- A copy command slot in use (R319-R325). -/
structure CopyCmd where
  kind   : CopyKind
  number : BitVec 32
  src    : Word
  dst    : Word
  idx    : Word
  len    : BitVec 32
  esz    : BitVec 8
  stream : BitVec 8
  fin    : BitVec 8
  resv   : BitVec 8 := 0
  /-- Address of its descriptor; 0 after a restore. -/
  desc   : Word := 0
  /-- The issuing thread's CX at issue (R376). -/
  cx     : Bool := false
  thread : Nat
  /-- Its place in the order of issue of all commands (R327). -/
  age    : Nat := 0
  phase  : CopyPhase := .waiting
  /-- Bytes moved before its last save (R329, R331). -/
  before : Nat := 0
  /-- Units of work finished from the start: doublewords of the destination, elements, or stream elements. -/
  units  : Nat := 0
  /-- Units finished beyond the prefix (R181, R331). -/
  ahead  : List Nat := []
  /-- Bytes gathered, or popped, in order so far. -/
  got    : Nat := 0
  latched : List CopyByte := []
  beats  : List CopyBeat := []
  /-- Words that have added their terms and may be written again: those of a scatter, and those that a save has to repeat (R366). -/
  seen   : List Nat := []
  cause  : BitVec 8 := 0
  faultAddr : Word := 0
  /-- What accesses of the command wait for. -/
  holds  : List Park := []
deriving DecidableEq, Repr, Inhabited

/-- An event record (R329): bytes 0 to 7 and bytes 8 to 15. -/
structure EventRec where
  lo : Word
  hi : Word
deriving DecidableEq, Repr, Inhabited

/-- The wait of a thread at a barrier (R236): 0 none, 1 BAR or BARS, 2 BARR; identifier; op. -/
structure BarWait where
  kind  : BitVec 2 := 0
  ident : BitVec 2 := 0
  op    : BarrOp := .add
  /-- Destination of a BARR. -/
  dest  : RegNum := 0
deriving DecidableEq, Repr, Inhabited

/-- A barrier group: identifier, level and group index in a gang (R215). A gang is named by its grid handle and its index, plus
65,536 for a re-run and 131,072 for a third run; a service core by handle 0 and its number. -/
structure BarGroup where
  handle : Word
  gang   : Nat
  ident  : Nat
  level  : Nat
  index  : Nat
deriving DecidableEq, Repr, Inhabited

/-- A completion that is decided and not yet delivered (R220): its member tiles and the threads that arrived in each. -/
structure BarDone where
  group   : BarGroup
  members : List (Nat × BitVec 4)
deriving DecidableEq, Repr, Inhabited

/-- A residency entry held in a tile's gang residency cache, with its skip list (R257, R258). -/
structure ResEntry where
  handle : Word
  gang   : Nat
  entry  : BitVec 256
  skip   : List (BitVec 16)
deriving DecidableEq, Repr, Inhabited

/-- An MMA in progress (R295, R297). -/
structure MmaJob where
  thread : Nat
  acc    : BitVec 2
  a      : BitVec 2
  b      : BitVec 2
deriving DecidableEq, Repr, Inhabited

/-- The transfers of the matrix unit (R298, R302, R303). -/
inductive XferKind where
  | mld | mst | mscl | mrda | mwra
  | mldl (link : Link)
  | mpass (dir : Dir)
deriving DecidableEq, Repr, Inhabited

/-- A matrix transfer in progress (R299): the register, its address, the bytes it moves and has moved. -/
structure XferJob where
  thread : Nat
  kind   : XferKind
  reg    : BitVec 2
  addr   : Word
  total  : Nat
  done   : Nat := 0
deriving DecidableEq, Repr, Inhabited

/-- The marks of cruise re-runs (R368). -/
inductive RunMark where
  | original | rerun | third
deriving DecidableEq, Repr, Inhabited

/-- Number of a run's mark. -/
def RunMark.no : RunMark → Nat
  | .original => 0
  | .rerun => 1
  | .third => 2

/-- A tile, or a service core (R13, R454). -/
structure Tile where
  threads  : Vector Thread 4 := Vector.replicate 4 {}
  vtn      : BitVec 32 := 0
  gsize    : BitVec 17 := 1
  handle   : Word := 0
  vd       : Nat := 0
  s        : Vector Word 8 := Vector.replicate 8 0
  sfull    : BitVec 8 := 0
  schange  : List SharedChange := []
  c        : Vector (BitVec 32) 16 := Vector.replicate 16 0
  trig     : Vector Trigger 8 := Vector.replicate 8 {}
  evalQ    : List TrigEval := []
  /-- Actions that fired during a replay are still to be issued; no thread resumes before (R261). -/
  replaying : Bool := false
  inbox    : List Word := []
  /-- Words that LN pops (pushed by rank + 1) and that LP pops (pushed by rank - 1) (R248). -/
  ln       : List FifoWord := []
  lp       : List FifoWord := []
  /-- Pushes on their way, in issue order (R96). -/
  pushes   : List Push := []
  /-- Messages that hold an outbound entry (R239). -/
  outb     : List Nat := []
  resCache : List ResEntry := []
  sealed   : Bool := false
  barCfg   : Vector (BitVec 16) 4 := Vector.replicate 4 0x001F
  phase    : Vector (BitVec 2) 4 := Vector.replicate 4 0
  arrived  : Vector (BitVec 4) 4 := Vector.replicate 4 0
  contrib  : Vector Word 4 := Vector.replicate 4 0
  barWait  : Vector BarWait 4 := Vector.replicate 4 {}
  specUsed : BitVec 16 := 0
  rollbacks : BitVec 32 := 0
  streams  : Vector Stream 8 := Vector.replicate 8 {}
  mcfg     : Vector Word 4 := Vector.replicate 4 0x2080
  mma      : Option MmaJob := none
  xfer     : Option XferJob := none
  copies   : Vector (Option CopyCmd) 4 := Vector.replicate 4 none
  nextCmd  : BitVec 32 := 1
  events   : List EventRec := []
  eventWait : List EventRec := []
  digest   : Vector (BitVec 32) 4 := Vector.replicate 4 0
  mark     : RunMark := .original
deriving DecidableEq, Repr, Inhabited

/-- States of a tile site (R390). -/
inductive SiteState where
  | free | loaded | running | stopping | stopped | quarantined | defective
deriving DecidableEq, Repr, Inhabited

/-- Who stops a tile (R392, R398). -/
inductive StopOwner where
  /-- TSTOP by a thread of an agent. -/
  | tstop (agent thread : Nat)
  /-- The gang scheduler's swap-out (R393). -/
  | scheduler
deriving DecidableEq, Repr, Inhabited

/-- A write by MTS to a site register: it counts from cycle t + 3 (R381). -/
inductive SiteWrite where
  | div (at_ : Word) (v : BitVec 3)
  | ecc (at_ : Word) (v : BitVec 48)
deriving DecidableEq, Repr, Inhabited

/-- The registers that stay with a site (R380, R381, R390). -/
structure Site where
  state  : SiteState := .free
  pend   : Bool := false
  score  : BitVec 8 := 0
  clkdiv : BitVec 3 := 0
  corr   : BitVec 16 := 0
  unc    : BitVec 16 := 0
  fetch  : BitVec 16 := 0
  cyc    : Word := 0
  /-- Writes by MTS that count from a cycle on: CLKDIV or ECCNT (R381). -/
  later  : List SiteWrite := []
  stopBy : Option StopOwner := none
  /-- The cycle at which its stop was asked for (R204). -/
  stopAt : Word := 0
  /-- STOPPING, its threads at their boundaries and its port sealed: its link words are still to be recorded (R249, R392). -/
  atRest : Bool := false
deriving DecidableEq, Repr, Inhabited

/-! ### Banks and stations -/

/-- A waiting full/empty request (R166). -/
structure FeReq where
  key    : Nat
  size   : Nat
  kind   : FeKind
  addr   : Word
  data   : Word := 0
  dest   : RegNum := 0
  /-- The thread's CX at issue (R376). -/
  cx     : Bool := false
  agent  : Nat
  thread : Nat
deriving DecidableEq, Repr, Inhabited

/-- What a reservation request asks for (R201, R208, R210, R212). -/
inductive ResvKind where
  | lrw
  | lro (ticket : Word)
  | atomic (op : AtomOp) (width : Nat) (operand second : Word)
deriving DecidableEq, Repr, Inhabited

/-- A request of a bank's queue table, or one rejected while the table was full (R200). -/
structure ResvReq where
  key    : Nat
  addr   : Word
  kind   : ResvKind
  dest   : RegNum
  cx     : Bool := false
  agent  : Nat
  thread : Nat
deriving DecidableEq, Repr, Inhabited

/-- The holder of a doubleword (R200). -/
structure Holder where
  key    : Nat
  agent  : Nat
  thread : Nat
deriving DecidableEq, Repr, Inhabited

/-- An order-table entry (R206). -/
structure OrderEntry where
  key  : Nat
  next : Word
deriving DecidableEq, Repr, Inhabited

/-- A read-watch entry (R228): its doubleword, its watcher, and its place in its bank's table. -/
structure Watch where
  key    : Nat
  agent  : Nat
  thread : Nat
  bar    : Nat
  slot   : Nat := 0
  vtn    : BitVec 32 := 0
  vd     : Nat := 0
deriving DecidableEq, Repr, Inhabited

/-- A cached leaf translation (R154): `bits` is log2 of the page size, `page` the address above it. -/
structure TlbEntry where
  station : Nat
  vd      : Nat
  space   : Nat
  bits    : Nat
  page    : Nat
  leaf    : Word
  /-- Where the leaf stands, for the hardware's changes of CH (R157). -/
  leafPa  : Nat
  /-- Its set and way in the station's cache (R154). -/
  set_    : Nat := 0
  way     : Nat := 0
deriving DecidableEq, Repr, Inhabited

/-- Kinds of access in a rim fault record (R156). -/
inductive AccKind where
  | load | store | atomic | fetch | engineRead | engineWrite | podRequest
deriving DecidableEq, Repr, Inhabited

/-- A pending walk, or a miss held back (R155). -/
structure Walk where
  station : Nat
  vd      : Nat
  space   : Nat
  addr    : Word
  kind    : AccKind
  vtn     : BitVec 32
  thread  : Nat
  /-- log2 of the page size on which misses join it (R155). -/
  bits    : Nat := 16
  heldBack : Bool := false
  /-- Only a PREF has asked for it (R135). -/
  ahead    : Bool := false
deriving DecidableEq, Repr, Inhabited

/-- A rim fault under the wait policy (R156). -/
structure RimFault where
  station : Nat
  vd      : Nat
  space   : Nat
  addr    : Word
  kind    : AccKind
  vtn     : BitVec 32
  thread  : Nat
  /-- log2 of the page size on which accesses merge with it (R156). -/
  bits    : Nat := 16
  tag     : Word
deriving DecidableEq, Repr, Inhabited

/-- A course instruction cache line (R130): its course, way, tag and 64 bytes. -/
structure CacheLine where
  course : Nat
  way    : Nat
  vd     : Nat
  space  : Nat
  /-- The address over 64. -/
  line   : Nat
  data   : BitVec 512
  /-- Its page may be fetched in user mode (R129). -/
  user   : Bool
  /-- Doublewords that were uncorrectable when it was read (R133). -/
  bad    : BitVec 8 := 0
deriving DecidableEq, Repr, Inhabited

/-- A line being filled (R131). -/
structure Fill where
  agent  : Nat
  thread : Nat
  course : Nat
  vd     : Nat
  space  : Nat
  line   : Nat
  /-- A PREF asked for it, or with `unit` the fetch unit, ahead of the PC: its faults are no traps (R133, R135). -/
  ahead  : Bool := false
  unit   : Bool := false
  /-- What the translation that it shares waits for. -/
  hold   : Option Park := none
deriving DecidableEq, Repr, Inhabited

/-! ### Descriptors and blocks -/

/-- The descriptor of a grid (R332). -/
structure GridDesc where
  image  : Word := 0
  imsz   : Nat := 0
  gsz    : Nat := 1
  entry  : Word := 0
  gcnt   : Nat := 1
  queue  : Nat := 0
  pri    : Nat := 0
  weight : Nat := 1
  mask   : Word := 0
  cre    : Nat := 17
  flags  : BitVec 8 := 0
  space  : Nat := 0
  stack  : Nat := 0
  cseed  : Word := 0
  arg    : Word := 0
  iolist : Word := 0
  iocnt  : Nat := 0
  crec   : Word := 0
  cnote  : Word := 0
deriving DecidableEq, Repr, Inhabited

/-- An entry of the I/O region list (R333). -/
structure IoRegion where
  addr   : Word
  len    : Nat
  output : Bool
deriving DecidableEq, Repr, Inhabited

/-- A block of a VD's swap region (R335, R349, R393). -/
structure SwapBlock where
  vd    : Nat
  base  : Nat
  bytes : Nat
deriving DecidableEq, Repr, Inhabited

/-! ### Messages -/

/-- What a message does where it lands (R243, R244, R246, R242, R256, R335, R339). -/
inductive MsgKind where
  | put (off : Nat) (ctr : Nat) (data : Word)
  | putv (off : Nat) (ctr : Nat) (data : BitVec 128)
  | getReq (off : Nat) (local_ : Nat) (ctr : Nat)
  | getResp (off : Nat) (ctr : Nat) (data : Word) (poison : Bool)
  | send (word : Word)
  | cinc (ctr : Nat) (amount : BitVec 32)
  | post (desc : Word) (rec : BitVec 256)
  | launch (desc : Word)
  /-- The handle of a trigger's LAUNCH, to be stored in the pad of a tile that is away (R252). -/
  | handle (off : Nat) (value : Word)
  /-- A store, an STF and a CLRF of a tile of a re-run to a pad of its own run that is away (R368). -/
  | padStore (off n : Nat) (data : Word) (poison : Bool)
  | padFull (off n : Nat) (data : Word)
  | padClear (off : Nat)
deriving DecidableEq, Repr, Inhabited

/-- Where a message stands. -/
inductive MsgPhase where
  | flight
  /-- Landed, parked or discarded, the acknowledgement on its way (R239). -/
  | acked
deriving DecidableEq, Repr, Inhabited

/-- A posted operation after hand-over. -/
structure Msg where
  id     : Nat
  kind   : MsgKind
  agent  : Nat
  thread : Nat
  vtn    : BitVec 32
  handle : Word
  vd     : Nat
  dest   : BitVec 32 := 0
  /-- The site its sender's translation gave; none while the gang is absent. -/
  site   : Option Nat := none
  gen    : BitVec 16 := 0
  /-- The trigger slot whose action it is. -/
  slot   : Option Nat := none
  /-- A trigger LAUNCH stores its handle at this pad offset (R252). -/
  store  : Option Nat := none
  /-- A LAUNCH that has been checked and waits in its queue, with what was read of it (R335, R338), and whether the lack of swap room
  has been reported. -/
  checked : Option (GridDesc × List IoRegion) := none
  asked  : Bool := false
  /-- The run its tile belongs to (R368). -/
  mark   : RunMark := .original
  /-- Issued in supervisor mode (R152). -/
  sup    : Bool := false
  /-- The cycle of its issue, and for one of another module its tile there (R185). -/
  at_    : Word := 0
  tile   : Nat := 0
  /-- The slot that a POST has taken at its queue, by its running count, once TAIL has moved (R256). -/
  taken  : Option Word := none
  /-- The host launch queue whose record it is (R415). -/
  queue  : Option Nat := none
  phase  : MsgPhase := .flight
  /-- It waits for a tile of a cruise re-run, which has no skid queue, and holds no outbound entry (R18, R368). -/
  parked : Bool := false
  /-- What it waits for. -/
  hold   : Option Park := none
deriving DecidableEq, Repr, Inhabited

/-- A word on a chain link (R248). -/
structure LinkWord where
  handle : Word
  gang   : Nat
  /-- The rank that will pop it. -/
  rank   : Nat
  /-- It enters the FIFO that LP pops (it comes from rank - 1). -/
  fromBelow : Bool
  word   : Word
  /-- It comes back from a FIFO in which it stood as sent on (R170). -/
  sent   : Bool := false
deriving DecidableEq, Repr, Inhabited

/-! ### Grids and gangs

A grid is named inside the machine by its handle with its VD in bits 61 to 54: two VDs may hold equal handles (R336). -/

/-- A fault of a first-fault record (R357). -/
structure GridFault where
  vtn    : BitVec 32
  thread : BitVec 8
  cause  : BitVec 8
  module : BitVec 16
  value  : Word
deriving DecidableEq, Repr, Inhabited

/-- A range of gangs at a dispatcher (R347): node 0 to 255 the yards, 256 to 259 the quadrants, 260 the module. -/
structure DealRange where
  node : Nat
  lo   : Nat
  hi   : Nat
deriving DecidableEq, Repr, Inhabited

/-- An accepted grid (R332-R360). -/
structure Grid where
  handle   : Word
  vd       : Nat
  desc     : GridDesc
  io       : List IoRegion := []
  /-- The launching tile: its grid and virtual tile number; grid 0 for a service core; none for a host record (R334). -/
  launcher : Option (Word × BitVec 32) := none
  /-- Physical base of the residency table (R257). -/
  table    : Nat := 0
  blocks   : List SwapBlock := []
  /-- The gangs of this module, [lo, hi) (R346). -/
  lo       : Nat := 0
  hi       : Nat := 0
  ranges   : List DealRange := []
  /-- A module of MASK left the pod (R358). -/
  lost     : Bool := false
  /-- The gang whose placement has reported a lack of swap room (R349). -/
  asked    : Option Nat := none
  cancelled : Bool := false
  /-- The yards the cancellation has reached (R359). -/
  reached  : List Nat := []
  /-- The pad image once read (R350), as cells from pad offset 0. -/
  image    : Option (List Host.Cell) := none
  /-- Poisoned doublewords cannot reach it: a poisoned image is a fault. -/
  imageFault : Bool := false
  /-- What the read of the image, or the write of the completion record, waits for. -/
  imageHold  : Option Park := none
  recHold    : Option Park := none
  completed  : Nat := 0
  cancelledRunning : Nat := 0
  neverStarted : Nat := 0
  started  : Bool := false
  counts   : Vector (BitVec 16) 16 := Vector.replicate 16 0
  firsts   : List GridFault := []
  /-- The counts of the other modules have been added (R357), and the completion record is written, or cannot be (R356). -/
  joined   : Bool := false
  recorded : Bool := false
  /-- Complete: kept among the last 4,096 (R336). -/
  complete : Bool := false
  /-- The grid identifier under which its seeds are logged, and the one it replays (R86, R88). -/
  seedId   : Word := 0
  /-- TAIL of the seed log at its acceptance: its own records stand from there on (R89). -/
  seedFrom : Nat := 0
  replay   : Option Word := none
  /-- Its input pages hold CH (R367). -/
  holds    : Bool := false
deriving DecidableEq, Repr, Inhabited

/-- Where a gang stands. -/
inductive GangPhase where
  /-- Resident, or being started. -/
  | resident
  /-- Being stopped for a swap (R393). -/
  | stopping
  | swappedOut
  | retired
  | neverStarted
deriving DecidableEq, Repr, Inhabited

/-- What the barrier network keeps of a rank whose saved tile stands on no site: its configurations, its live threads, and how often
its groups have completed since (R216, R217, R235). -/
structure SavedRank where
  rank   : Nat
  cfg    : Vector (BitVec 16) 4
  live   : BitVec 4
  phases : Vector (BitVec 2) 4 := Vector.replicate 4 0
deriving DecidableEq, Repr, Inhabited

/-- A gang that has been placed at least once. -/
structure Gang where
  handle  : Word
  index   : Nat
  vd      : Nat
  phase   : GangPhase := .resident
  /-- The site of each rank while it is placed (R17). -/
  sites   : List Nat := []
  /-- Its first instruction has issued (R349, R359). -/
  begun   : Bool := false
  /-- The image of each rank in the swap region (R393). -/
  images  : List Nat := []
  imageBlock : Option SwapBlock := none
  skipBlock  : Option SwapBlock := none
  /-- Swapped out with every thread parked: not ready until a tile fault (R354). -/
  dormant : Bool := false
  /-- Ranks that have retired. -/
  retiredRanks : List Nat := []
  /-- Ranks whose saved tiles stand on no site (R235, R403). -/
  saved   : List SavedRank := []
  /-- Microseconds for which it has been resident and not withheld (R24, R352). -/
  resident : Nat := 0
  /-- Ended by a trap (R386). -/
  ended   : Bool := false
  cancelTrap : Bool := false
  /-- The watchdog's count, the one at which it expired, the stall count and whether it has been reported, the quantum's end. -/
  dog     : Nat := 0
  dogReached : Nat := 0
  stall   : Nat := 0
  stalled : Bool := false
  quantumOver : Bool := false
  /-- Gang digest, formed as its tiles retire (R363). -/
  digest  : Vector (BitVec 32) 4 := Vector.replicate 4 0
  /-- The sites of the original run (R368). -/
  history : List Nat := []
  mark    : RunMark := .original
deriving DecidableEq, Repr, Inhabited

/-- The audit of one selected gang (R368-R370): the finished runs, and which run it waits for. -/
structure Audit where
  handle  : Word
  gang    : Nat
  vd      : Nat
  /-- Digest and sites of the original, and of the re-run once it has ended. -/
  first   : Vector (BitVec 32) 4
  firstSites : List Nat
  second  : Option (Vector (BitVec 32) 4) := none
  secondSites : List Nat := []
  /-- The run it waits for has been placed. -/
  placed  : Bool := false
deriving DecidableEq, Repr, Inhabited

/-! ### Host and pod -/

/-- A host request that waits (R410, R156). -/
structure HostReq where
  core  : Nat
  addr  : Word
  size  : Nat
  write : Bool
  data  : BitVec 512 := 0
  hold  : Option Park := none
deriving DecidableEq, Repr, Inhabited

/-- What waits at a pad's banks: a reservation request, or a full/empty one. -/
inductive BankReq where
  | resv (r : ResvReq)
  | fe (r : FeReq)
deriving DecidableEq, Repr, Inhabited

/-- A request withdrawn with the pad it waits at, until the pad is back (R205). -/
structure AwayReq where
  gid  : Word
  gang : Nat
  rank : Nat
  off  : Nat
  req  : BankReq
  agent  : Nat
  thread : Nat
  addr   : Word
deriving DecidableEq, Repr, Inhabited

/-- What has gone to the host: completions, data, errors and interrupts (R410, R415). -/
inductive HostOut where
  | wrote (core : Nat) (addr : Word)
  | data (core : Nat) (addr : Word) (data : BitVec 512)
  | error (core : Nat) (addr : Word)
  | interrupt (core queue : Nat)
deriving DecidableEq, Repr, Inhabited

/-- A host launch queue at work on its record (R415). -/
inductive HostStage where
  /-- The record is to be read again after an invalid read, so many times so far. -/
  | retry (n : Nat)
  /-- A read of the record waits for a rim fault, after so many invalid ones. -/
  | reading (n : Nat) (hold : Park)
  /-- Its LAUNCH is under way. -/
  | launched (result : Word)
  /-- The handle waits to be stored. -/
  | storing (result value : Word) (hold : Park)
deriving DecidableEq, Repr, Inhabited

/-- A pod request from another module that waits (R158), with the tile that sent it, a free value (log 1). -/
structure PodReq where
  module : Nat
  tile   : Nat := 0
  /-- Its place among what has arrived from outside and the messages (R185). -/
  id     : Nat := 0
  vd     : Nat
  space  : Nat
  addr   : Word
  size   : Nat
  write  : Bool
  data   : Word := 0
  hold   : Option Park := none
deriving DecidableEq, Repr, Inhabited

/-- An answer to a pod request: data, or the cause of its fault (R158). -/
structure PodOut where
  module : Nat
  addr   : Word
  cause  : BitVec 8 := 0
  data   : Word := 0
deriving DecidableEq, Repr, Inhabited

/-- A report that a tile's event queue has no room for, held while the tile is off the wafer (R329). -/
structure HeldReport where
  gid  : Word
  vtn  : BitVec 32
  mark : RunMark
  event : EventRec
deriving DecidableEq, Repr, Inhabited

/-- A copy command of a saved tile, as it is to go on: what the saved command of R331 has no field for stands beside the image (log 82). -/
structure CopyRest where
  gid  : Word
  vtn  : BitVec 32
  mark : RunMark
  slot : Nat
  cmd  : CopyCmd
deriving DecidableEq, Repr, Inhabited

/-- The shadow overlay of a cruise re-run: the 64 KiB pages it has written outside its own pads, each in a block of the VD's swap region,
and the addresses it holds there; `full`: a page could not be had (R368, R370). -/
structure Overlay where
  handle : Word
  gang   : Nat
  mark   : RunMark
  pages  : List (Nat × SwapBlock) := []
  held   : List Nat := []
  full   : Bool := false
deriving DecidableEq, Repr, Inhabited

/-- The queue an appended hardware record goes to (R389, R408, R373). -/
inductive RecordQueue where
  | supervisor (vd : Nat)
  | health
  | cruise
deriving DecidableEq, Repr, Inhabited

/-- A record waiting to be appended (R456). -/
structure PendingRecord where
  queue : RecordQueue
  bytes : BitVec 256
deriving DecidableEq, Repr, Inhabited

end Sys2Proof.Machine
end

