-- ==== Sys2Proof/Machine/State.lean ====
section
/-! DEFINITION. The state of the machine, its state after reset, and the reasons a step can stop. -/

namespace Sys2Proof.Machine

/-- Reasons the machine stops with a fault. -/
inductive Fault where
  /-- Raised by the step where a rim access would leave the 1,536 GiB that R10 says exist. Safe: the machine stops. -/
  | physicalHole (pa : Nat)
deriving DecidableEq, Repr, Inhabited

/-- Reasons a step is refused. -/
inductive Refusal where
  /-- Raised by an arm of `exec` whose instruction has no meaning yet. Safe. -/
  | notModelled (mnemonic : String)
deriving DecidableEq, Repr, Inhabited

structure State where
  /-- Every byte of memory: rim, vault, tile-local and control register cells in one canonical list (`Mem.wf`). -/
  mem : List Host.Cell := []
  /-- The full words, rising (R139, R145). -/
  full : List Nat := []
  /-- The poisoned doublewords, rising (R168). -/
  poison : List Nat := []
  /-- Tiles by agent number: site indices, and 65,536 + q for service core q. -/
  tiles : List (Nat × Tile) := []
  /-- What the last tile of a site left there, until the next one comes (R344). -/
  remains : List (Nat × Tile) := []
  /-- Sites whose registers differ from `{}`. -/
  sites : List (Nat × Site) := []
  fe : List FeReq := []
  resv : List ResvReq := []
  rejected : List ResvReq := []
  holders : List Holder := []
  orders : List OrderEntry := []
  watches : List Watch := []
  /-- Read-watch entries that have been freed and still stand in their slots, not valid (R228). -/
  oldWatches : List Watch := []
  /-- Barrier completions on their way to the threads (R220). -/
  decided : List BarDone := []
  tlb : List TlbEntry := []
  walks : List Walk := []
  rimFaults : List RimFault := []
  icache : List CacheLine := []
  fills : List Fill := []
  /-- Replacement trees of the stations' sets, by station x 512 + set; 0 where unlisted (R154). -/
  tlbPlru : List (Nat × BitVec 7) := []
  /-- Replacement trees of the course caches' sets, by course x 128 + set; 0 where unlisted (R130). -/
  plru : List (Nat × BitVec 7) := []
  zeroing : List Nat := []
  net : List Msg := []
  nextMsg : Nat := 0
  links : List LinkWord := []
  /-- Slots of link records whose word had been sent on before its tile was saved (R170, R249). -/
  sentWords : List Nat := []
  grids : List Grid := []
  gangs : List Gang := []
  /-- Gangs with a tile fault outstanding (R260). -/
  tileFaults : List (Word × Nat) := []
  /-- How many rim faults have been given a replay tag (R156). -/
  faultTag : Nat := 0
  overlays : List Overlay := []
  /-- Records of hardware that wait for their ring, in production order (R456). -/
  records : List PendingRecord := []
  swap : List SwapBlock := []
  /-- How many blocks the swap allocator has given (log 11). -/
  swapCount : Nat := 0
  /-- Next serial of each VD (R336); 1 where unlisted. -/
  serials : List (Nat × BitVec 32) := []
  withheld : List Nat := []
  /-- Copy bytes charged in the present window, by station x 256 + VD (R327). -/
  budgetUsed : List (Nat × Nat) := []
  /-- Derating step of a stack, 0 where unlisted (R428). -/
  stackStep : List (Nat × Nat) := []
  /-- Code voted by a VD; none where unlisted (R406). -/
  votes : List (Nat × Nat) := []
  /-- Code that a course's voltage had reached at the last window boundary; 10 where unlisted (R424). -/
  volts : List (Nat × Nat) := []
  /-- How many window boundaries have passed, the first at reset (R424). -/
  windows : Nat := 0
  /-- The health test of the entropy source that fails (R85). -/
  entropyFailing : Option Nat := none
  /-- Cruise audits under way, oldest first (R368). -/
  audits : List Audit := []
  /-- Clean verdicts since the last decrease of scores (R371). -/
  clean : Nat := 0
  /-- Site-cycles that a VD's re-runs have received in the present window (R26). -/
  rerunService : List (Nat × Nat) := []
  /-- Site-cycles of a VD's partition in the present window (R26). -/
  rerunWindow : List (Nat × Nat) := []
  away : List AwayReq := []
  heldReports : List HeldReport := []
  /-- Copy commands of saved tiles (R331; log 82). -/
  copyRest : List CopyRest := []
  /-- How many copy commands have been issued (R327). -/
  nextCopy : Nat := 0
  hostPending : List HostReq := []
  hostOut : List HostOut := []
  /-- Host launch queues at work (R415). -/
  hostQueues : List (Nat × HostStage) := []
  podPending : List PodReq := []
  podOut : List PodOut := []
  /-- Sweord ports that are down, and flit replays in a row at each port (R417). -/
  portsDown : List Nat := []
  /-- Module time at which a port went down (R419). -/
  downAt : List (Nat × Nat) := []
  flitReplays : List (Nat × Nat) := []
  /-- Modules that have left the pod because both of their ports were down (R419). -/
  podLeft : List Nat := []
  /-- Service cores whose host link is down (R409). -/
  hostDown : List Nat := []
  /-- Bytes that firmware writes have left in flash, by region x 2^32 + offset (R421; log 85). -/
  flash : List Host.Cell := []
  /-- The module is in recovery mode (R421). -/
  recovery : Bool := false
  /-- What the attestation report waits for (R422). -/
  attestHold : Option Park := none
  /-- Service received by each (VD, queue), in site-cycles (R25). -/
  service : List (Nat × Nat) := []
  /-- The measurements of the boot: of the booted slot, the blob and the ruling marker's sector 0 (R422). -/
  measured : List Nat := []
  /-- The module has booted (R421). -/
  booted : Bool := false
  /-- Microseconds of module time (R408). -/
  time : Word := 0
  /-- Which agent and thread issues in this step. -/
  cur : Nat × Nat := (65536, 0)
  /-- The two doublewords of a vector access of this step are performed apart: the schedule's choice (R172; log 3). -/
  split : Bool := false
  /-- Moves to come, before any free choice (log 3). -/
  agenda : List Move := []
  /-- How many free choices of a move have been made. -/
  choice : Nat := 0
  /-- How many free values have been taken. -/
  free : Nat := 0
deriving DecidableEq, Repr, Inhabited

/-- The machine right after reset. -/
def State.reset : State := {}

end Sys2Proof.Machine
end

