-- ==== Sys2Proof/Machine/Tables.lean ====
section
/-! DEFINITION. Small finite tables: sorted association lists and sorted sets of numbers. -/

namespace Sys2Proof.Machine

/-- The value at a key of an association list. -/
def Tab.get? {α : Type} : List (Nat × α) → Nat → Option α
  | [], _ => none
  | (k, v) :: t, n => if k = n then some v else Tab.get? t n

/-- Put a value at a key, keeping the keys rising. -/
def Tab.set {α : Type} : List (Nat × α) → Nat → α → List (Nat × α)
  | [], n, v => [(n, v)]
  | (k, w) :: t, n, v =>
    if n < k then (n, v) :: (k, w) :: t
    else if n = k then (n, v) :: t
    else (k, w) :: Tab.set t n v

/-- Drop a key. -/
def Tab.erase {α : Type} (l : List (Nat × α)) (n : Nat) : List (Nat × α) := l.filter fun p => p.1 != n

/-- Membership of a sorted set. -/
def NSet.mem (l : List Nat) (n : Nat) : Bool := l.contains n

/-- Add an element, keeping the order. -/
def NSet.insert : List Nat → Nat → List Nat
  | [], n => [n]
  | k :: t, n => if n < k then n :: k :: t else if n = k then k :: t else k :: NSet.insert t n

/-- Remove an element. -/
def NSet.erase (l : List Nat) (n : Nat) : List Nat := l.filter fun k => k != n

/-- Remove every element of `[lo, hi)`. -/
def NSet.eraseRange (l : List Nat) (lo hi : Nat) : List Nat := l.filter fun k => k < lo || hi ≤ k

/-- An element of a fixed-length register file, by a number of any size. -/
def vget {α : Type} {n : Nat} (v : Vector α n) (i : Nat) (d : α) : α := v[i]?.getD d

/-- Change an element of a fixed-length register file; no change outside its range. -/
def vset {α : Type} {n : Nat} (v : Vector α n) (i : Nat) (a : α) : Vector α n := v.setIfInBounds i a

/-- The first element that meets a test, with what stands before and after it. -/
def splitFirst {α : Type} (p : α → Bool) : List α → Option (List α × α × List α)
  | [] => none
  | a :: t => if p a then some ([], a, t) else (splitFirst p t).map fun r => (a :: r.1, r.2.1, r.2.2)

/-- Change every element that meets a test. -/
def mapIf {α : Type} (p : α → Bool) (f : α → α) (l : List α) : List α := l.map fun a => if p a then f a else a

end Sys2Proof.Machine
end

