-- ==== Sys2Proof/Machine/Memory.lean ====
section
/-! DEFINITION. Memory as one canonical list of cells, and the keys under which each memory of the machine stands. -/

namespace Sys2Proof.Machine

/-! ### Keys -/

/-- Rim memory: 24 stacks of 64 GiB (R10). -/
def rimBytes : Nat := 1649267441664
/-- First key of the vaults (R5). -/
def vaultBase : Nat := 2199023255552
/-- First key of tile-local memory: pads, tile registers, scale areas, accumulators (R139, R287). -/
def tileBase : Nat := 4398046511104
/-- First key of the module control registers (R412). -/
def mcrBase : Nat := 8796093022208

def rimKey (pa : Nat) : Nat := pa
def vaultKey (site off : Nat) : Nat := vaultBase + site * 1048576 + off
/-- Tile-local memory stands at the offsets of the tile image (R394). -/
def tileKey (agent off : Nat) : Nat := tileBase + agent * 65536 + off
def mcrKey (off : Nat) : Nat := mcrBase + off

/-- The regions a key can lie in. -/
inductive Region where
  | rim | vault (site : Nat) | tile (agent : Nat) | mcr
deriving DecidableEq, Repr, Inhabited

def regionOf (key : Nat) : Region :=
  if key < vaultBase then .rim
  else if key < tileBase then .vault ((key - vaultBase) / 1048576)
  else if key < mcrBase then .tile ((key - tileBase) / 65536)
  else .mcr

/-! ### Cells -/

/-- The byte at a key; an unlisted one reads 0 (log 6). -/
def Mem.read : List Host.Cell → Nat → Byte
  | [], _ => 0
  | (k, b) :: t, n => if k = n then b else Mem.read t n

/-- Write one byte, keeping the keys rising and no zero byte listed. -/
def Mem.write : List Host.Cell → Nat → Byte → List Host.Cell
  | [], n, b => if b = 0 then [] else [(n, b)]
  | (k, c) :: t, n, b =>
    if n < k then (if b = 0 then (k, c) :: t else (n, b) :: (k, c) :: t)
    else if n = k then (if b = 0 then t else (n, b) :: t)
    else (k, c) :: Mem.write t n b

/-- The little-endian value of `n` bytes from a key. -/
def Mem.readN (m : List Host.Cell) (k : Nat) : Nat → Nat
  | 0 => 0
  | n + 1 => (Mem.read m k).toNat + 256 * Mem.readN m (k + 1) n

/-- Write `n` bytes of a value from a key, low byte first. -/
def Mem.writeN (m : List Host.Cell) (k : Nat) : Nat → Nat → List Host.Cell
  | 0, _ => m
  | n + 1, v => Mem.writeN (Mem.write m k (BitVec.ofNat 8 v)) (k + 1) n (v / 256)

/-- Write bytes under a mask, bit i for byte i. -/
def Mem.writeMasked (m : List Host.Cell) (k : Nat) : Nat → Nat → Nat → List Host.Cell
  | 0, _, _ => m
  | n + 1, mask, v =>
    Mem.writeMasked (if mask % 2 = 1 then Mem.write m k (BitVec.ofNat 8 v) else m) (k + 1) n (mask / 2) (v / 256)

/-- Set a range of bytes to zero. -/
def Mem.clear (m : List Host.Cell) (lo n : Nat) : List Host.Cell := m.filter fun c => c.1 < lo || lo + n ≤ c.1

/-- The listed cells of a range, at keys counted from its start. -/
def Mem.slice (m : List Host.Cell) (lo n : Nat) : List Host.Cell :=
  (m.filter fun c => lo ≤ c.1 && c.1 < lo + n).map fun c => (c.1 - lo, c.2)

/-- Write listed cells from a key on. -/
def Mem.paste (m : List Host.Cell) (lo : Nat) (cells : List Host.Cell) : List Host.Cell :=
  cells.foldl (fun m c => Mem.write m (lo + c.1) c.2) m

/-- The canonical form: keys rise and no listed byte is zero. -/
def Mem.wf : List Host.Cell → Bool
  | [] => true
  | [(_, b)] => b != 0
  | (k, b) :: (k', b') :: t => b != 0 && decide (k < k') && Mem.wf ((k', b') :: t)

/-- The canonical form of memory, under the name that statements use. -/
abbrev Memory.wf (m : List Host.Cell) : Bool := Mem.wf m

namespace State

/-- `n` bytes at a key as a number. -/
def readN (s : State) (key n : Nat) : Nat := Mem.readN s.mem key n
/-- The doubleword at a key. -/
def read64 (s : State) (key : Nat) : Word := BitVec.ofNat 64 (s.readN key 8)
/-- Store `n` bytes and nothing else. -/
def pokeN (s : State) (key n v : Nat) : State := { s with mem := Mem.writeN s.mem key n v }

/-- A word's full bit (R139, R145). -/
def isFull (s : State) (wordKey : Nat) : Bool := NSet.mem s.full wordKey
def setFull (s : State) (wordKey : Nat) (b : Bool) : State :=
  { s with full := if b then NSet.insert s.full wordKey else NSet.erase s.full wordKey }
/-- Whether a doubleword is poisoned (R168). -/
def isPoisoned (s : State) (key : Nat) : Bool := NSet.mem s.poison (key / 8 * 8)
/-- Whether an access of `n` bytes at a key would deliver poison. -/
def poisonedIn (s : State) (key n : Nat) : Bool := s.isPoisoned key || (8 < n && s.isPoisoned (key + 8))

/-- Zero a range, with its full bits empty and its poison gone (R140, R159). -/
def zeroRange (s : State) (key n : Nat) : State :=
  { s with mem := Mem.clear s.mem key n, full := NSet.eraseRange s.full key (key + n),
           poison := NSet.eraseRange s.poison key (key + n) }

/-! ### Module control registers and the VD table (R412, R413) -/

/-- `n` bytes of the module control registers. -/
def mcrN (s : State) (off n : Nat) : Nat := s.readN (mcrKey off) n
def setMcrN (s : State) (off n v : Nat) : State := s.pokeN (mcrKey off) n v
/-- Offset of a field of a VD's entry. -/
def vdOff (vd off : Nat) : Nat := 0x10000 + 512 * vd + off
def vdN (s : State) (vd off n : Nat) : Nat := s.mcrN (vdOff vd off) n

def vdActive (s : State) (vd : Nat) : Bool := s.vdN vd 0 1 % 2 == 1
/-- A feature of the grant register (R423). -/
def feature (s : State) (bit : Nat) : Bool := s.mcrN 0x50 16 / 2 ^ bit % 2 == 1
/-- The fretless and replay bits read 0 where their features are not granted (R423). -/
def vdFretless (s : State) (vd : Nat) : Bool := s.feature 1 && s.vdN vd 0 1 / 2 % 2 == 1
def vdReplay (s : State) (vd : Nat) : Bool := s.feature 5 && s.vdN vd 0 1 / 4 % 2 == 1
def vdPbase (s : State) (vd : Nat) : Nat := s.vdN vd 2 2
def vdPlen (s : State) (vd : Nat) : Nat := s.vdN vd 4 2 + 1
def vdDirBase (s : State) (vd : Nat) : Nat := s.vdN vd 8 8
def vdDirLen (s : State) (vd : Nat) : Nat := s.vdN vd 16 4
def vdSupSpace (s : State) (vd : Nat) : Nat := s.vdN vd 20 2
/-- Out-of-range values are taken as the nearest legal one; 0 turns the watchdog off (R413). -/
def vdWatchdog (s : State) (vd : Nat) : Nat := let n := s.vdN vd 22 1; if n = 0 then 0 else max 20 (min 44 n)
/-- The quantum of a VD's gangs in microseconds: 0 selects 200 (R352, R413). -/
def vdQuantum (s : State) (vd : Nat) : Nat := let n := s.vdN vd 28 4; if n = 0 then 200 else max 10 (min 10000 n)
def vdTvec (s : State) (vd : Nat) : Word := BitVec.ofNat 64 (s.vdN vd 32 8) &&& ~~~1#64
def vdSupQueue (s : State) (vd : Nat) : Nat := s.vdN vd 40 8
def vdBudget (s : State) (vd : Nat) : Nat := s.vdN vd 48 4
def vdSwapBase (s : State) (vd : Nat) : Nat := s.vdN vd 56 8
def vdSwapSize (s : State) (vd : Nat) : Nat := s.vdN vd 64 8
/-- This module's number (R417). -/
def moduleNo (s : State) : Nat := s.mcrN 0x20 8 % 64
/-- The VD module software assigns to a service core (R388, R412). -/
def coreVd (s : State) (q : Nat) : Nat := s.mcrN (0x88 + q) 1

end State
end Sys2Proof.Machine
end

