-- ==== Sys2Proof/Machine/Access.lean ====
section
/-! DEFINITION. Named access to the pieces of the state: tiles, threads, sites, gangs; and what a write to memory does
besides the bytes it changes. -/

namespace Sys2Proof.Machine

/-! ### Hilbert order (R7) -/

/-- One digit of the Hilbert loop: the point, the digits left, the side (R7). -/
def hilbertXY : Nat → Nat → Nat → Nat → Nat → Nat × Nat
  | 0, _, _, x, y => (x, y)
  | n + 1, s, d, x, y =>
    let rx := d / 2 % 2
    let ry := (d ^^^ rx) % 2
    let p : Nat × Nat :=
      if ry = 0 then (if rx = 1 then (s - 1 - y, s - 1 - x) else (y, x)) else (x, y)
    hilbertXY n (2 * s) (d / 4) (p.1 + s * rx) (p.2 + s * ry)

/-- The coordinates of an index at an order (R7). -/
def siteXY (order d : Nat) : Nat × Nat := hilbertXY order 1 (d % 4 ^ order) 0 0

/-! ### The replacement tree (R130, R154) -/

/-- Set or clear one node of a tree. -/
def plruSet (t : BitVec 7) (node : Nat) (b : Bool) : BitVec 7 := if b then t ||| (1#7 <<< node) else t &&& ~~~(1#7 <<< node)

/-- A way is used: every node on its path points away from it. Node 0 is the root, 1 and 2 the pairs of quarters, 3 to 6 the
pairs of ways; a node that is set points to its upper half. -/
def plruTouch (t : BitVec 7) (w : Nat) : BitVec 7 :=
  let t := plruSet t 0 (w / 4 == 0)
  let t := plruSet t (1 + w / 4) (w / 2 % 2 == 0)
  plruSet t (3 + w / 2) (w % 2 == 0)

/-- The way a fill replaces among those of a mask: the tree's choice at each node, or the other half where that has none. -/
def plruVictim (t : BitVec 7) (mask : BitVec 8) : Nat :=
  let has (lo n : Nat) : Bool := mask.toNat / 2 ^ lo % 2 ^ n != 0
  let pick (node lo n : Nat) : Nat := if (t.getLsbD node && has (lo + n) n) || !has lo n then 1 else 0
  let a := pick 0 0 4
  let b := pick (1 + a) (4 * a) 2
  4 * a + 2 * b + pick (3 + 2 * a + b) (4 * a + 2 * b) 1

namespace State

/-! ### Agents -/

/-- Service cores have agent numbers from 65,536 on (R12). -/
def isCore (a : Nat) : Bool := 65536 ≤ a
def coreNo (a : Nat) : Nat := a - 65536

def tile (s : State) (a : Nat) : Tile := (Tab.get? s.tiles a).getD {}
def setTile (s : State) (a : Nat) (t : Tile) : State := { s with tiles := Tab.set s.tiles a t }
def modTile (s : State) (a : Nat) (f : Tile → Tile) : State := s.setTile a (f (s.tile a))
/-- A tile leaves its agent; what it held stays to be seen until the next one comes (DEDUCED, log 98). -/
def dropTile (s : State) (a : Nat) : State :=
  { s with tiles := Tab.erase s.tiles a, remains := match Tab.get? s.tiles a with
      | some t => Tab.set s.remains a t
      | none => s.remains }
/-- The tile of an agent, or what its last one has left there. -/
def lastTile (s : State) (a : Nat) : Tile := ((Tab.get? s.tiles a).or (Tab.get? s.remains a)).getD {}
def hasTile (s : State) (a : Nat) : Bool := (Tab.get? s.tiles a).isSome

def thread (s : State) (a t : Nat) : Thread := vget (s.tile a).threads t {}
def modThread (s : State) (a t : Nat) (f : Thread → Thread) : State :=
  s.modTile a fun x => { x with threads := vset x.threads t (f (vget x.threads t {})) }

def site (s : State) (a : Nat) : Site := (Tab.get? s.sites a).getD {}
def modSite (s : State) (a : Nat) (f : Site → Site) : State := { s with sites := Tab.set s.sites a (f (s.site a)) }
/-- The cycle count of an agent's site (R92). -/
def cyc (s : State) (a : Nat) : Word := (s.site a).cyc

/-- A site with the writes of MTS that count by its present cycle (R381). -/
def settleSite (x : Site) : Site :=
  x.later.foldl (fun x w => match w with
    | .div t v => if t.toNat ≤ x.cyc.toNat then { x with clkdiv := v } else { x with later := x.later ++ [w] }
    | .ecc t v =>
      if t.toNat ≤ x.cyc.toNat then { x with corr := v.extractLsb' 0 16, unc := v.extractLsb' 16 16, fetch := v.extractLsb' 32 16 }
      else { x with later := x.later ++ [w] }) { x with later := [] }
/-- The registers of a site as its threads read them. -/
def siteNow (s : State) (a : Nat) : Site := settleSite (s.site a)

/-- The thread that issues. -/
def me (s : State) : Thread := s.thread s.cur.1 s.cur.2
def modMe (s : State) (f : Thread → Thread) : State := s.modThread s.cur.1 s.cur.2 f
def myTile (s : State) : Tile := s.tile s.cur.1
def modMyTile (s : State) (f : Tile → Tile) : State := s.modTile s.cur.1 f

/-! ### Identity (R15, R100, R388) -/

def rankOf (v : BitVec 32) : Nat := (v.extractLsb' 0 16).toNat
def gangOf (v : BitVec 32) : Nat := (v.extractLsb' 16 16).toNat
/-- A tile's VD; a service core's is the one assigned to it (R388). -/
def vdOf (s : State) (a : Nat) : Nat := if isCore a then s.coreVd (coreNo a) else (s.tile a).vd
/-- The partition an agent acts in (R388). -/
def pbaseOf (s : State) (a : Nat) : Nat := if isCore a then 0 else s.vdPbase (s.vdOf a)
def plenOf (s : State) (a : Nat) : Nat := if isCore a then 65536 else s.vdPlen (s.vdOf a)

/-- The inner name of a grid: its handle and its VD (R336). -/
def gidOf (vd : Nat) (h : Word) : Word := h ||| (BitVec.ofNat 64 (vd % 256) <<< 54)
/-- The handle of a grid by its inner name. -/
def handleOf (gid : Word) : Word := gid &&& 0x003FFFFFFFFFFFFF#64
/-- The grid with an inner name, complete ones included. -/
def grid? (s : State) (h : Word) : Option Grid := s.grids.find? fun g => g.handle == h
/-- The completed grids of a VD, the one completed last at the head. -/
def completed (s : State) (vd : Nat) : List Grid := (s.grids.filter fun g => g.vd == vd && g.complete).reverse
/-- A grid as an issuer of a VD names it: none where the handle is unknown to the VD, as that of a grid older than the last 4,096
completed ones is (R336). -/
def lookupGrid (s : State) (vd : Nat) (h : Word) : Option Grid :=
  if h.extractLsb' 54 10 != 0#10 then none
  else (s.grid? (gidOf vd h)).filter fun g => !g.complete || ((s.completed vd).take 4096).any fun x => x.handle == g.handle
/-- A handle that another module's home dispatcher has given (R336). -/
def homedAway (s : State) (h : Word) : Bool := h.extractLsb' 54 10 == 0#10 && (h.extractLsb' 48 6).toNat != s.moduleNo
def modGrid (s : State) (h : Word) (f : Grid → Grid) : State := { s with grids := mapIf (fun g => g.handle == h) f s.grids }
/-- The gang of a grid that is placed or swapped out (a cruise re-run has its own mark). -/
def gang? (s : State) (h : Word) (i : Nat) : Option Gang := s.gangs.find? fun g => g.handle == h && g.index == i && g.mark == .original
def modGang (s : State) (h : Word) (i : Nat) (f : Gang → Gang) : State :=
  { s with gangs := mapIf (fun g => g.handle == h && g.index == i && g.mark == .original) f s.gangs }
/-- The gang record that a tile belongs to. -/
def gangOfTile (s : State) (a : Nat) : Option Gang :=
  let t := s.tile a
  s.gangs.find? fun g => g.handle == t.handle && g.index == gangOf t.vtn && g.mark == t.mark
def modGangOfTile (s : State) (a : Nat) (f : Gang → Gang) : State :=
  let t := s.tile a
  { s with gangs := mapIf (fun g => g.handle == t.handle && g.index == gangOf t.vtn && g.mark == t.mark) f s.gangs }
/-- Two tiles belong to the same run of a gang. -/
def sameRun (s : State) (a b : Nat) : Bool :=
  (s.tile a).handle == (s.tile b).handle && gangOf (s.tile a).vtn == gangOf (s.tile b).vtn && (s.tile a).mark == (s.tile b).mark
/-- The agent that holds a rank of the gang of a tile: none while its tile stands on no site. -/
def agentOfRank (s : State) (a r : Nat) : Option Nat :=
  if isCore a then (if r = 0 then some a else none)
  else ((s.gangOfTile a).bind fun g => g.sites[r]?).filter fun b => s.hasTile b && s.sameRun a b && rankOf (s.tile b).vtn == r

/-! ### What a write does at its home -/

/-- Read-watch entries that meet a test are freed: they stand in their slots, not valid, until another takes the slot (R228, R232). -/
def freeWatches (s : State) (p : Watch → Bool) : State :=
  { s with watches := s.watches.filter fun w => !p w, oldWatches := s.oldWatches ++ s.watches.filter p }

/-- A rollback is on its way to the thread of every read-watch entry that meets a test (R231). -/
def rollWhere (s : State) (p : Watch → Bool) : State :=
  (s.watches.filter p).foldl (fun s w => s.modThread w.agent w.thread fun t => { t with rollback := true }) s

/-- Mark the threads that watch one of the doublewords of a write (R231). -/
def rollWatchers (s : State) (key n : Nat) : State := s.rollWhere fun w => key / 8 * 8 ≤ w.key && w.key < key + n

/-- A store of whole doublewords clears their poison; a partial one leaves it (R168). -/
def unpoison (s : State) (key n : Nat) : State :=
  { s with poison := s.poison.filter fun d => !(key ≤ d && d + 8 ≤ key + n) }

/-- A store performed at its home: bytes, poison and read-watches (R168, R171, R231). -/
def store (s : State) (key n v : Nat) : State := ((s.pokeN key n v).unpoison key n).rollWatchers key n

/-- A store of the masked bytes of one doubleword (R233). -/
def storeMasked (s : State) (key : Nat) (mask : BitVec 8) (v : Word) : State :=
  let s := { s with mem := Mem.writeMasked s.mem key 8 mask.toNat v.toNat }
  (if mask == 0xFF#8 then s.unpoison key 8 else s).rollWatchers key 8

/-- Write a doubleword poisoned (R244, R321). -/
def storePoisoned (s : State) (key : Nat) (v : Word) : State :=
  let s := s.store key 8 v.toNat
  { s with poison := NSet.insert s.poison (key / 8 * 8) }

/-! ### Address fields (R136) -/

def tagOf (a : Word) : Nat := (a.extractLsb' 60 4).toNat
/-- A field of an address. -/
def fieldOf (a : Word) (lo n : Nat) : Nat := (a.extractLsb' lo n).toNat

/-! ### The digest (R363-R366) -/

/-- The term of one word for a lane (R364). -/
def digestTerm (lane addrWord mask : Nat) (v : BitVec 32) : BitVec 32 :=
  let a := BitVec.ofNat 64 addrWord
  let lo : BitVec 32 := a.extractLsb' 2 30 ++ BitVec.ofNat 2 lane
  let hi : BitVec 32 := a.extractLsb' 60 4 ++ (BitVec.ofNat 4 mask ^^^ 0xF#4) ++ a.extractLsb' 32 24
  peg (hi ++ lo) v

/-- Add the terms of one word. -/
def addTerm (d : Vector (BitVec 32) 4) (addrWord mask : Nat) (v : BitVec 32) : Vector (BitVec 32) 4 :=
  (List.range 4).foldl (fun d i => vset d i (vget d i 0 + digestTerm i addrWord mask v)) d

/-- The words of a write of `n` bytes of a value at an address: aligned address, byte mask, value (R364). -/
def digestWords (addr n v : Nat) : List (Nat × Nat × BitVec 32) :=
  let first := addr / 4 * 4
  (List.range ((addr + n + 3) / 4 - addr / 4)).map fun i =>
    let w := first + 4 * i
    let lo := max addr w
    let hi := min (addr + n) (w + 4)
    let mask := (2 ^ (hi - lo) - 1) * 2 ^ (lo - w)
    (w, mask, BitVec.ofNat 32 (v / 256 ^ (lo - addr) % 256 ^ (hi - lo) * 256 ^ (lo - w)))

/-- The address names the agent's own pad, in local or remote-pad form (R365). -/
def ownPad (s : State) (a : Nat) (addr : Word) : Bool :=
  tagOf addr == 0 || (tagOf addr == 1 && addr.extractLsb' 16 32 == (s.tile a).vtn)

/-- Add the terms of a counted store of an agent (R365); `cx` excludes it. -/
def digest (s : State) (a : Nat) (cx : Bool) (addr : Word) (n v : Nat) : State :=
  if cx || s.ownPad a addr then s
  else s.modTile a fun t => { t with digest := (digestWords addr.toNat n v).foldl (fun d w => addTerm d w.1 w.2.1 w.2.2) t.digest }

/-! ### The swap region (R335; log 11) -/

def alignUp (x n : Nat) : Nat := (x + n - 1) / n * n

/-- A block lies in the VD's swap region and meets no block in use. -/
def swapFits (s : State) (vd lo bytes : Nat) : Bool :=
  decide (s.vdSwapBase vd ≤ lo) && decide (lo + bytes ≤ s.vdSwapBase vd + s.vdSwapSize vd) && decide (lo + bytes ≤ rimBytes)
    && s.swap.all fun b => lo + bytes ≤ b.base || b.base + b.bytes ≤ lo

/-- Allocate a block: at a free place the allocator may choose, else behind the region's start or a block in use. -/
def allocSwap (s : State) (vd bytes : Nat) : Option (SwapBlock × State) :=
  let base := s.vdSwapBase vd
  let hint := base + Config.swapBlock s.swapCount bytes % max 1 (s.vdSwapSize vd)
  let places := (hint :: base :: s.swap.map fun b => b.base + b.bytes).map fun x => alignUp x 64
  match places.find? fun lo => s.swapFits vd lo bytes with
  | some lo => some (⟨vd, lo, bytes⟩, { s with swap := s.swap ++ [⟨vd, lo, bytes⟩], swapCount := s.swapCount + 1 })
  | none => none

def freeSwap (s : State) (b : Option SwapBlock) : State :=
  match b with
  | some b => { s with swap := s.swap.erase b }
  | none => s

/-! ### The overlay (R368) -/

/-- A re-run writes outside its own gang's pads into its overlay. -/
def shadows (s : State) (a key : Nat) : Bool :=
  (s.tile a).mark != .original && match regionOf key with
    | .tile _ => false
    | .rim | .vault _ | .mcr => true

def overlayOf (s : State) (a : Nat) : Overlay :=
  let t := s.tile a
  (s.overlays.find? fun o => o.handle == t.handle && o.gang == gangOf t.vtn && o.mark == t.mark).getD
    { handle := t.handle, gang := gangOf t.vtn, mark := t.mark }
def setOverlay (s : State) (o : Overlay) : State :=
  { s with overlays := o :: s.overlays.filter fun p => !(p.handle == o.handle && p.gang == o.gang && p.mark == o.mark) }

/-- Where an overlay keeps a byte. -/
def overlayHome (o : Overlay) (key : Nat) : Option Nat := (Tab.get? o.pages (key / 65536)).map fun b => rimKey (b.base + key % 65536)
/-- A byte that an overlay holds. -/
def overlayByte (s : State) (o : Overlay) (key : Nat) : Option Byte :=
  if o.held.contains key then (overlayHome o key).map (Mem.read s.mem) else none

/-- Pages that the overlays of a VD hold. -/
def overlayPages (s : State) (vd : Nat) : Nat := ((s.overlays.flatMap fun o => o.pages).filter fun p => p.2.vd == vd).length

/-- An overlay with the page of an address, if there is room and software's limit allows it (R368). -/
def overlayPage (s : State) (vd : Nat) (o : Overlay) (key : Nat) : Overlay × State :=
  if (Tab.get? o.pages (key / 65536)).isSome then (o, s)
  else match if s.overlayPages vd < Config.overlayPages vd then s.allocSwap vd 65536 else none with
    | some (b, s) => ({ o with pages := Tab.set o.pages (key / 65536) b }, s)
    | none => ({ o with full := true }, s)

/-- Write one byte into an agent's overlay. -/
def overlayWrite (s : State) (a key : Nat) (b : Byte) : State :=
  let r := s.overlayPage (s.tile a).vd (s.overlayOf a) key
  match overlayHome r.1 key with
  | some k => { r.2 with mem := Mem.write r.2.mem k b }.setOverlay { r.1 with held := NSet.insert r.1.held key }
  | none => r.2.setOverlay r.1

/-- `n` bytes as an agent reads them. -/
def viewN (s : State) (a key n : Nat) : Nat :=
  if s.shadows a key then
    let o := s.overlayOf a
    (List.range n).foldr (fun i r => ((s.overlayByte o (key + i)).getD (Mem.read s.mem (key + i))).toNat + 256 * r) 0
  else s.readN key n

/-- Mark a doubleword poisoned, or clean. -/
def setPoison (s : State) (key : Nat) (b : Bool) : State :=
  { s with poison := if b then NSet.insert s.poison (key / 8 * 8) else s.poison.filter fun d => d != key / 8 * 8 }

/-- The doublewords that a range of bytes touches. -/
def dwordsOf (key n : Nat) : List Nat := (List.range ((key + n + 7) / 8 - key / 8)).map fun i => (key / 8 + i) * 8

/-- The poison of a doubleword as an agent reads it: that of its overlay's copy, where the overlay holds any byte of it (R168, R368). -/
def poisonedDword (s : State) (a d : Nat) : Bool :=
  let o := s.overlayOf a
  if s.shadows a d && (List.range 8).any fun i => o.held.contains (d + i) then (overlayHome o d).any s.isPoisoned else s.isPoisoned d

/-- A read of an agent meets poison. -/
def poisonedAs (s : State) (a key n : Nat) : Bool := (dwordsOf key n).any (s.poisonedDword a)

/-- The overlay's copy of a doubleword is poisoned, or clean. -/
def overlayPoison (s : State) (a d : Nat) (b : Bool) : State :=
  match overlayHome (s.overlayOf a) d with
  | some k => s.setPoison k b
  | none => s

/-- A store of an agent at its home, or in its overlay, where a whole doubleword clears the poison as well (R168). -/
def storeAs (s : State) (a key n v : Nat) : State :=
  if s.shadows a key then
    let bad := fun d => s.poisonedDword a d && !(key ≤ d && d + 8 ≤ key + n)
    let s' := (List.range n).foldl (fun s i => s.overlayWrite a (key + i) (BitVec.ofNat 8 (v / 256 ^ i))) s
    ((dwordsOf key n).foldl (fun s d => s.overlayPoison a d (bad d)) s').rollWhere
      fun w => key / 8 * 8 ≤ w.key && w.key < key + n && s.sameRun w.agent a
  else s.store key n v

/-- A doubleword of an agent takes poison with the write of some of its bytes (R321). -/
def poisonAs (s : State) (a key : Nat) : State :=
  if s.shadows a key then s.overlayPoison a (key / 8 * 8) true else s.setPoison key true

/-- The overlay of a run is dropped with its pages. -/
def dropOverlay (s : State) (h : Word) (gang : Nat) (mark : RunMark) : State :=
  let mine (o : Overlay) : Bool := o.handle == h && o.gang == gang && o.mark == mark
  let blocks := (s.overlays.filter mine).flatMap fun o => o.pages.map fun p => p.2
  { s with overlays := s.overlays.filter fun o => !mine o, swap := s.swap.filter fun b => !blocks.contains b }

/-- A record for a supervisor, health or cruise report queue (R456). -/
def addRecord (s : State) (q : RecordQueue) (b : BitVec 256) : State := { s with records := s.records ++ [⟨q, b⟩] }

end State

/-- Little-endian assembly of a 32-byte record from (offset, bytes, value) fields. -/
def record256 (fields : List (Nat × Nat × Nat)) : BitVec 256 :=
  fields.foldl (fun r f => r ||| BitVec.ofNat 256 ((f.2.2 % 2 ^ (8 * f.2.1)) * 2 ^ (8 * f.1))) 0

/-! ### Loops (R124-R127) -/

/-- LDEPTH up by one, saturating (R126). -/
def depthUp (d : BitVec 16) : BitVec 16 := if d == 0xFFFF#16 then d else d + 1
/-- LDEPTH down by one, not below 0 (R126). -/
def depthDown (d : BitVec 16) : BitVec 16 := if d == 0#16 then d else d - 1

/-- Only entry 1 valid becomes only entry 0 valid (R124). -/
def Thread.packLoops (t : Thread) : Thread :=
  if !t.loop0.valid && t.loop1.valid then { t with loop0 := t.loop1, loop1 := {} } else t

/-- RET and ERET: LDEPTH down, and the entries deeper than it cleared (R126). A cleared entry, and one that has moved, is all zero: R126
names no more than its valid bit, and the rest shows only in the saved loop state (DESIGN CHOICE, log 69). -/
def Thread.loopReturn (t : Thread) : Thread :=
  let d := depthDown t.ldepth
  if t.ldepth == 0#16 then t
  else Thread.packLoops { t with
    ldepth := d
    loop0 := if t.loop0.valid && d.toNat < t.loop0.depth.toNat then {} else t.loop0
    loop1 := if t.loop1.valid && d.toNat < t.loop1.depth.toNat then {} else t.loop1 }

/-- What the loop step does at one entry: leave, loop back, or end the entry and test the outer one (R127). -/
inductive LoopTurn where
  | leave | back (count : Word) | finish
deriving DecidableEq, Repr, Inhabited

def LoopEntry.turn (e : LoopEntry) (depth : BitVec 16) (next : Word) (taken : Bool) : LoopTurn :=
  if e.depth != depth then .leave
  else if next == e.stop then (if 1 < e.count.toNat then .back (e.count - 1) else .finish)
  else if taken && (next.toNat < e.start.toNat || e.stop.toNat < next.toNat) then .finish
  else .leave

def Thread.setLoop0 (t : Thread) (e : LoopEntry) : Thread := { t with loop0 := e }
def Thread.setLoop1 (t : Thread) (e : LoopEntry) : Thread := { t with loop1 := e }

/-- The loop step at entry 0 (R127). -/
def Thread.loopStep0 (t : Thread) (next : Word) (taken : Bool) : Thread × Word :=
  if !t.loop0.valid then (t, next)
  else match t.loop0.turn t.ldepth next taken with
    | .leave => (t, next)
    | .back n => (t.setLoop0 { t.loop0 with count := n }, t.loop0.start)
    | .finish => (t.setLoop0 { t.loop0 with valid := false }, next)

/-- The loop step of R127: the thread with its entries changed, and the next PC. -/
def Thread.loopStep (t : Thread) (next : Word) (taken : Bool) : Thread × Word :=
  if !t.loop1.valid then t.loopStep0 next taken
  else match t.loop1.turn t.ldepth next taken with
    | .leave => (t, next)
    | .back n => (t.setLoop1 { t.loop1 with count := n }, t.loop1.start)
    | .finish => (t.setLoop1 { t.loop1 with valid := false }).loopStep0 next taken

/-- A thread at a PC, no longer parked, with nothing popped. -/
def Thread.goto (t : Thread) (next : Word) : Thread :=
  { t with pc := next, park := none, parkNext := 0, popped := [], held := [], claims := [] }

/-- An instruction completes: its next PC passes through the loop step, and the thread is no longer parked (R127). -/
def Thread.complete (t : Thread) (next : Word) (taken : Bool) : Thread :=
  let r := t.loopStep next taken
  r.1.goto r.2

/-- Supervisor mode, TST.SUP (R378). -/
def Thread.sup (t : Thread) : Bool := t.tst.getLsbD 0
/-- Inside a trap handler, TST.TEN. -/
def Thread.ten (t : Thread) : Bool := t.tst.getLsbD 2

end Sys2Proof.Machine
end

