-- ==== Sys2Proof/Machine/Operands.lean ====
section
/-! DEFINITION. Register operands: every number of R40 and R42 read and written, the waits of R98, the shared registers of
R101 and R102, links, inbox and stream handles; and the monad in which a meaning is written. -/

namespace Sys2Proof.Machine

/-- How an instruction ends other than by completing. -/
inductive Stop where
  /-- Park with nothing changed (R98). -/
  | park (p : Park)
  /-- Park with a request handed on, in a state of its own. -/
  | parkIn (p : Park) (s : State)
  /-- Trap with nothing changed (R60). -/
  | trap (cause : BitVec 8) (value : Word)
  /-- The instruction has ended in this state. -/
  | done (s : State)
  /-- The machine stops. -/
  | fault (f : Fault)

/-- A meaning in the making: state in, value and state out, or a stop. -/
abbrev Op (α : Type) := StateT State (Except Stop) α

namespace Op
def park {α : Type} (p : Park) : Op α := throw (.park p)
def trap {α : Type} (cause : BitVec 8) (value : Word) : Op α := throw (.trap cause value)
/-- Trap unless a condition holds. -/
def require (b : Bool) (cause : BitVec 8) (value : Word) : Op Unit := if b then pure () else trap cause value
/-- Park unless a condition holds. -/
def await (b : Bool) (p : Park) : Op Unit := if b then pure () else park p
end Op

/-! ### Streams (R312, R313) -/

namespace Stream
def base (h : Stream) : Nat := (h.cfg.extractLsb' 0 16).toNat
def eszCode (h : Stream) : Nat := (h.cfg.extractLsb' 16 3).toNat
/-- Element size in bytes. -/
def esz (h : Stream) : Nat := 2 ^ h.eszCode
def count (h : Stream) : Nat := (h.cfg.extractLsb' 20 16).toNat
def stride (h : Stream) : Nat := (h.cfg.extractLsb' 36 16).toNat
def filled (h : Stream) : Nat := (h.wr - h.rd).toNat
def room (h : Stream) : Nat := h.count - h.filled
/-- Pad offset of element i. -/
def slot (h : Stream) (i : BitVec 32) : Nat := h.base + (i.toNat % h.count) * h.stride
end Stream

/-! ### A copy command's shape (R320, R321) -/

namespace CopyCmd

/-- Element size of CPYG and CPYS. -/
def size (c : CopyCmd) : Nat := 2 ^ (c.esz.extractLsb' 0 2).toNat
def handle (c : CopyCmd) : Nat := (c.stream.extractLsb' 0 3).toNat
/-- The source, or the destination, is the handle; CPYZ has no source. -/
def fromHandle (c : CopyCmd) : Bool := c.stream.getLsbD 3 && c.kind != .cpyz
def toHandle (c : CopyCmd) : Bool := c.stream.getLsbD 4
def indexed (c : CopyCmd) : Bool := c.kind == .cpyg || c.kind == .cpys
def gathers (c : CopyCmd) : Bool := c.kind == .cpyg && !c.fromHandle
def scatters (c : CopyCmd) : Bool := c.kind == .cpys && !c.toHandle
/-- Bytes the command moves. -/
def bytes (c : CopyCmd) : Nat := if c.indexed then c.len.toNat * c.size else c.len.toNat
/-- It reads SRC, and writes DST, as addresses. -/
def readsMemory (c : CopyCmd) : Bool := c.kind != .cpyz && !c.fromHandle
def writesMemory (c : CopyCmd) : Bool := !c.toHandle

/-- The bytes of unit `u`: one pushed element of `h` bytes, one element of CPYS, or one destination doubleword. -/
def unitRange (c : CopyCmd) (h u : Nat) : Nat × Nat :=
  if c.toHandle then (u * h, min c.bytes (u * h + h))
  else if c.scatters then (u * c.size, u * c.size + c.size)
  else (8 * u - c.dst.toNat % 8, min c.bytes (8 * u + 8 - c.dst.toNat % 8))

/-- How many units the command has. -/
def unitCount (c : CopyCmd) (h : Nat) : Nat :=
  if c.bytes = 0 then 0
  else if c.toHandle then c.bytes / max 1 h
  else if c.scatters then c.len.toNat
  else (c.dst.toNat % 8 + c.bytes + 7) / 8

/-- Writes that keep their order: those of a stream leg, and those of CPYS (R321, R323). -/
def ordered (c : CopyCmd) : Bool := c.fromHandle || c.toHandle || c.scatters

/-- Bytes of the prefix of the command's work that is finished (R331). -/
def done (c : CopyCmd) (h : Nat) : Nat := if c.units = c.unitCount h then c.bytes else (c.unitRange h c.units).1

/-- The element in which the command's prefix is counted: of CPYG and CPYS, of a source handle, or of both the larger (R331). -/
def grain (c : CopyCmd) (h : Nat) : Nat := max (if c.indexed then c.size else 1) (if c.fromHandle then h else 1)

/-- The prefix in whole elements. -/
def whole (c : CopyCmd) (h : Nat) : Nat := c.done h / c.grain h * c.grain h

/-- The bytes of a unit that are still to be read; those of CPYZ come from nowhere. -/
def missing (c : CopyCmd) (h u : Nat) : List Nat :=
  let r := c.unitRange h u
  if c.kind == .cpyz then [] else ((List.range (r.2 - r.1)).map (r.1 + ·)).filter fun b => !c.latched.any fun x => x.at_ == b

/-- A byte as it is to be written, with its poison. -/
def byteAt (c : CopyCmd) (b : Nat) : CopyByte := (c.latched.find? fun x => x.at_ == b).getD ⟨b, 0, false⟩

/-- The bytes of the beat of a leg that an access of `n` bytes at an address belongs to: those of its 4 KiB that the prefix does not
cover; an indexed access is a beat of its own (R326). -/
def beatBytes (c : CopyCmd) (h : Nat) (write : Bool) (addr : Word) (n : Nat) : Nat :=
  let x := (if write then c.dst else c.src).toNat
  let page := addr.toNat / 4096
  if (if write then c.scatters else c.gathers) then n
  else min ((page + 1) * 4096) (x + c.bytes) - max (page * 4096) (x + c.done h)

/-- A descriptor's reserved bits are zero. -/
def reservedClear (c : CopyCmd) : Bool :=
  c.esz.extractLsb' 2 6 == 0#6 && c.stream.extractLsb' 5 3 == 0#3 && c.fin.extractLsb' 6 2 == 0#2 && c.resv == 0#8

end CopyCmd

/-! ### Small updates -/

namespace Tile
/-- The FIFO that LN pops loses its oldest word. -/
def popLn (t : Tile) : Tile := { t with ln := t.ln.tail }
/-- The FIFO that LP pops loses its oldest word. -/
def popLp (t : Tile) : Tile := { t with lp := t.lp.tail }
def popInbox (t : Tile) : Tile := { t with inbox := t.inbox.tail }
def setStream (t : Tile) (h : Nat) (x : Stream) : Tile := { t with streams := vset t.streams h x }
/-- A push of an issued instruction joins those on their way. -/
def addPush (t : Tile) (p : Push) : Tile := { t with pushes := t.pushes ++ [p] }
/-- Pushes on their way to a target. -/
def pending (t : Tile) (p : PushTo) : Nat := (t.pushes.filter fun x => x.to_ == p).length
/-- A change of a shared register joins those to come. -/
def addChange (t : Tile) (c : SharedChange) : Tile := { t with schange := t.schange ++ [c] }
end Tile

namespace Thread
def setG (t : Thread) (k : Nat) (v : Word) : Thread := { t with g := vset t.g k v }
def setV (t : Thread) (k : Nat) (v : VReg) : Thread := { t with v := vset t.v k v }
def setQ (t : Thread) (k : Nat) (v : BitVec 16) : Thread := { t with q := vset t.q k v }
/-- What its instruction has popped, and what it holds from an earlier issue. -/
def setPops (t : Thread) (popped held : List (RegNum × VReg)) : Thread := { t with popped := popped, held := held }
end Thread

/-! ### What a register number names (R40) -/

/-- The classes of general register numbers. -/
inductive RegClass where
  /-- g0, which reads zero and discards writes. -/
  | zero
  | general (k : Nat)
  | shared (k : Nat)
  | ln | lp | lnf | lpf
  | inbox
  | stream (h : Nat)
  | tid | vtn | rank | gsize | gidx
  /-- Numbers 45 to 47 and 61 to 63: they read zero. -/
  | none
deriving DecidableEq, Repr, Inhabited

/-- The class of a register number (R40). -/
def regClass (n : RegNum) : RegClass :=
  let k := n.toNat
  if k = 0 then .zero
  else if k < 32 then .general k
  else if k < 40 then .shared (k - 32)
  else if k < 48 then (match k with
    | 40 => .ln | 41 => .lp | 42 => .lnf | 43 => .lpf | 44 => .inbox | _ => .none)
  else if k < 56 then .stream (k - 48)
  else (match k with
    | 56 => .tid | 57 => .vtn | 58 => .rank | 59 => .gsize | 60 => .gidx | _ => .none)

/-- A handle number's handle. -/
def handleNo (n : RegNum) : Nat := n.toNat - 48

namespace State

/-! ### Shared registers (R101, R102) -/

/-- Insert a change behind those that count no later. -/
def insertChange (c : SharedChange) : List SharedChange → List SharedChange
  | [] => [c]
  | d :: t => if c.at_.toNat < d.at_.toNat then c :: d :: t else d :: insertChange c t

/-- Apply one change. -/
def applyChange (t : Tile) (c : SharedChange) : Tile :=
  match c.value with
  | some v => { t with s := vset t.s c.reg v, sfull := t.sfull ||| (1#8 <<< c.reg) }
  | none => { t with sfull := t.sfull &&& ~~~(1#8 <<< c.reg) }

/-- The tile with every change effective by a cycle applied, by cycle and then in issue order (R102). -/
def settleShared (t : Tile) (cyc : Word) : Tile :=
  let due := (t.schange.filter fun c => c.at_.toNat ≤ cyc.toNat).foldl (fun l c => insertChange c l) []
  due.foldl applyChange { t with schange := t.schange.filter fun c => cyc.toNat < c.at_.toNat }

/-- A shared register's value and full bit at an agent's present cycle. -/
def shared (s : State) (a n : Nat) : Word × Bool :=
  let t := settleShared (s.tile a) (s.cyc a)
  (vget t.s n 0, t.sfull.getLsbD n)

/-- The turns after which an access to a key is ready, without wait or contention: R146 and R162. -/
def homeTurns (s : State) (a key : Nat) : Nat :=
  let at_ (b : Nat) : Nat × Nat :=
    if isCore b then (match coreNo b with | 0 => (0, 64) | 1 => (0, 192) | 2 => (255, 192) | _ => (255, 64)) else siteXY 8 b
  let dist (x y : Nat) : Nat := max x y - min x y
  let extra := if isCore a then 1 else 0
  match regionOf key with
  | .tile b => if b = a then 1 else 1 + dist (at_ a).1 (at_ b).1 + dist (at_ a).2 (at_ b).2 + extra
  | .vault b =>
    let dx := dist (at_ a).1 (at_ b).1
    let dy := dist (at_ a).2 (at_ b).2
    (8 + 2 * (3 * (dx / 4 + dy / 4) + dx % 4 + dy % 4) + 3) / 4 + extra
  | .rim | .mcr => 1 + Config.openTurns (s.cyc a).toNat key

/-- A thread waits for its own change to count (R101). -/
def ownChange (s : State) (a th n : Nat) : Bool :=
  (s.tile a).schange.any fun c => c.reg == n && c.thread == th && (s.cyc a).toNat < c.at_.toNat

/-- A shared register is written: effective at t + 4L - 1 (R101); at once by what has no latency of its own, L = 0. -/
def writeShared (s : State) (a th n : Nat) (v : Word) (lat : Nat) : State :=
  s.modTile a fun t => t.addChange ⟨n, s.cyc a + BitVec.ofNat 64 (4 * lat - 1), some v, th⟩

/-! ### Links (R40, R248) -/

/-- The rank a link register's far end has: LN joins rank + 1, LP rank - 1. -/
def linkPeer (s : State) (a : Nat) (toward : Dir) : Option Nat :=
  let r := rankOf (s.tile a).vtn
  let n := (s.tile a).gsize.toNat
  match toward with
  | .up => if !isCore a && r + 1 < n then some (r + 1) else none
  | .down => if !isCore a && 0 < r then some (r - 1) else none

/-- Words that unfinished instructions of a tile have popped under the register numbers of a test: their places are not free while a
withdrawal may put them back (R170). -/
def inHand (s : State) (a : Nat) (p : RegNum → Bool) : Nat :=
  ((s.tile a).threads.toList.map fun t => ((t.popped ++ t.held).filter fun w => p w.1).length).sum

/-- Places of an inbox that are taken (R246). -/
def inboxUsed (s : State) (a : Nat) : Nat := (s.tile a).inbox.length + s.inHand a (·.toNat == 44)

/-- Words that stand in, or are on their way to, the FIFO of a rank that its LP (`fromBelow`) or LN pops, or may come back to it. -/
def linkLoad (s : State) (a r : Nat) (fromBelow : Bool) : Nat :=
  let t := s.tile a
  (s.links.filter fun l => l.handle == t.handle && l.gang == gangOf t.vtn + 65536 * t.mark.no && l.rank == r && l.fromBelow == fromBelow).length
    + match s.agentOfRank a r with
      | some b =>
        if fromBelow then (s.tile b).lp.length + s.inHand b (fun n => n == 41 || n == 43)
        else (s.tile b).ln.length + s.inHand b (fun n => n == 40 || n == 42)
      | none => 0

/-- The places a thread has reserved at pushing destinations: outstanding loads, and LAUNCHes whose handle is not back (R160, R338). -/
def places (t : Thread) (p : RegNum → Bool) : Nat :=
  (t.relaxed.filter fun r => !r.store && p r.dest).length + (t.launching.filter fun l => p l.1).length

/-- Places reserved on a tile, but for the one that a thread holds for the instruction it issues again (R160). -/
def reserved (s : State) (a th : Nat) (p : RegNum → Bool) : Nat :=
  ((s.tile a).threads.toList.map fun t => places t p).sum
    + (([0, 1, 2, 3].filter (· != th)).map fun u => ((s.thread a u).claims.filter p).length).sum

/-- Register numbers that push toward a neighbour. -/
def pushesTo (toward : Dir) (n : RegNum) : Bool :=
  match toward with
  | .up => n == 40 || n == 42
  | .down => n == 41 || n == 43

/-- Room for `n` pushes of a thread toward rank + 1 or rank - 1, beside those on their way and the places reserved (R40, R96, R160,
R248). -/
def linkRoom (s : State) (a : Nat) (toward : Dir) (n : Nat := 1) (th : Nat := 4) : Bool :=
  match s.linkPeer a toward with
  | some r => decide (s.linkLoad a r (toward == .up) + (s.tile a).pending (.link toward) + s.reserved a th (pushesTo toward) + n ≤ 64)
  | none => true

/-- A push: the word leaves for its rank; with no rank there it is discarded (R248). -/
def linkPush (s : State) (a : Nat) (toward : Dir) (w : Word) : State :=
  match s.linkPeer a toward with
  | some r => { s with links := s.links ++ [⟨(s.tile a).handle, gangOf (s.tile a).vtn + 65536 * (s.tile a).mark.no, r, toward == .up, w, false⟩] }
  | none => s

/-- A link transfer of another thread pops the FIFO that LN, or LP, pops (R304). -/
def linkPopHeld (s : State) (a th : Nat) (toward : Dir) : Bool :=
  match (s.tile a).xfer with
  | some j => j.thread != th && match j.kind with
    | .mldl .ln | .mldl .lnf => toward == .up
    | .mldl .lp | .mldl .lpf => toward == .down
    | .mpass _ | .mld | .mst | .mscl | .mrda | .mwra => false
  | none => false

/-- A link transfer of another thread pushes toward rank + 1, or rank - 1 (R304). -/
def linkPushHeld (s : State) (a th : Nat) (toward : Dir) : Bool :=
  match (s.tile a).xfer with
  | some j => j.thread != th && match j.kind with
    | .mldl .lnf => toward == .down
    | .mldl .lpf => toward == .up
    | .mpass d => d == toward
    | .mldl .ln | .mldl .lp | .mld | .mst | .mscl | .mrda | .mwra => false
  | none => false

/-! ### Whether operands are ready (R93, R98) -/

/-- A general or shared register whose relaxed load or LAUNCH handle is outstanding (R161, R338). -/
def gBusy (t : Thread) (n : RegNum) : Bool :=
  n != 0 && ((t.relaxed.any fun r => !r.store && !r.vector && r.dest == n) || (t.launching.any fun l => l.1 == n))
def vBusy (t : Thread) (n : RegNum) : Bool := t.relaxed.any fun r => !r.store && r.vector && r.dest == n

/-- The trap of an operand at the end of a chain, or on an invalid handle (R248, R313). -/
def operandFault (s : State) (a : Nat) (o : OpRef) : Option (BitVec 8 × Word) :=
  let up : Option (BitVec 8 × Word) := if (s.linkPeer a .up).isNone then some (0x03, 40) else none
  let down : Option (BitVec 8 × Word) := if (s.linkPeer a .down).isNone then some (0x03, 41) else none
  let stream (h : Nat) : Option (BitVec 8 × Word) :=
    if !(vget (s.tile a).streams h {}).valid then some (0x0C, BitVec.ofNat 64 (48 + h)) else none
  match o with
  | .g n => match regClass n with
    | .ln | .lnf => up
    | .lp | .lpf => down
    | .stream h => stream h
    | .zero | .general _ | .shared _ | .inbox | .tid | .vtn | .rank | .gsize | .gidx | .none => Option.none
  | .v n => if isHandle n then stream (handleNo n) else none

/-- How many of a list name a number (R41). -/
def uses (l : List OpRef) (n : Nat) : Nat := (l.filter fun o => match o with | .g m => m.toNat == n | .v m => 48 ≤ n && m.toNat == n).length

/-- A stream has the elements that an instruction pops from it, and no command pops it (R313, R315). -/
def canPop (s : State) (a : Nat) (all : List OpRef) (h : Nat) : Bool :=
  let x := vget (s.tile a).streams h {}
  decide (uses all (48 + h) ≤ x.filled) && !x.ccl

/-- Elements that running copy commands have popped from a stream and not wholly written: a save puts them back (R331). -/
def copyHand (s : State) (a h : Nat) : Nat :=
  let esz := (vget (s.tile a).streams h {}).esz
  ((s.tile a).copies.toList.map fun c => match c with
    | some c => if c.phase == .running && c.fromHandle && c.handle == h then (c.got - c.whole esz) / esz else 0
    | none => 0).sum

/-- Slots of a stream that nothing holds or awaits: pushes on their way, places reserved, elements that may come back. -/
def freeSlots (s : State) (a th h : Nat) : Nat :=
  (vget (s.tile a).streams h {}).room - ((s.tile a).pending (.stream h) + s.reserved a th (·.toNat == 48 + h) + s.inHand a (·.toNat == 48 + h) + s.copyHand a h)

/-- A stream has a free slot for one push, and no command pushes it (R98, R313, R315). -/
def canPush (s : State) (a th h : Nat) : Bool := decide (1 ≤ s.freeSlots a th h) && !(vget (s.tile a).streams h {}).pcl

/-- How many words the reads of an instruction send on from one FIFO: LNF, or LPF, sends on a word that has not been sent (R40). -/
def sendsOn (plain fwd : Nat) : List OpRef → List FifoWord → Nat
  | [], _ => 0
  | .v _ :: t, l => sendsOn plain fwd t l
  | .g n :: t, l =>
    if n.toNat = plain then sendsOn plain fwd t l.tail
    else if n.toNat = fwd then (if (l.headD default).sent then 0 else 1) + sendsOn plain fwd t l.tail
    else sendsOn plain fwd t l

/-- How many words an instruction pushes toward a neighbour: by its destinations and by the words it sends on. -/
def pushCount (s : State) (a : Nat) (toward : Dir) (reads dests : List OpRef) : Nat :=
  match toward with
  | .up => sendsOn 41 43 reads (s.tile a).lp + uses dests 40 + uses dests 42
  | .down => sendsOn 40 42 reads (s.tile a).ln + uses dests 41 + uses dests 43

/-- The link toward a neighbour can take every push of an instruction (R98, R248, R304). -/
def canSend (s : State) (a th : Nat) (toward : Dir) (reads dests : List OpRef) : Bool :=
  let n := s.pushCount a toward reads dests
  n == 0 || (s.linkRoom a toward n th && !s.linkPushHeld a th toward)

/-- One source can be read, given all sources of its instruction (R98). -/
def canRead (s : State) (a th : Nat) (all : List OpRef) : OpRef → Bool
  | .v n => if isHandle n then s.canPop a all (handleNo n) else !vBusy (s.thread a th) n
  | .g n =>
    let t := s.tile a
    let up := decide (uses all 40 + uses all 42 ≤ t.ln.length) && !s.linkPopHeld a th .up
    let down := decide (uses all 41 + uses all 43 ≤ t.lp.length) && !s.linkPopHeld a th .down
    match regClass n with
    | .zero | .general _ => !gBusy (s.thread a th) n
    | .shared r => (s.shared a r).2 && !s.ownChange a th r && !gBusy (s.thread a th) n
    | .ln | .lnf => up
    | .lp | .lpf => down
    | .inbox => decide (uses all 44 ≤ t.inbox.length)
    | .stream h => s.canPop a all h
    | .tid | .vtn | .rank | .gsize | .gidx | .none => true

/-- A destination can accept its write (R98); the links are asked for all pushes of an instruction together, in `canSend`. -/
def canWrite (s : State) (a th : Nat) : OpRef → Bool
  | .v n => if isHandle n then s.canPush a th (handleNo n) else !vBusy (s.thread a th) n
  | .g n => match regClass n with
    | .zero | .general _ => !gBusy (s.thread a th) n
    | .shared _ => (s.thread a th).relaxed.isEmpty && !gBusy (s.thread a th) n
    | .stream h => s.canPush a th h
    | .ln | .lnf | .lp | .lpf | .inbox | .tid | .vtn | .rank | .gsize | .gidx | .none => true

/-- Every operand of an instruction can be taken at once (R98). -/
def operandsReady (s : State) (a th : Nat) (reads dests : List OpRef) : Bool :=
  reads.all (s.canRead a th reads) && dests.all (s.canWrite a th)
    && s.canSend a th .up reads dests && s.canSend a th .down reads dests

/-- Whether the operands of an instruction stop it: ready, a wait, or a trap. -/
inductive Readiness where
  | ready
  | wait
  | bad (cause : BitVec 8) (value : Word)
deriving DecidableEq, Repr, Inhabited

/-- An operand names a stream handle. -/
def namesHandle : OpRef → Bool
  | .g n => match regClass n with
    | .stream _ => true
    | _ => false
  | .v n => isHandle n

/-- The traps of the operands in field order, where a handle that cannot be popped or pushed yet comes before the traps behind it
(R41, R313). A destination is marked. -/
def scanOperands (s : State) (a th : Nat) (reads : List OpRef) : List (Bool × OpRef) → Readiness
  | [] => .ready
  | o :: t => match s.operandFault a o.2 with
    | some f => .bad f.1 f.2
    | none =>
      if namesHandle o.2 && !(if o.1 then s.canWrite a th o.2 else s.canRead a th reads o.2) then .wait else scanOperands s a th reads t

/-- What the operands of an instruction come to (R41, R98, R105, R313). -/
def readiness (s : State) (a th : Nat) (reads dests : List OpRef) : Readiness :=
  match s.scanOperands a th reads (reads.map (false, ·) ++ dests.map (true, ·)) with
  | .ready => if s.operandsReady a th reads dests then .ready else .wait
  | r => r

/-! ### Taking and writing -/

/-- Pop the oldest element of a stream: its bytes as a number, zero-extended (R313). The poison of its doubleword raises nothing: the rule
names no trap but 0x0C (DESIGN CHOICE, log 95). -/
def streamPop (s : State) (a h : Nat) : Nat × State :=
  let st := vget (s.tile a).streams h {}
  (s.readN (tileKey a (st.slot st.rd)) st.esz,
   s.modTile a fun t => t.setStream h { st with rd := st.rd + 1 })

/-- Push an element (R313). A push whose handle has become invalid on its way is lost (log 68). -/
def streamPush (s : State) (a h v : Nat) : State :=
  let st := vget (s.tile a).streams h {}
  if st.valid then
    (s.store (tileKey a (st.slot st.wr)) st.esz v).modTile a fun t => t.setStream h { st with wr := st.wr + 1 }
  else s

/-- Perform a push. -/
def performPush (s : State) (a : Nat) (p : Push) : State :=
  match p.to_ with
  | .link d => s.linkPush a d (p.value.setWidth 64)
  | .stream h => s.streamPush a h p.value.toNat

/-- Insert a push behind those that are performed no later. -/
def insertPush (p : Push) : List Push → List Push
  | [] => [p]
  | q :: t => if p.at_.toNat < q.at_.toNat then p :: q :: t else q :: insertPush p t

/-- Perform the pushes of a tile that are due by a cycle, by cycle and then in issue order (R96). -/
def settlePushes (s : State) (a : Nat) (cyc : Word) : State :=
  let due := ((s.tile a).pushes.filter fun p => p.at_.toNat ≤ cyc.toNat).foldl (fun l p => insertPush p l) []
  due.foldl (fun s p => s.performPush a p) (s.modTile a fun t => { t with pushes := t.pushes.filter fun p => cyc.toNat < p.at_.toNat })

/-- A push by an instruction of a latency: performed at t + 4L - 3 (R96); at once by what has no latency of its own, L = 0. -/
def pushLater (s : State) (a th : Nat) (to_ : PushTo) (v : VReg) (lat : Nat) : State :=
  let p : Push := { to_ := to_, value := v, at_ := s.cyc a + BitVec.ofNat 64 (4 * lat - 3), thread := th }
  if lat = 0 then s.performPush a p else s.modTile a fun t => t.addPush p

/-- Pop the FIFO that LN pops; LNF sends the word on toward rank - 1, once (R40, R170, R248). -/
def popUp (s : State) (a : Nat) (forward : Bool) : Word × State :=
  let w := (s.tile a).ln.headD default
  let s := s.modTile a Tile.popLn
  (w.word, if forward && !w.sent then s.linkPush a .down w.word else s)

/-- Pop the FIFO that LP pops; LPF sends the word on toward rank + 1, once. -/
def popDown (s : State) (a : Nat) (forward : Bool) : Word × State :=
  let w := (s.tile a).lp.headD default
  let s := s.modTile a Tile.popLp
  (w.word, if forward && !w.sent then s.linkPush a .up w.word else s)

/-- The name under which a popped word stands with its instruction: LNF or LPF for a word that has been sent on (R170). -/
def popName (s : State) (a : Nat) (n : RegNum) : RegNum :=
  match regClass n with
  | .ln => if ((s.tile a).ln.headD default).sent then 42 else 40
  | .lp => if ((s.tile a).lp.headD default).sent then 43 else 41
  | .lnf | .lpf | .inbox | .stream _ | .zero | .general _ | .shared _ | .tid | .vtn | .rank | .gsize | .gidx | .none => n

/-- Read a general operand that is ready, with its pops (R40, R100). -/
def readG (s : State) (a th : Nat) (n : RegNum) : Word × State :=
  match regClass n with
  | .zero | .none => (0, s)
  | .general k => (vget (s.thread a th).g k 0, s)
  | .shared r => ((s.shared a r).1, s)
  | .ln => s.popUp a false
  | .lnf => s.popUp a true
  | .lp => s.popDown a false
  | .lpf => s.popDown a true
  | .inbox => ((s.tile a).inbox.headD 0, s.modTile a Tile.popInbox)
  | .stream h => let r := s.streamPop a h; (BitVec.ofNat 64 r.1, r.2)
  | .tid => (BitVec.ofNat 64 th, s)
  | .vtn => ((s.tile a).vtn.setWidth 64, s)
  | .rank => (BitVec.ofNat 64 (rankOf (s.tile a).vtn), s)
  | .gsize => ((s.tile a).gsize.setWidth 64, s)
  | .gidx => (BitVec.ofNat 64 (gangOf (s.tile a).vtn), s)

/-- Read a vector operand that is ready (R42, R269). -/
def readV (s : State) (a th : Nat) (n : RegNum) : VReg × State :=
  if n.toNat < 32 then (vget (s.thread a th).v n.toNat 0, s)
  else if isHandle n then let r := s.streamPop a (handleNo n); (BitVec.ofNat 128 r.1, r.2)
  else (0, s)

/-- Write a general destination of an instruction of a latency (R40, R96, R101). -/
def writeG (s : State) (a th : Nat) (n : RegNum) (v : Word) (lat : Nat := 1) : State :=
  match regClass n with
  | .general k => s.modThread a th fun t => t.setG k v
  | .shared r => s.writeShared a th r v lat
  | .ln | .lnf => s.pushLater a th (.link .up) (v.setWidth 128) lat
  | .lp | .lpf => s.pushLater a th (.link .down) (v.setWidth 128) lat
  | .stream h => s.pushLater a th (.stream h) (v.setWidth 128) lat
  | .zero | .inbox | .tid | .vtn | .rank | .gsize | .gidx | .none => s

/-- Write a vector destination of an instruction of a latency (R42, R96, R269). -/
def writeV (s : State) (a th : Nat) (n : RegNum) (v : VReg) (lat : Nat := 1) : State :=
  if n.toNat < 32 then s.modThread a th fun t => t.setV n.toNat v
  else if isHandle n then s.pushLater a th (.stream (handleNo n)) v lat
  else s

/-- A predicate register: q0 is all ones; the control thread's others read zero (R116). -/
def readQ (s : State) (a th : Nat) (n : Nat) : BitVec 16 :=
  if n = 0 then 0xFFFF#16 else if th = 0 then 0 else vget (s.thread a th).q n 0

def writeQ (s : State) (a th : Nat) (n : Nat) (v : BitVec 16) : State :=
  if n = 0 || th = 0 then s else s.modThread a th fun t => t.setQ n v

end State

/-! ### The same for the issuing thread -/

namespace Op

/-- A register whose use waits while the thread speculates (R104). -/
def heldInSpec : OpRef → Bool
  | .g n => 32 ≤ n.toNat && n.toNat < 56
  | .v n => isHandle n

/-- A register number whose read pops: links, inbox and stream handles (R40). -/
def pops (n : RegNum) : Bool :=
  match regClass n with
  | .ln | .lp | .lnf | .lpf | .inbox | .stream _ => true
  | .zero | .general _ | .shared _ | .tid | .vtn | .rank | .gsize | .gidx | .none => false

/-- A source that pops. -/
def popsRef : OpRef → Bool
  | .g n => pops n
  | .v n => isHandle n

/-- The sources that an instruction has still to take: what one that issues again has popped already is in its hands. -/
def toTake (t : Thread) (reads : List OpRef) : List OpRef :=
  if t.popped.isEmpty && t.held.isEmpty then reads else reads.filter fun o => !popsRef o

/-- Check every operand of an instruction before any is taken: the hold of speculation, the faults, the waits (R98, R104, R313). -/
def need (reads dests : List OpRef) : Op Unit := do
  let s ← get
  if s.me.spec.isSome && (reads ++ dests).any heldInSpec then park .speculating
  match s.readiness s.cur.1 s.cur.2 (toTake s.me reads) dests with
  | .ready => pure ()
  | .wait => park (.operands reads dests)
  | .bad cause v => trap cause v

/-- Take a popping source: what the instruction holds from its earlier issue, or the queue's oldest word. -/
def take (n : RegNum) (pop : State → VReg × State) : Op VReg := do
  let s ← get
  match s.me.held with
  | p :: rest => do
    set (s.modMe fun t => t.setPops (t.popped ++ [p]) rest)
    pure p.2
  | [] => do
    let r := pop s
    set (r.2.modMe fun t => t.setPops (t.popped ++ [(s.popName s.cur.1 n, r.1)]) t.held)
    pure r.1

def readG (n : RegNum) : Op Word := do
  if pops n then do
    let v ← take n fun s => let r := s.readG s.cur.1 s.cur.2 n; (r.1.setWidth 128, r.2)
    pure (v.setWidth 64)
  else do
    let s ← get
    pure (s.readG s.cur.1 s.cur.2 n).1

def readV (n : RegNum) : Op VReg := do
  if isHandle n then take n fun s => s.readV s.cur.1 s.cur.2 n
  else do
    let s ← get
    pure (s.readV s.cur.1 s.cur.2 n).1

def writeG (n : RegNum) (v : Word) (lat : Nat := 1) : Op Unit := modify fun s => s.writeG s.cur.1 s.cur.2 n v lat
def writeV (n : RegNum) (v : VReg) (lat : Nat := 1) : Op Unit := modify fun s => s.writeV s.cur.1 s.cur.2 n v lat
def readQ (n : BitVec 3) : Op (BitVec 16) := do let s ← get; pure (s.readQ s.cur.1 s.cur.2 n.toNat)
def writeQ (n : BitVec 3) (v : BitVec 16) : Op Unit := modify fun s => s.writeQ s.cur.1 s.cur.2 n.toNat v

end Op
end Sys2Proof.Machine
end

