-- ==== Sys2Proof/Machine/Flags.lean ====
section
/-! DEFINITION. The floating-point flags and rounding state of a thread: FST, FCTL, SRKEY and SRCNT (R69, R70, R74-R84). -/

namespace Sys2Proof.Machine

/-- FCTL.RM; never 0, since a write of 0 stores 1 (R74). -/
def Thread.rm (t : Thread) : Nat := (t.fctl.extractLsb' 0 3).toNat
/-- FCTL.SAT (R74). -/
def Thread.sat (t : Thread) : Bool := t.fctl.getLsbD 3

namespace State

/-- OR flags into a compute thread's FST; the control thread has none (R69, R76). -/
def raise (s : State) (a th : Nat) (fl : BitVec 5) : State :=
  if th = 0 then s else s.modThread a th fun t => { t with fst := t.fst ||| fl }

/-- The effective rounding code of an instruction: its MOD round, or FCTL.RM (R70, R270). -/
def roundCode (s : State) (c : Chain) : Nat := if c.round == 0#3 then s.me.rm else c.round.toNat

/-- An instruction executed with code 6 steps SRCNT (R82). -/
def stepSrcnt (s : State) (code : Nat) : State := if code = 6 then s.modMe fun t => { t with srcnt := t.srcnt + 1 } else s

/-- The stochastic draw of a lane for the issuing thread (R80). -/
def draw (s : State) (lane : Nat) : Nat :=
  let v := s.myTile.vtn
  srDraw s.me.srkey s.me.srcnt (rankOf v) (gangOf v) s.cur.2 lane

end State

/-- Write FCTL: a rounding mode of 0 stores 1 (R74). -/
def fctlOf (w : Word) : BitVec 4 := if (w.extractLsb' 0 3) == 0#3 then w.setWidth 4 ||| 1 else w.setWidth 4
/-- Write FST (R75). -/
def fstOf (w : Word) : BitVec 5 := w.setWidth 5

end Sys2Proof.Machine
end

