-- ==== Sys2Proof/Machine/Groups.lean ====
section
/-! DEFINITION. Barrier groups: who belongs to one, and when it completes (R215, R216, R219, R220, R224). -/

namespace Sys2Proof.Machine

namespace State

/-! ### Configurations (R215) -/

def barMask (c : BitVec 16) : BitVec 4 := c.extractLsb' 0 4
def barMember (c : BitVec 16) : Bool := c.getLsbD 4
/-- Level of an identifier: 8 for identifier 0, and for values 9 to 15. -/
def barLevel (b : Nat) (c : BitVec 16) : Nat := if b = 0 then 8 else min 8 (c.extractLsb' 8 4).toNat
/-- A configuration as written: reserved bits cleared (R221). -/
def barWritten (w : Word) : BitVec 16 := w.setWidth 16 &&& 0x0F1F#16

/-- The name of an agent's gang in events and groups. -/
def gangKey (s : State) (a : Nat) : Word × Nat :=
  let t := s.tile a
  if isCore a then (0, coreNo a) else (t.handle, gangOf t.vtn + 65536 * t.mark.no)

/-- The tiles of an agent's gang that stand on sites; a service core is a gang of one (R215). -/
def gangAgents (s : State) (a : Nat) : List Nat :=
  if isCore a then [a] else match s.gangOfTile a with
    | some g => (g.sites.filter fun b => s.hasTile b && s.sameRun a b).eraseDups
    | none => [a]

/-- The group of a tile for an identifier (R215). -/
def groupOf (s : State) (a b : Nat) : BarGroup :=
  let t := s.tile a
  let k := barLevel b (vget t.barCfg b 0)
  { handle := (s.gangKey a).1, gang := (s.gangKey a).2, ident := b, level := k,
    index := (if isCore a then 0 else rankOf t.vtn) / 4 ^ k }

/-- The member tiles of a group, by rank. -/
def membersOf (s : State) (a b : Nat) : List Nat :=
  (s.gangAgents a).filter fun x => barMember (vget (s.tile x).barCfg b 0) && s.groupOf x b == s.groupOf a b

/-- A thread takes part in its tile's group (R216). -/
def participates (s : State) (a th b : Nat) : Bool :=
  let c := vget (s.tile a).barCfg b 0
  barMember c && (barMask c).getLsbD th && (s.thread a th).live

def hasArrived (s : State) (a th b : Nat) : Bool := (vget (s.tile a).arrived b 0).getLsbD th

/-- Every participant of a tile has arrived; the arrivals of a tile that is stopped, or loaded and not yet running, are withdrawn
(R235). -/
def tileArrived (s : State) (b x : Nat) : Bool :=
  let away := (s.site x).state == .stopped || (s.site x).state == .loaded || (s.site x).atRest
  [0, 1, 2, 3].all fun th => !s.participates x th b || (s.hasArrived x th b && !away)

/-- The group of a saved rank for an identifier. -/
def savedGroup (s : State) (a b : Nat) (r : SavedRank) : BarGroup :=
  let k := barLevel b (vget r.cfg b 0)
  { handle := (s.gangKey a).1, gang := (s.gangKey a).2, ident := b, level := k, index := r.rank / 4 ^ k }

/-- Ranks of an agent's gang whose saved tiles stand on no site and are members of its group (R235). -/
def savedMembers (s : State) (a b : Nat) : List SavedRank :=
  match s.gangOfTile a with
  | some g => if isCore a then [] else g.saved.filter fun r => barMember (vget r.cfg b 0) && s.savedGroup a b r == s.groupOf a b
  | none => []

/-- A saved rank has a participant, none of which has arrived. -/
def savedHolds (b : Nat) (r : SavedRank) : Bool := barMask (vget r.cfg b 0) &&& r.live != 0#4

/-- Decide the completion of a tile's group where its last participant has arrived; nothing later can undo it (R219, R220). -/
def decideGroup (s : State) (a b : Nat) : State :=
  let g := s.groupOf a b
  let ms := s.membersOf a b
  if !(s.decided.any fun d => d.group == g) && ms.all (s.tileArrived b) && !(s.savedMembers a b).any (savedHolds b)
      && ms.any (fun x => vget (s.tile x).arrived b 0 != 0)
  then { s with decided := s.decided ++ [{ group := g, members := ms.map fun x => (x, vget (s.tile x).arrived b 0) }] }
  else s

/-- Completions of a run that is gone are dropped: no tile of it stands on a site (R344, R386). -/
def dropDecided (s : State) (h : Word) (gang : Nat) : State :=
  { s with decided := s.decided.filter fun d => !(d.group.handle == h && d.group.gang == gang) }

/-- Evaluate the four groups of a tile, after a thread of it has halted (R220). -/
def decideTile (s : State) (a : Nat) : State := [0, 1, 2, 3].foldl (fun s b => s.decideGroup a b) s

/-- The completion of a thread's barrier is decided (R220, R460). -/
def isDecided (s : State) (a th b : Nat) : Bool :=
  s.decided.any fun d => d.group.ident == b && d.members.any fun m => m.1 == a && m.2.getLsbD th

end State

/-! ### The combination (R223, R224) -/

/-- One step of a combination; the flags of both sides are kept. -/
def barrStep (op : BarrOp) (x y : Word × BitVec 5) : Word × BitVec 5 :=
  let fl := x.2 ||| y.2
  let a := x.1
  let b := y.1
  match op with
  | .add => (a + b, fl)
  | .min => (if BitVec.slt b a then b else a, fl)
  | .max => (if BitVec.slt a b then b else a, fl)
  | .minu => (if b.toNat < a.toNat then b else a, fl)
  | .maxu => (if a.toNat < b.toNat then b else a, fl)
  | .fadd => let r := Fp.fp64.addBits 1 0 a.toNat b.toNat; (BitVec.ofNat 64 r.1, fl ||| r.2)
  | .fmax => let r := Fp.fp64.fmax a.toNat b.toNat; (BitVec.ofNat 64 r.1, fl ||| r.2)

/-- Combine where both sides have a contributor; else the one there is goes on unchanged, a NaN with its payload too and without NV:
R224 states it, where R67 and R68 would have a canonical NaN (DEDUCED, log 70). -/
def barrJoin (op : BarrOp) : Option (Word × BitVec 5) → Option (Word × BitVec 5) → Option (Word × BitVec 5)
  | none, y => y
  | x, none => x
  | some x, some y => some (barrStep op x y)

/-- The tree of R224 over (rank, value) pairs of one node, in rank and thread order. -/
def barrNode (op : BarrOp) : Nat → List (Nat × Word) → Option (Word × BitVec 5)
  | 0, l => l.foldl (fun r p => barrJoin op r (some (p.2, 0))) none
  | k + 1, l =>
    if l.isEmpty then none
    else
      let part (j : Nat) := barrNode op k (l.filter fun p => p.1 / 4 ^ k % 4 == j)
      barrJoin op (barrJoin op (part 0) (part 1)) (barrJoin op (part 2) (part 3))

end Sys2Proof.Machine
end

