-- ==== Sys2Proof/Machine/Ops.lean ====
section
/-! DEFINITION. The shared operations: the banks' lists and queues, taking an exception and returning from one, ending a
thread or a gang, and issuing an instruction. -/

namespace Sys2Proof.Machine

/-- The atomics whose digest term is their operand, not the value stored (R365). -/
def AtomOp.counts : AtomOp → Bool
  | .add | .and | .or | .xor | .min | .max | .minu | .maxu => true
  | .swap | .cas | .fadd | .faddo => false

namespace State

/-! ### Banks (R10, R139, R145, R200) -/

/-- The station that owns a rim byte (R10). -/
def stationOf (pa : Nat) : Nat :=
  let p := pa / 4096
  (32 * (p % 24) + p / 24 % 32) / 12

/-- One number for the bank of a key: stations 0 to 63, then vaults, then pad banks. -/
def bankOf (key : Nat) : Nat :=
  match regionOf key with
  | .rim => stationOf key
  | .vault site => 64 + site
  | .tile a => 65600 + 4 * a + (key - tileKey a 0) / 8 % 4
  | .mcr => 327760

/-- The home doubleword of a key. -/
def dwordOf (key : Nat) : Nat := key / 8 * 8

/-- The parked instruction of a thread completes: its next PC takes the loop step (R127). -/
def finishThread (s : State) (a th : Nat) : State := s.modThread a th fun t => t.complete t.parkNext false

/-! ### Records to the supervisor queues (R389, R455) -/

/-- The virtual tile number a record names: a service core is 0xFFFF_FFF0 + q. -/
def recordVtn (s : State) (a : Nat) : BitVec 32 :=
  if isCore a then 0xFFFFFFF0#32 + BitVec.ofNat 32 (coreNo a) else (s.tile a).vtn

/-- A double-trap record, kind 10 of R455. -/
def doubleTrapRecord (s : State) (a th : Nat) (epc : Word) (cause : BitVec 9) (v : Word) : State :=
  s.addRecord (.supervisor (s.vdOf a)) (record256 [(0, 8, epc.toNat), (8, 2, cause.toNat), (10, 1, s.vdOf a), (11, 1, 10),
    (12, 4, (s.recordVtn a).toNat), (16, 1, th), (24, 8, v.toNat)])

/-! ### Faults counted for a grid (R357) -/

/-- The order in which first faults are kept. -/
def faultLt (x y : GridFault) : Bool :=
  let k (f : GridFault) : Nat := ((f.vtn.toNat * 256 + f.thread.toNat) * 256 + f.cause.toNat) * 2 ^ 64 + f.value.toNat
  decide (k x < k y)

def insertFault (f : GridFault) : List GridFault → List GridFault
  | [] => [f]
  | g :: t => if faultLt f g then f :: g :: t else g :: insertFault f t

/-- Count a failure of a cause in a grid's completion record and keep the four lowest (R357). -/
def countFault (s : State) (h : Word) (f : GridFault) : State :=
  s.modGrid h fun g => { g with
    counts := if f.cause.toNat = 0 || 15 < f.cause.toNat then g.counts
      else vset g.counts f.cause.toNat (let n := vget g.counts f.cause.toNat 0; if n == 0xFFFF#16 then n else n + 1)
    firsts := (insertFault f g.firsts).take 4 }

/-- One gang more that ended by a trap: count 0 (R356, R386). -/
def countTrapEnd (s : State) (h : Word) : State :=
  s.modGrid h fun g => { g with counts := vset g.counts 0 (let n := vget g.counts 0 0; if n == 0xFFFF#16 then n else n + 1) }

/-- The fault record of a thread of a tile. -/
def threadFault (s : State) (a th : Nat) (cause : BitVec 8) (v : Word) : GridFault :=
  ⟨(s.tile a).vtn, BitVec.ofNat 8 th, cause, BitVec.ofNat 16 s.moduleNo, v⟩

/-! ### Reservations (R200-R212) -/

/-- The next ticket of a doubleword (R206). -/
def ticketOf (s : State) (key : Nat) : Option Word := (s.orders.find? fun o => o.key == dwordOf key).map (·.next)

/-- One ticket step; a result of all ones becomes 0 (R206). -/
def ticketStep (s : State) (key : Nat) : State :=
  let step (o : OrderEntry) : OrderEntry := { o with next := if o.next + 1 == 0xFFFFFFFFFFFFFFFF#64 then 0 else o.next + 1 }
  { s with orders := mapIf (fun o => o.key == dwordOf key) step s.orders }

/-- Whether a waiting request may be granted (R200). -/
def eligible (s : State) (r : ResvReq) : Bool :=
  match r.kind with
  | .lrw => true
  | .lro t => s.ticketOf r.key == some t
  | .atomic .faddo _ _ t => s.ticketOf r.key == some t
  | .atomic _ _ _ _ => true

/-- Signed value of the low bits of a number. -/
def signedOf (bits v : Nat) : Int := if 2 ^ (bits - 1) ≤ v then (v : Int) - (2 ^ bits : Nat) else v

/-- The new value of an atomic, `none` where it does not store, and its flags (R210, R212). -/
def atomResult (op : AtomOp) (w old x second : Nat) : Option Nat × BitVec 5 :=
  let bits := 8 * w
  let f : Fp := if w = 8 then .fp64 else .fp32
  match op with
  | .add => (some ((old + x) % 2 ^ bits), 0)
  | .and => (some (old &&& x), 0)
  | .or => (some (old ||| x), 0)
  | .xor => (some (old ^^^ x), 0)
  | .min => (some (if signedOf bits old ≤ signedOf bits x then old else x), 0)
  | .max => (some (if signedOf bits x ≤ signedOf bits old then old else x), 0)
  | .minu => (some (if old ≤ x then old else x), 0)
  | .maxu => (some (if x ≤ old then old else x), 0)
  | .swap => (some x, 0)
  | .cas => (if old = x then some second else none, 0)
  | .fadd => let r := f.addBits 1 0 old x; (some r.1, r.2)
  | .faddo => let r := f.addBits 1 0 old x; (some r.1, r.2)

/-- The turns of an atomic from its grant (R193). -/
def atomTurns (s : State) (a key : Nat) (op : AtomOp) : Nat :=
  s.homeTurns a key + match op with
    | .fadd | .faddo => 2
    | .add | .and | .or | .xor | .min | .max | .minu | .maxu | .swap | .cas => 1

/-- A granted atomic computes, hands the word on and completes its thread (R210-R212). -/
def performAtomic (s : State) (r : ResvReq) (op : AtomOp) (w : Nat) (operand second : Word) : State :=
  let old := s.viewN r.agent r.key w
  let x := operand.toNat % 2 ^ (8 * w)
  let res := atomResult op w old x (second.toNat % 2 ^ (8 * w))
  let s := match res.1 with
    | some v => (s.digest r.agent r.cx r.addr w (if op.counts then x else v)).storeAs r.agent r.key w v
    | none => s.rollWatchers r.key w
  let s := match op with
    | .faddo => s.ticketStep r.key
    | _ => s
  ((s.raise r.agent r.thread res.2).writeG r.agent r.thread r.dest (BitVec.ofNat 64 old) (s.atomTurns r.agent r.key op)).finishThread
    r.agent r.thread

/-- Grant a request (R200, R201, R208). -/
def grantOne (s : State) (r : ResvReq) : State :=
  let hold (kind : BitVec 8) (t : Word) : State :=
    let s := { s with holders := s.holders ++ [Holder.mk (dwordOf r.key) r.agent r.thread] }
    let s := s.modThread r.agent r.thread fun x =>
      { x with sync := { heldAddr := r.addr, heldKind := kind, revoked := false, ticket := t, heldKey := some (dwordOf r.key) } }
    (s.writeG r.agent r.thread r.dest (BitVec.ofNat 64 (s.viewN r.agent (dwordOf r.key) 8)) (s.homeTurns r.agent r.key)).finishThread
      r.agent r.thread
  match r.kind with
  | .lrw => hold 1 0
  | .lro t => hold 2 t
  | .atomic op w x y => s.performAtomic r op w x y

/-- Grant waiting requests of a doubleword while it has no holder, the earliest admitted eligible one first (R200). -/
def grantScan (s : State) (key : Nat) : Nat → State
  | 0 => s
  | n + 1 =>
    if s.holders.any fun h => h.key == dwordOf key then s
    else match splitFirst (fun r => dwordOf r.key == dwordOf key && s.eligible r) s.resv with
      | none => s
      | some (pre, r, post) => grantScan (grantOne { s with resv := pre ++ post } r) key n

/-- Rescan a doubleword's queue. -/
def regrant (s : State) (key : Nat) : State := s.grantScan key (s.resv.length + 1)

/-- Requests, granted or waiting, that a bank's queue table holds (R200). -/
def queueLoad (s : State) (bank : Nat) : Nat :=
  (s.resv.filter fun r => bankOf r.key == bank).length + (s.holders.filter fun h => bankOf h.key == bank).length

/-- Queue a request; a full table of 32 entries rejects it, to be readmitted in order (R200). -/
def requestGrant (s : State) (r : ResvReq) : State :=
  if 32 ≤ s.queueLoad (bankOf r.key) || s.rejected.any (fun q => bankOf q.key == bankOf r.key)
  then { s with rejected := s.rejected ++ [r] }
  else regrant { s with resv := s.resv ++ [r] } r.key

/-- A reservation at another module's pad that stands, as far as this module knows (R346). -/
def farHold (r : SyncRec) : Bool := r.heldKind != 0 && !r.revoked && r.heldKey.isNone

/-- What the record of a thread's reservation becomes as the reservation ends: empty, or with `keep` revoked (R204). -/
def endSync (r : SyncRec) (keep : Bool) : SyncRec := if keep then { r with revoked := r.revoked || r.heldKind != 0, heldKey := none } else {}

/-- A thread's reservation ends without a write, and the next request is granted (R204). `keep` leaves it in the record, revoked. One
at another module's pad has no holder here. -/
def dropHold (s : State) (a th : Nat) (keep : Bool) : State :=
  match (s.thread a th).sync.heldKey with
  | none => s.modThread a th fun t => { t with sync := endSync t.sync keep }
  | some k =>
    let s := { s with holders := s.holders.filter fun h => !(h.agent == a && h.thread == th) }
    let s := s.modThread a th fun t => { t with sync := endSync t.sync keep }
    s.regrant k

/-! ### Full/empty lists (R165, R166) -/

/-- The 32-bit words of an access. -/
def wordsOf (key size : Nat) : List Nat := if size = 8 then [key, key + 4] else [key]

/-- The condition of a full/empty request (R165). -/
def feReady (s : State) (key size : Nat) (k : FeKind) : Bool :=
  match k with
  | .load _ | .waitf => (wordsOf key size).all s.isFull
  | .store => (wordsOf key size).all fun w => !s.isFull w

def markWords (s : State) (key size : Nat) (b : Bool) : State := (wordsOf key size).foldl (fun s w => s.setFull w b) s

/-! ### Popped words -/

/-- Put a popped word back in front (R170): a link word that has been sent on stays marked, and a stream element stands in its slot
again, whatever has been popped since. -/
def unpop (s : State) (a : Nat) (p : RegNum × VReg) : State :=
  match regClass p.1 with
  | .ln => s.modTile a fun t => { t with ln := ⟨p.2.setWidth 64, false⟩ :: t.ln }
  | .lnf => s.modTile a fun t => { t with ln := ⟨p.2.setWidth 64, true⟩ :: t.ln }
  | .lp => s.modTile a fun t => { t with lp := ⟨p.2.setWidth 64, false⟩ :: t.lp }
  | .lpf => s.modTile a fun t => { t with lp := ⟨p.2.setWidth 64, true⟩ :: t.lp }
  | .inbox => s.modTile a fun t => { t with inbox := p.2.setWidth 64 :: t.inbox }
  | .stream h =>
    let x := vget (s.tile a).streams h {}
    if x.valid && decide (0 < x.room) then
      (s.pokeN (tileKey a (x.slot (x.rd - 1))) x.esz p.2.toNat).modTile a fun t => t.setStream h { x with rd := x.rd - 1 }
    else s
  | .zero | .general _ | .shared _ | .tid | .vtn | .rank | .gsize | .gidx | .none => s

/-- Put back what a thread's unfinished instruction has popped, the last popped first (R170). -/
def unpopAll (s : State) (a th : Nat) : State :=
  let t := s.thread a th
  (t.popped ++ t.held).reverse.foldl (fun s p => s.unpop a p) s

/-- A thread at its handler's door: what it saves, the status and the PC (R383). -/
def enterTrap (t : Thread) (cause : BitVec 9) (epc v : Word) : Thread :=
  { t with
    tcause := cause, tepc := epc, tval := v
    tst := (t.tst &&& 0b1000#4) ||| 0b0101#4 ||| (if t.sup then 0b0010#4 else 0)
    ldepth := depthUp t.ldepth
    pc := t.tvec, park := none, parkNext := 0, popped := [], held := [], claims := [] }

/-- The state of a thread at a handler's door (R383). -/
def trapState (s : State) (a th : Nat) (cause : BitVec 9) (epc v : Word) : State :=
  s.modThread a th fun t => enterTrap t cause epc v

/-! ### Ending threads and gangs (R343, R386) -/

/-- A thread waits at a bank of another module, which has not served it, so that the bank takes the request back (R170, R346). -/
def recallable (t : Thread) : Bool :=
  match t.park, t.relaxed with
  | some (.pod addr), r :: _ => r.addr == addr && r.act != .access
  | _, _ => false

/-- A thread has an access half done, or at another module, or stores to drain, and is at no boundary before those have ended. -/
def midAccess (t : Thread) : Bool :=
  match t.park with
  | some (.half _) => true
  | some (.pod _) => !recallable t
  | some .draining => !t.drain.isEmpty
  | _ => false

/-- A thread that is not live, with nothing awaited. -/
def stopped (t : Thread) : Thread :=
  { t with
    live := false, park := none, relaxed := t.relaxed.filter fun r => r.act == .access, popped := [], held := [], claims := [], spec := none, rollback := false, cancelPending := false
    dogPending := false, deferred := none, drain := [], dueTrap := none }

/-- A thread is over: not live, nothing awaited, its reservation given up (R204, R343). -/
def dropThread (s : State) (a th : Nat) : State :=
  let s := { s with
    fe := s.fe.filter fun r => !(r.agent == a && r.thread == th)
    resv := s.resv.filter fun r => !(r.agent == a && r.thread == th)
    rejected := s.rejected.filter fun r => !(r.agent == a && r.thread == th)
    away := s.away.filter fun r => !(r.agent == a && r.thread == th)
    fills := s.fills.filter fun f => f.ahead || !(f.agent == a && f.thread == th) }
  ((s.freeWatches fun w => w.agent == a && w.thread == th).dropHold a th false).modThread a th stopped

/-- End a thread; its barrier groups no longer wait for it (R216, R220, R343). -/
def haltThread (s : State) (a th : Nat) : State := (s.dropThread a th).decideTile a

/-- Withdraw a thread's arrival at a barrier (R235, R460). -/
def withdrawArrival (s : State) (a th : Nat) : State :=
  s.modTile a fun t =>
    let w := vget t.barWait th {}
    { t with arrived := if w.kind == 0#2 then t.arrived
               else vset t.arrived w.ident.toNat (vget t.arrived w.ident.toNat 0 &&& ~~~(1#4 <<< th))
             barWait := vset t.barWait th {} }

/-- A thread of a gang that has ended stands at a boundary and stops there (R386). -/
def endThread (s : State) (a th : Nat) : State := (s.dropThread a th).withdrawArrival a th

/-- A tile's gang has ended by a trap. -/
def gangEnded (s : State) (a : Nat) : Bool := (s.gangOfTile a).any fun g => g.ended

/-- A thread of a gang that has ended stops, once it stands at a boundary. -/
def settleEnded (s : State) (a th : Nat) : State :=
  if s.gangEnded a && (s.thread a th).live && !midAccess (s.thread a th) then s.endThread a th else s

/-- A gang ends by a trap: every thread of it stops at its boundary without a handler, so none of its barriers completes any more (R386). -/
def endGang (s : State) (a th : Nat) (cause : BitVec 8) (v : Word) : State :=
  match s.gangOfTile a with
  | none => s.haltThread a th
  | some g =>
    if g.ended then s.endThread a th else
    let h := g.handle
    let s := if g.mark == .original then (s.countFault h (s.threadFault a th cause v)).countTrapEnd h else s
    let s := s.modGangOfTile a fun g => { g with ended := true, saved := [] }
    let all := s.gangAgents a
    (all.foldl (fun s b => [0, 1, 2, 3].foldl (fun s t =>
      if (b != a || t != th) && midAccess (s.thread b t) then s else s.endThread b t) s) s).dropDecided h (g.index + 65536 * g.mark.no)

/-! ### Taking an exception and returning (R383-R387) -/

/-- Trap entry. TEPC and TVAL are given by the cause's rule; a trap inside a handler ends the gang, or on a service core the
thread, and sends a double-trap record (R383, R386). -/
def takeTrap (s : State) (a th : Nat) (cause : BitVec 8) (ext : Bool) (epc v : Word) : State :=
  let c : BitVec 9 := (if ext then 0x100#9 else 0) ||| cause.setWidth 9
  let s := s.unpopAll a th
  if (s.thread a th).ten then
    let s := (s.modThread a th fun t => { t with tcause := c, tepc := epc, tval := v }).doubleTrapRecord a th epc c v
    if isCore a then s.haltThread a th else s.endGang a th cause v
  else s.trapState a th c epc v

/-- A trap of a thread's own instruction or fetch, with TEPC at its chain; held while it speculates (R230, R383). -/
def trapThread (s : State) (a th : Nat) (cause : BitVec 8) (v : Word) : State :=
  match (s.thread a th).spec with
  | some sp => s.modThread a th fun t => { t with spec := some { sp with held := some (cause, v) }, park := some .speculating }
  | none => s.takeTrap a th cause false (s.thread a th).pc v

/-- A trap of the issuing thread. -/
def trapHere (s : State) (cause : BitVec 8) (v : Word) : State := s.trapThread s.cur.1 s.cur.2 cause v

/-- An address of which the PC takes the halfword: it is always halfword-aligned (R27). Bit 0 of TEPC, or of the PC of an image, is
ignored (DESIGN CHOICE, log 71). -/
def pcOf (w : Word) : Word := w &&& ~~~1#64

/-- A thread back from its handler, without a loop step (R127, R387). -/
def leaveTrap (t : Thread) : Thread :=
  let t := t.loopReturn
  { (t.goto (pcOf t.tepc)) with tst := (t.tst &&& 0b1010#4) ||| (if t.tst.getLsbD 1 then 1 else 0) }

/-- Return from an exception (R387): the mode and PC saved, LDEPTH down, no loop step. -/
def returnTrap (s : State) (a th : Nat) : State :=
  s.modThread a th leaveTrap

/-! ### Serving full/empty requests -/

/-- Serve one request whose condition holds: its access and its change of state in one bank cycle (R166). -/
def feServe (s : State) (r : FeReq) : State :=
  match r.kind with
  | .load clear =>
    if s.poisonedAs r.agent r.key r.size then s.takeTrap r.agent r.thread 0x0A false (s.thread r.agent r.thread).pc r.addr
    else
      let v := s.viewN r.agent r.key r.size
      let s := if clear && !s.shadows r.agent r.key then s.markWords r.key r.size false else s
      (s.writeG r.agent r.thread r.dest (BitVec.ofNat 64 v) (s.homeTurns r.agent r.key)).finishThread r.agent r.thread
  | .store =>
    let s := (s.digest r.agent r.cx r.addr r.size r.data.toNat).storeAs r.agent r.key r.size r.data.toNat
    (if s.shadows r.agent r.key then s else s.markWords r.key r.size true).finishThread r.agent r.thread
  | .waitf => s.finishThread r.agent r.thread

/-- Scan a doubleword's list from the head, serving and rescanning (R166). -/
def feScan (s : State) (key : Nat) : Nat → State
  | 0 => s
  | n + 1 =>
    match splitFirst (fun r => dwordOf r.key == dwordOf key && s.feReady r.key r.size r.kind) s.fe with
    | none => s
    | some (pre, r, post) => feScan (feServe { s with fe := pre ++ post } r) key n

/-- After a change of a word's value or state the bank rescans its list. -/
def feRescan (s : State) (key : Nat) : State := s.feScan key (s.fe.length + 1)

/-- Put a request at the tail of its bank's list, and scan (R166). -/
def feRequest (s : State) (r : FeReq) : State := feRescan { s with fe := s.fe ++ [r] } r.key

/-! ### Parking and withdrawing (R36, R170) -/

/-- A thread parked on an instruction; what it has popped stays with it (R98, R170). -/
def parkOn (t : Thread) (c : Chain) (p : Park) : Thread :=
  { t with park := some p, parkNext := t.pc + BitVec.ofNat 64 (2 * c.len), popped := t.popped ++ t.held, held := [] }

/-- Park the issuing thread on its present instruction. -/
def parkMe (s : State) (c : Chain) (p : Park) : State :=
  s.modMe fun t => parkOn t c p

/-- Withdraw a thread's waiting instruction: its requests leave the banks, what it popped comes back, and it stands at the first
halfword of its chain (R36, R170). -/
def withdraw (s : State) (a th : Nat) : State :=
  let s := { s with
    fe := s.fe.filter fun r => !(r.agent == a && r.thread == th)
    resv := s.resv.filter fun r => !(r.agent == a && r.thread == th)
    rejected := s.rejected.filter fun r => !(r.agent == a && r.thread == th)
    away := s.away.filter fun r => !(r.agent == a && r.thread == th)
    fills := s.fills.filter fun f => f.ahead || !(f.agent == a && f.thread == th) }
  (s.unpopAll a th).modThread a th fun t =>
    { t with park := none, parkNext := 0, popped := [], held := [], claims := [], relaxed := if recallable t then t.relaxed.tail else t.relaxed }

end State

/-! ### Issuing an instruction -/

namespace Op

/-- The address after the base word (R60). -/
def next (s : State) (c : Chain) : Word := s.me.pc + BitVec.ofNat 64 (2 * c.len)

/-- The instruction completes and falls through (R127). -/
def retire (c : Chain) : Op Unit := modify fun s => s.modMe fun t => t.complete (t.pc + BitVec.ofNat 64 (2 * c.len)) false

/-- The instruction completes with a next PC of its own. -/
def retireTo (next : Word) (taken : Bool) : Op Unit := modify fun s => s.modMe fun t => t.complete next taken

/-- The outcome of a meaning that starts in a state. -/
def run (s : State) (c : Chain) (m : Op Unit) : Host.Outcome State Fault Refusal :=
  match m s with
  | .ok (_, s') => .next s'
  | .error (.park p) => .next (s.parkMe c p)
  | .error (.parkIn p s') => .next (s'.parkMe c p)
  | .error (.trap cause v) => .next (s.trapHere cause v)
  | .error (.done s') => .next s'
  | .error (.fault f) => .fault f

/-- The predicate of a guard: bit 0, complemented by the sense bit (R34, R117). -/
def guardHolds (s : State) (c : Chain) : Bool := (s.readQ s.cur.1 s.cur.2 c.pred.toNat).getLsbD 0 != c.sense

/-- What an instruction asks of its thread before it runs (R38, R229). -/
structure Rules where
  /-- Illegal on the control thread. -/
  compute : Bool := false
  /-- Illegal on the compute threads. -/
  control : Bool := false
  /-- Needs supervisor mode. -/
  privileged : Bool := false
  /-- Needs a service core (R403). -/
  core : Bool := false
  /-- Guarded by MOD's predicate (R34). -/
  guarded : Bool := true
  /-- Waits while its thread speculates (R229). -/
  held : Bool := false
  /-- Issues only after every outstanding relaxed access of its thread has been performed (R161, R176). -/
  drained : Bool := false
deriving DecidableEq, Repr, Inhabited

end Op

/-- Issue an instruction: steps 2 and 3 of R38, the guard of R34 and R39, the holds, then its own effect. -/
def issue (r : Op.Rules) (c : Chain) (s : State) (m : Op Unit) : Host.Outcome State Fault Refusal :=
  if (r.compute && s.cur.2 == 0) || (r.control && s.cur.2 != 0) then .next (s.trapHere 0x01 (c.word.setWidth 64))
  else if (r.privileged && !s.me.sup) || (r.core && !State.isCore s.cur.1) then .next (s.trapHere 0x02 (c.word.setWidth 64))
  else if r.guarded && !Op.guardHolds s c then Op.run s c (Op.retire c)
  else if r.held && s.me.spec.isSome then .next (s.parkMe c .speculating)
  else if r.drained && !s.me.relaxed.isEmpty then .next (s.parkMe c .drained)
  else Op.run s c m

end Sys2Proof.Machine
end

