-- ==== Sys2Proof/Machine/Scalar.lean ====
section
/-! DEFINITION. The scalar integer and address instructions (R105-R115). -/

namespace Sys2Proof.Machine

/-! ### Results -/

/-- SignExtend of the low `n` bits (R60). -/
def sext (n : Nat) (v : Word) : Word := (v.setWidth n).signExtend 64

/-- A shift amount is taken modulo 64 (R62). -/
def shamt (b : Word) : Nat := (b.extractLsb' 0 6).toNat

def aluShl (a b : Word) : Word := a <<< shamt b
def aluShr (a b : Word) : Word := a >>> shamt b
def aluSar (a b : Word) : Word := a.sshiftRight (shamt b)
def aluRol (a b : Word) : Word := a.rotateLeft (shamt b)
def aluRor (a b : Word) : Word := a.rotateRight (shamt b)

/-- The high halves of exact products (R107). -/
def mulhSS (a b : Word) : Word := BitVec.ofInt 64 (a.toInt * b.toInt / 2 ^ 64)
def mulhUU (a b : Word) : Word := BitVec.ofNat 64 (a.toNat * b.toNat / 2 ^ 64)
def mulhSU (a b : Word) : Word := BitVec.ofInt 64 (a.toInt * (b.toNat : Int) / 2 ^ 64)

/-- Quotients and remainders, with the results of R108 for a zero divisor and for MIN / -1. -/
def divS (a b : Word) : Word := if b = 0 then BitVec.allOnes 64 else BitVec.ofInt 64 (Int.tdiv a.toInt b.toInt)
def divU (a b : Word) : Word := if b = 0 then BitVec.allOnes 64 else BitVec.ofNat 64 (a.toNat / b.toNat)
def remS (a b : Word) : Word := if b = 0 then a else BitVec.ofInt 64 (Int.tmod a.toInt b.toInt)
def remU (a b : Word) : Word := if b = 0 then a else BitVec.ofNat 64 (a.toNat % b.toNat)

/-- 1 or 0. -/
def bool64 (b : Bool) : Word := if b then 1 else 0

/-- Comparisons of R109. -/
def sltW (a b : Word) : Bool := decide (a.toInt < b.toInt)
def ultW (a b : Word) : Bool := decide (a.toNat < b.toNat)
def minS (a b : Word) : Word := if a.toInt ≤ b.toInt then a else b
def maxS (a b : Word) : Word := if b.toInt ≤ a.toInt then a else b
def minU (a b : Word) : Word := if a.toNat ≤ b.toNat then a else b
def maxU (a b : Word) : Word := if b.toNat ≤ a.toNat then a else b

/-- Bits of a word, lowest first. -/
def bitsOf (a : Word) : List Bool := (List.range 64).map a.getLsbD

/-- CLZ and CTZ count zero bits from an end; POPC counts ones (R111). -/
def clzW (a : Word) : Word := BitVec.ofNat 64 ((bitsOf a).reverse.takeWhile (· == false)).length
def ctzW (a : Word) : Word := BitVec.ofNat 64 ((bitsOf a).takeWhile (· == false)).length
def popcW (a : Word) : Word := BitVec.ofNat 64 ((bitsOf a).filter id).length
/-- Bit i of the result is bit 63 - i (R111). -/
def brevW (a : Word) : Word := a.reverse
/-- Byte i of the result is byte 7 - i (R111). -/
def bswapW (a : Word) : Word :=
  BitVec.ofNat 64 ((List.range 8).foldl (fun r i => r * 256 + (a.extractLsb' (8 * i) 8).toNat) 0)

/-- HXY (R112). -/
def hxyW (d n : Word) : Word :=
  if n.toNat < 1 || 8 < n.toNat then BitVec.allOnes 64
  else let p := siteXY n.toNat d.toNat; BitVec.ofNat 64 (p.2 % 65536 * 65536 + p.1 % 65536)

/-- The inverse loop (R113): steps left, the half side s, the side N, the point, the index so far. -/
def hilbertD : Nat → Nat → Nat → Nat → Nat → Nat → Nat
  | 0, _, _, _, _, d => d
  | k + 1, s, n, x, y, d =>
    let rx := if x &&& s = 0 then 0 else 1
    let ry := if y &&& s = 0 then 0 else 1
    let d := d + s * s * ((3 * rx) ^^^ ry)
    let p : Nat × Nat :=
      if ry = 0 then (if rx = 1 then (n - 1 - y, n - 1 - x) else (y, x)) else (x, y)
    hilbertD k (s / 2) n p.1 p.2 d

/-- HIDX (R113). -/
def hidxW (p n : Word) : Word :=
  if n.toNat < 1 || 8 < n.toNat then BitVec.allOnes 64
  else
    let side := 2 ^ n.toNat
    BitVec.ofNat 64 (hilbertD n.toNat (side / 2) side ((p.extractLsb' 0 16).toNat % side) ((p.extractLsb' 16 16).toNat % side) 0)

/-! ### Shapes -/

/-- Two sources and a destination: Y, then Z, then X (R41, R105). -/
def alu3 (c : Chain) (x y z : RegNum) (lat : Nat) (f : Word → Word → Word) : Op Unit := do
  Op.need [.g y, .g z] [.g x]
  let a ← Op.readG y
  let b ← Op.readG z
  Op.writeG x (f a b) lat
  Op.retire c

/-- One source and a destination. -/
def alu2 (c : Chain) (x y : RegNum) (f : Word → Word) : Op Unit := do
  Op.need [.g y] [.g x]
  let a ← Op.readG y
  Op.writeG x (f a)
  Op.retire c

/-! ### Meanings -/

/-- ADD (R106). -/
def execAdd (c : Chain) (x y z : RegNum) (s : State) : Host.Outcome State Fault Refusal :=
  issue {} c s (alu3 c x y z 1 (fun a b => a + b))

/-- SUB (R106). -/
def execSub (c : Chain) (x y z : RegNum) (s : State) : Host.Outcome State Fault Refusal :=
  issue {} c s (alu3 c x y z 1 (fun a b => a - b))

/-- AND (R106). -/
def execAnd (c : Chain) (x y z : RegNum) (s : State) : Host.Outcome State Fault Refusal :=
  issue {} c s (alu3 c x y z 1 (fun a b => a &&& b))

/-- OR (R106). -/
def execOr (c : Chain) (x y z : RegNum) (s : State) : Host.Outcome State Fault Refusal :=
  issue {} c s (alu3 c x y z 1 (fun a b => a ||| b))

/-- XOR (R106). -/
def execXor (c : Chain) (x y z : RegNum) (s : State) : Host.Outcome State Fault Refusal :=
  issue {} c s (alu3 c x y z 1 (fun a b => a ^^^ b))

/-- SHL (R106). -/
def execShl (c : Chain) (x y z : RegNum) (s : State) : Host.Outcome State Fault Refusal :=
  issue {} c s (alu3 c x y z 1 aluShl)

/-- SHR (R106). -/
def execShr (c : Chain) (x y z : RegNum) (s : State) : Host.Outcome State Fault Refusal :=
  issue {} c s (alu3 c x y z 1 aluShr)

/-- SAR (R106). -/
def execSar (c : Chain) (x y z : RegNum) (s : State) : Host.Outcome State Fault Refusal :=
  issue {} c s (alu3 c x y z 1 aluSar)

/-- ADDW (R106). -/
def execAddw (c : Chain) (x y z : RegNum) (s : State) : Host.Outcome State Fault Refusal :=
  issue {} c s (alu3 c x y z 1 (fun a b => sext 32 (a + b)))

/-- SUBW (R106). -/
def execSubw (c : Chain) (x y z : RegNum) (s : State) : Host.Outcome State Fault Refusal :=
  issue {} c s (alu3 c x y z 1 (fun a b => sext 32 (a - b)))

/-- ANDN (R106). -/
def execAndn (c : Chain) (x y z : RegNum) (s : State) : Host.Outcome State Fault Refusal :=
  issue {} c s (alu3 c x y z 1 (fun a b => a &&& ~~~b))

/-- ORN (R106). -/
def execOrn (c : Chain) (x y z : RegNum) (s : State) : Host.Outcome State Fault Refusal :=
  issue {} c s (alu3 c x y z 1 (fun a b => a ||| ~~~b))

/-- XNOR (R106). -/
def execXnor (c : Chain) (x y z : RegNum) (s : State) : Host.Outcome State Fault Refusal :=
  issue {} c s (alu3 c x y z 1 (fun a b => ~~~(a ^^^ b)))

/-- ROL (R106). -/
def execRol (c : Chain) (x y z : RegNum) (s : State) : Host.Outcome State Fault Refusal :=
  issue {} c s (alu3 c x y z 1 aluRol)

/-- ROR (R106). -/
def execRor (c : Chain) (x y z : RegNum) (s : State) : Host.Outcome State Fault Refusal :=
  issue {} c s (alu3 c x y z 1 aluRor)

/-- SCADD (R106). -/
def execScadd (c : Chain) (x y z : RegNum) (s : State) : Host.Outcome State Fault Refusal :=
  issue {} c s (alu3 c x y z 1 (fun a b => a + (b <<< 3)))

/-- MUL (R107). -/
def execMul (c : Chain) (x y z : RegNum) (s : State) : Host.Outcome State Fault Refusal :=
  issue {} c s (alu3 c x y z 2 (fun a b => a * b))

/-- MULH (R107). -/
def execMulh (c : Chain) (x y z : RegNum) (s : State) : Host.Outcome State Fault Refusal :=
  issue {} c s (alu3 c x y z 2 mulhSS)

/-- MULHU (R107). -/
def execMulhu (c : Chain) (x y z : RegNum) (s : State) : Host.Outcome State Fault Refusal :=
  issue {} c s (alu3 c x y z 2 mulhUU)

/-- MULHSU (R107). -/
def execMulhsu (c : Chain) (x y z : RegNum) (s : State) : Host.Outcome State Fault Refusal :=
  issue {} c s (alu3 c x y z 2 mulhSU)

/-- DIV (R108). -/
def execDiv (c : Chain) (x y z : RegNum) (s : State) : Host.Outcome State Fault Refusal :=
  issue {} c s (alu3 c x y z 18 divS)

/-- DIVU (R108). -/
def execDivu (c : Chain) (x y z : RegNum) (s : State) : Host.Outcome State Fault Refusal :=
  issue {} c s (alu3 c x y z 18 divU)

/-- REM (R108). -/
def execRem (c : Chain) (x y z : RegNum) (s : State) : Host.Outcome State Fault Refusal :=
  issue {} c s (alu3 c x y z 18 remS)

/-- REMU (R108). -/
def execRemu (c : Chain) (x y z : RegNum) (s : State) : Host.Outcome State Fault Refusal :=
  issue {} c s (alu3 c x y z 18 remU)

/-- SLT (R109). -/
def execSlt (c : Chain) (x y z : RegNum) (s : State) : Host.Outcome State Fault Refusal :=
  issue {} c s (alu3 c x y z 1 (fun a b => bool64 (sltW a b)))

/-- SLTU (R109). -/
def execSltu (c : Chain) (x y z : RegNum) (s : State) : Host.Outcome State Fault Refusal :=
  issue {} c s (alu3 c x y z 1 (fun a b => bool64 (ultW a b)))

/-- SEQ (R109). -/
def execSeq (c : Chain) (x y z : RegNum) (s : State) : Host.Outcome State Fault Refusal :=
  issue {} c s (alu3 c x y z 1 (fun a b => bool64 (a == b)))

/-- SNE (R109). -/
def execSne (c : Chain) (x y z : RegNum) (s : State) : Host.Outcome State Fault Refusal :=
  issue {} c s (alu3 c x y z 1 (fun a b => bool64 (a != b)))

/-- MIN (R109). -/
def execMin (c : Chain) (x y z : RegNum) (s : State) : Host.Outcome State Fault Refusal :=
  issue {} c s (alu3 c x y z 1 minS)

/-- MAX (R109). -/
def execMax (c : Chain) (x y z : RegNum) (s : State) : Host.Outcome State Fault Refusal :=
  issue {} c s (alu3 c x y z 1 maxS)

/-- MINU (R109). -/
def execMinu (c : Chain) (x y z : RegNum) (s : State) : Host.Outcome State Fault Refusal :=
  issue {} c s (alu3 c x y z 1 minU)

/-- MAXU (R109). -/
def execMaxu (c : Chain) (x y z : RegNum) (s : State) : Host.Outcome State Fault Refusal :=
  issue {} c s (alu3 c x y z 1 maxU)

/-- CLZ (R111). -/
def execClz (c : Chain) (x y : RegNum) (s : State) : Host.Outcome State Fault Refusal :=
  issue {} c s (alu2 c x y clzW)

/-- CTZ (R111). -/
def execCtz (c : Chain) (x y : RegNum) (s : State) : Host.Outcome State Fault Refusal :=
  issue {} c s (alu2 c x y ctzW)

/-- POPC (R111). -/
def execPopc (c : Chain) (x y : RegNum) (s : State) : Host.Outcome State Fault Refusal :=
  issue {} c s (alu2 c x y popcW)

/-- BREV (R111). -/
def execBrev (c : Chain) (x y : RegNum) (s : State) : Host.Outcome State Fault Refusal :=
  issue {} c s (alu2 c x y brevW)

/-- BSWAP (R111). -/
def execBswap (c : Chain) (x y : RegNum) (s : State) : Host.Outcome State Fault Refusal :=
  issue {} c s (alu2 c x y bswapW)

/-- SEXB (R111). -/
def execSexb (c : Chain) (x y : RegNum) (s : State) : Host.Outcome State Fault Refusal :=
  issue {} c s (alu2 c x y (sext 8))

/-- SEXH (R111). -/
def execSexh (c : Chain) (x y : RegNum) (s : State) : Host.Outcome State Fault Refusal :=
  issue {} c s (alu2 c x y (sext 16))

/-- SEXW (R111). -/
def execSexw (c : Chain) (x y : RegNum) (s : State) : Host.Outcome State Fault Refusal :=
  issue {} c s (alu2 c x y (sext 32))

/-- HXY (R112). -/
def execHxy (c : Chain) (x y z : RegNum) (s : State) : Host.Outcome State Fault Refusal :=
  issue {} c s (alu3 c x y z 2 hxyW)

/-- HIDX (R113). -/
def execHidx (c : Chain) (x y z : RegNum) (s : State) : Host.Outcome State Fault Refusal :=
  issue {} c s (alu3 c x y z 2 hidxW)

/-- SEL: never guarded; the predicate chooses between the operands, and both are read (R110). -/
def execSel (c : Chain) (x y z : RegNum) (s : State) : Host.Outcome State Fault Refusal :=
  issue { guarded := false } c s (alu3 c x y z 1 fun a b => if Op.guardHolds s c then a else b)

/-- ADDI (R114). -/
def execAddi (c : Chain) (x y : RegNum) (imm : Word) (s : State) : Host.Outcome State Fault Refusal :=
  issue {} c s (alu2 c x y (fun a => a + imm))

/-- ANDI (R114). -/
def execAndi (c : Chain) (x y : RegNum) (imm : Word) (s : State) : Host.Outcome State Fault Refusal :=
  issue {} c s (alu2 c x y (fun a => a &&& imm))

/-- ORI (R114). -/
def execOri (c : Chain) (x y : RegNum) (imm : Word) (s : State) : Host.Outcome State Fault Refusal :=
  issue {} c s (alu2 c x y (fun a => a ||| imm))

/-- XORI (R114). -/
def execXori (c : Chain) (x y : RegNum) (imm : Word) (s : State) : Host.Outcome State Fault Refusal :=
  issue {} c s (alu2 c x y (fun a => a ^^^ imm))

/-- SHLI (R114). -/
def execShli (c : Chain) (x y : RegNum) (imm : Word) (s : State) : Host.Outcome State Fault Refusal :=
  issue {} c s (alu2 c x y (fun a => aluShl a imm))

/-- SHRI (R114). -/
def execShri (c : Chain) (x y : RegNum) (imm : Word) (s : State) : Host.Outcome State Fault Refusal :=
  issue {} c s (alu2 c x y (fun a => aluShr a imm))

/-- SARI (R114). -/
def execSari (c : Chain) (x y : RegNum) (imm : Word) (s : State) : Host.Outcome State Fault Refusal :=
  issue {} c s (alu2 c x y (fun a => aluSar a imm))

/-- A destination and a value fixed at issue. -/
def loadConst (c : Chain) (x : RegNum) (v : State → Word) : Op Unit := do
  Op.need [] [.g x]
  let s ← get
  Op.writeG x (v s)
  Op.retire c

/-- LI (R115). -/
def execLi (c : Chain) (x : RegNum) (imm : Word) (s : State) : Host.Outcome State Fault Refusal :=
  issue {} c s (loadConst c x fun _ => imm)

/-- LIH reads its destination and keeps its low half (R115). -/
def execLih (c : Chain) (x : RegNum) (imm : Word) (s : State) : Host.Outcome State Fault Refusal :=
  issue {} c s (alu2 c x x fun a => imm.setWidth 32 ++ a.setWidth 32)

/-- ADDPC counts from the first halfword of its chain (R115). -/
def execAddpc (c : Chain) (x : RegNum) (imm : Word) (s : State) : Host.Outcome State Fault Refusal :=
  issue {} c s (loadConst c x fun s => s.me.pc + imm * 2)

end Sys2Proof.Machine
end

