-- ==== Sys2Proof/Machine/Control.lean ====
section
/-! DEFINITION. Control flow: branches, jumps, calls, hardware loops, HALT, and the hints (R45, R118-R128, R134, R135, R343). -/

namespace Sys2Proof.Machine

namespace State

/-- The course of a site (R6). -/
def courseOf (a : Nat) : Nat := let p := siteXY 8 a; 16 * p.2 + p.1 / 16

/-- The space number of an agent's data accesses: its grid's; a service core, which has no grid, uses space 0
(R148, R378; log 26). -/
def dataSpace (s : State) (a : Nat) : Nat :=
  if isCore a then 0
  else match s.grid? (s.tile a).handle with
    | some g => g.desc.space
    | none => 0

/-- The space number of a thread's fetches (R129, R378). -/
def fetchSpace (s : State) (a th : Nat) : Nat :=
  if (s.thread a th).sup then s.vdSupSpace (s.vdOf a) else s.dataSpace a

/-- The timing mode of an agent's partition (R95). -/
def fretless (s : State) (a : Nat) : Bool := s.vdFretless (s.vdOf a)

/-- Other tiles of an agent's gang on its course (R134). -/
def courseMates (s : State) (a : Nat) : List Nat :=
  (s.gangAgents a).filter fun b => b != a && courseOf b == courseOf a

/-- A SLEEP of a tile ends (R387). -/
def wakeSleepers (s : State) (a : Nat) : State :=
  [0, 1, 2, 3].foldl (fun s th => if (s.thread a th).park == some .sleep then s.finishThread a th else s) s

/-- The threads of the same number that a hold waits for: neither halted nor parked, and no ALIGN of the tag since it began. One
that another ALIGN holds counts as parked (R134; DESIGN CHOICE, log 72). -/
def alignMates (s : State) (a th : Nat) (seen : List Nat) : List Nat :=
  (s.courseMates a).filter fun b => (s.thread b th).live && (s.thread b th).park.isNone && !seen.contains b

/-- The hold of a thread on a tag: the tiles it has seen, and the cycle of its issue. -/
def heldOn (t : Thread) (tag : BitVec 8) : Option (List Nat × Word) :=
  match t.park with
  | some (.align u seen since) => if u == tag then some (seen, since) else none
  | _ => none

/-- An ALIGN of a thread counts for the holds of its tag on its course; those that wait for no other then end, all at once (R134). -/
def alignSeen (s : State) (a th : Nat) (tag : BitVec 8) : State :=
  let mates := s.courseMates a
  let s := mates.foldl (fun s b => match heldOn (s.thread b th) tag with
    | some (seen, since) => s.modThread b th fun x => { x with park := some (.align tag (a :: seen) since) }
    | none => s) s
  (mates.filter fun b => match heldOn (s.thread b th) tag with
    | some (seen, _) => (s.alignMates b th seen).isEmpty
    | none => false).foldl (fun s b => s.finishThread b th) s

/-- The line of a tag (R130). -/
def lineFind (s : State) (course vd space line : Nat) : Option CacheLine :=
  s.icache.find? fun l => l.course == course && l.vd == vd && l.space == space && l.line == line

end State

/-! ### Shapes -/

/-- The target of a direct branch or jump (R118). -/
def targetOf (s : State) (imm : Word) : Word := s.me.pc + imm * 2

/-- Take a branch or fall through; only a taken branch counts as taken for the loop step (R127). -/
def branchIf (c : Chain) (imm : Word) (b : Bool) : Op Unit := do
  let s ← get
  if b then Op.retireTo (targetOf s imm) true else Op.retire c

/-- A branch on one register (R119). -/
def branch1 (c : Chain) (x : RegNum) (imm : Word) (p : Word → Bool) : Op Unit := do
  Op.need [.g x] []
  let a ← Op.readG x
  branchIf c imm (p a)

/-- A branch on a predicate register: any lane bit set, or none (R119). -/
def branchQ (c : Chain) (q : BitVec 3) (imm : Word) (p : BitVec 16 → Bool) : Op Unit := do
  let v ← Op.readQ q
  branchIf c imm (p v)

/-- A compare-and-branch: X, then Y (R120). -/
def branch2 (c : Chain) (x y : RegNum) (imm : Word) (p : Word → Word → Bool) : Op Unit := do
  Op.need [.g x, .g y] []
  let a ← Op.readG x
  let b ← Op.readG y
  branchIf c imm (p a b)

/-- Jump of R60: traps on an odd target (R47). -/
def jumpCheck (t : Word) : Op Unit := Op.require (!t.getLsbD 0) 0x04 t

/-- lk receives the address after the base word, and LDEPTH steps up (R121, R122, R126). -/
def link (c : Chain) : Op Unit := do
  let s ← get
  Op.writeG 1 (Op.next s c)
  modify fun s => s.modMe fun t => { t with ldepth := depthUp t.ldepth }

/-! ### Meanings -/

/-- NOP and the unassigned hints: an issue slot and nothing else, without a guard (R34, R45). -/
def execNop (c : Chain) (s : State) : Host.Outcome State Fault Refusal := issue { guarded := false } c s (Op.retire c)

/-- J (R121). -/
def execJ (c : Chain) (imm : Word) (s : State) : Host.Outcome State Fault Refusal :=
  issue {} c s (Op.retireTo (targetOf s imm) true)

/-- CALL (R121): lk must be free to write. -/
def execCall (c : Chain) (imm : Word) (s : State) : Host.Outcome State Fault Refusal :=
  issue {} c s do
    Op.need [] [.g 1]
    link c
    Op.retireTo (targetOf s imm) false

/-- JR (R122). -/
def execJr (c : Chain) (x : RegNum) (s : State) : Host.Outcome State Fault Refusal :=
  issue {} c s do
    Op.need [.g x] []
    let t ← Op.readG x
    jumpCheck t
    Op.retireTo t true

/-- CALLR reads its target before it writes lk (R122). -/
def execCallr (c : Chain) (x : RegNum) (s : State) : Host.Outcome State Fault Refusal :=
  issue {} c s do
    Op.need [.g x] [.g 1]
    let t ← Op.readG x
    jumpCheck t
    link c
    Op.retireTo t false

/-- RET: LDEPTH steps down, and the loops of deeper levels go (R122, R126). -/
def execRet (c : Chain) (s : State) : Host.Outcome State Fault Refusal :=
  issue {} c s do
    Op.need [.g 1] []
    let t ← Op.readG 1
    jumpCheck t
    modify fun s => s.modMe Thread.loopReturn
    Op.retireTo t false

/-- BZ (R119). -/
def execBz (c : Chain) (x : RegNum) (imm : Word) (s : State) : Host.Outcome State Fault Refusal :=
  issue {} c s (branch1 c x imm fun a => a == 0)
/-- BNZ (R119). -/
def execBnz (c : Chain) (x : RegNum) (imm : Word) (s : State) : Host.Outcome State Fault Refusal :=
  issue {} c s (branch1 c x imm fun a => a != 0)
/-- BLTZ (R119). -/
def execBltz (c : Chain) (x : RegNum) (imm : Word) (s : State) : Host.Outcome State Fault Refusal :=
  issue {} c s (branch1 c x imm fun a => a.getLsbD 63)
/-- BGEZ (R119). -/
def execBgez (c : Chain) (x : RegNum) (imm : Word) (s : State) : Host.Outcome State Fault Refusal :=
  issue {} c s (branch1 c x imm fun a => !a.getLsbD 63)
/-- BQ (R119). -/
def execBq (c : Chain) (q : BitVec 3) (imm : Word) (s : State) : Host.Outcome State Fault Refusal :=
  issue {} c s (branchQ c q imm fun v => v != 0)
/-- BNQ (R119). -/
def execBnq (c : Chain) (q : BitVec 3) (imm : Word) (s : State) : Host.Outcome State Fault Refusal :=
  issue {} c s (branchQ c q imm fun v => v == 0)
/-- BEQ (R120). -/
def execBeq (c : Chain) (x y : RegNum) (imm : Word) (s : State) : Host.Outcome State Fault Refusal :=
  issue {} c s (branch2 c x y imm fun a b => a == b)
/-- BNE (R120). -/
def execBne (c : Chain) (x y : RegNum) (imm : Word) (s : State) : Host.Outcome State Fault Refusal :=
  issue {} c s (branch2 c x y imm fun a b => a != b)
/-- BLT (R120). -/
def execBlt (c : Chain) (x y : RegNum) (imm : Word) (s : State) : Host.Outcome State Fault Refusal :=
  issue {} c s (branch2 c x y imm sltW)
/-- BGE (R120). -/
def execBge (c : Chain) (x y : RegNum) (imm : Word) (s : State) : Host.Outcome State Fault Refusal :=
  issue {} c s (branch2 c x y imm fun a b => !sltW a b)
/-- BLTU (R120). -/
def execBltu (c : Chain) (x y : RegNum) (imm : Word) (s : State) : Host.Outcome State Fault Refusal :=
  issue {} c s (branch2 c x y imm ultW)
/-- BGEU (R120). -/
def execBgeu (c : Chain) (x y : RegNum) (imm : Word) (s : State) : Host.Outcome State Fault Refusal :=
  issue {} c s (branch2 c x y imm fun a b => !ultW a b)

/-- Make a loop entry: entry 0 if it is free, else entry 1 (R125). -/
def makeLoop (start stop count : Word) (t : Thread) : Thread :=
  let e : LoopEntry := { start := start, stop := stop, count := count, depth := t.ldepth, valid := true }
  if t.loop0.valid then { t with loop1 := e } else { t with loop0 := e }

/-- LOOP (R125): a zero count arrives at the end address, which is no taken branch (R127). -/
def execLoop (c : Chain) (x : RegNum) (imm : Word) (s : State) : Host.Outcome State Fault Refusal :=
  issue {} c s do
    Op.need [.g x] []
    let n ← Op.readG x
    let e := targetOf s imm
    let next := Op.next s c
    Op.require (decide (next.toNat < e.toNat)) 0x01 (c.word.setWidth 64)
    if n == 0 then Op.retireTo e false
    else do
      Op.require (!s.me.loop1.valid) 0x01 (c.word.setWidth 64)
      modify fun s => s.modMe (makeLoop next e n)
      -- the new entry is not yet at its end: next lies before e
      Op.retireTo next false

/-- HALT (R343). -/
def execHalt (c : Chain) (s : State) : Host.Outcome State Fault Refusal :=
  issue { held := true, drained := true } c s (modify fun s => s.haltThread s.cur.1 s.cur.2)

/-- ALIGN (R134): a NOP in fretted mode and while speculating, which then counts for no hold (DESIGN CHOICE, log 72); else a hold
for the course's threads of the same number. -/
def execAlign (c : Chain) (tag : BitVec 8) (s : State) : Host.Outcome State Fault Refusal :=
  issue { guarded := false } c s do
    let a := s.cur.1
    let th := s.cur.2
    if !s.fretless a || s.me.spec.isSome then Op.retire c
    else if (s.alignMates a th []).isEmpty then do
      set (s.alignSeen a th tag)
      Op.retire c
    else do
      -- it is held before it counts: two threads that hold one another end together
      let s' := s.parkMe c (.align tag [] (s.cyc a))
      throw (.done (s'.alignSeen a th tag))

/-- PREF: asks for the line's fill, never waits, never faults (R135): where its operand cannot be read at once it is dropped. A line
that is there needs no fill, and one whose page waits for module software is dropped when its fill asks for it. A service core has no
course cache. -/
def execPref (c : Chain) (x : RegNum) (s : State) : Host.Outcome State Fault Refusal :=
  issue { guarded := false } c s do
    let a := s.cur.1
    let ready := s.readiness a s.cur.2 (Op.toTake s.me [.g x]) [] == .ready && !(s.me.spec.isSome && Op.heldInSpec (.g x))
    if ready then do
      let v ← Op.readG x
      let f : Fill := { agent := a, thread := s.cur.2, course := State.courseOf a, vd := s.vdOf a,
                        space := s.fetchSpace a s.cur.2, line := v.toNat % 2 ^ 56 / 64, ahead := true }
      if !State.isCore a && v.extractLsb' 56 8 == 0x40#8 && (s.lineFind f.course f.vd f.space f.line).isNone then modify fun s => { s with fills := s.fills ++ [f] }
    Op.retire c

end Sys2Proof.Machine
end

