-- ==== Sys2Proof/Machine/Translate.lean ====
section
/-! DEFINITION. The address spaces and their translation (R136-R159): what an address names, the conditions of R137, and the
station that translates a rim address. -/

namespace Sys2Proof.Machine

/-- How a walk ends (R150, R151). -/
inductive WalkEnd where
  /-- A valid leaf: log2 of its page size, where it stands, and its word. -/
  | leaf (bits pa : Nat) (word : Word)
  /-- No valid entry. -/
  | nothing
  /-- A malformed entry: its level, the reason of R455, and where it stands. -/
  | malformed (level reason pa : Nat)
deriving DecidableEq, Repr, Inhabited

/-- How an access uses memory, for the conditions of R137 and R152. -/
structure Use where
  read   : Bool := false
  write  : Bool := false
  /-- A full/empty access (R165), WAITF or CLRF. -/
  fe     : Bool := false
  /-- A plain load or store of the thread, which may name the control window or the control registers. -/
  plain  : Bool := true
  /-- A relaxed access (R161), which may not name the control registers (R411). -/
  relaxed : Bool := false
  /-- It may be parked in a skid queue: a plain store, STF, CLRF (R143, R191). -/
  parks  : Bool := false
  /-- An instruction fetch needs X in place of R (R129). -/
  exec   : Bool := false
  /-- A PREF. -/
  ahead  : Bool := false
  /-- An access of a copy engine: a user access, but for a service core's. -/
  engine : Bool := false
  kind   : AccKind := .load
deriving DecidableEq, Repr, Inhabited

def Use.load : Use := { read := true }
def Use.store : Use := { write := true, parks := true, kind := .store }
def Use.atomic : Use := { read := true, write := true, plain := false, kind := .atomic }

/-- Where an address leads once every check has passed. -/
inductive Target where
  /-- A byte of pad, vault or rim memory. -/
  | mem (key : Nat)
  | window (off : Nat)
  | mcr (off : Nat)
  /-- A pad of a gang that is not resident: a store may be parked (R143). -/
  | absent (gang rank off : Nat)
  /-- A pad of a gang that has retired or was cancelled before it started: a store is discarded (R143). -/
  | gone
  /-- Memory of another module, or the pad of a gang that another module runs (R158, R346). -/
  | pod
  /-- Another gang's pad, for a cruise re-run: loads return 0 and stores are discarded (R368). -/
  | void
deriving DecidableEq, Repr, Inhabited

/-- A value, or the stop of the access. -/
abbrev Res (α : Type) := Except Stop α

namespace State

/-! ### Residency (R142, R143, R257, R258) -/

/-- The residency entry of a gang, from its table in rim memory. -/
def residency (s : State) (g : Grid) (gang : Nat) : BitVec 256 := BitVec.ofNat 256 (s.readN (rimKey (g.table + 32 * gang)) 32)
def resBase (e : BitVec 256) : Nat := (e.extractLsb' 0 16).toNat
def resRes (e : BitVec 256) : Bool := e.getLsbD 16
def resMove (e : BitVec 256) : Bool := e.getLsbD 17
def resRet (e : BitVec 256) : Bool := e.getLsbD 18
def resNst (e : BitVec 256) : Bool := e.getLsbD 19
def resSkipN (e : BitVec 256) : Nat := (e.extractLsb' 32 16).toNat
def resGen (e : BitVec 256) : BitVec 16 := e.extractLsb' 48 16
def resSkipPa (e : BitVec 256) : Nat := (e.extractLsb' 64 64).toNat
def resSkidPa (e : BitVec 256) : Nat := (e.extractLsb' 128 64).toNat
def resOvfPa (e : BitVec 256) : Nat := (e.extractLsb' 192 64).toNat

/-- The skip list an entry points to (R258). -/
def skipList (s : State) (e : BitVec 256) : List (BitVec 16) :=
  (List.range (resSkipN e)).map fun i => BitVec.ofNat 16 (s.readN (rimKey (resSkipPa e + 2 * i)) 2)

/-- The site of a rank (R258). -/
def siteOfRank (base n : Nat) (skips : List (BitVec 16)) : Nat :=
  skips.foldl (fun x o => if o.toNat ≤ x - base then x + 1 else x) (base + n)

/-- The pad of a virtual tile, as an access of an agent finds it. -/
def padTarget (s : State) (a : Nat) (v : BitVec 32) (off : Nat) : Target :=
  let t := s.tile a
  if gangOf v ≠ gangOf t.vtn && t.mark != .original then .void
  else if gangOf v = gangOf t.vtn then
    match s.agentOfRank a (rankOf v) with
    | some b =>
      let u := s.tile b
      if b == a || (s.hasTile b && u.handle == t.handle && u.vtn == v && u.mark == t.mark && !u.sealed) then .mem (tileKey b off)
      else .absent (gangOf v) (rankOf v) off
    | none => .absent (gangOf v) (rankOf v) off
  else match s.grid? t.handle with
    | none => .gone
    | some g =>
      if gangOf v < g.lo || g.hi ≤ gangOf v then .pod
      else
        let e := s.residency g (gangOf v)
        if resRet e || resNst e then .gone
        else if resRes e && !resMove e then
          let b := siteOfRank (resBase e) (rankOf v) (s.skipList e)
          let u := s.tile b
          if s.hasTile b && u.handle == t.handle && u.vtn == v && !u.sealed then .mem (tileKey b off)
          else .absent (gangOf v) (rankOf v) off
        else .absent (gangOf v) (rankOf v) off

/-- A tile fault to the gang scheduler, unless one for the gang is outstanding (R260). -/
def raiseTileFault (s : State) (h : Word) (gang : Nat) : State :=
  if s.tileFaults.contains (h, gang) then s else { s with tileFaults := s.tileFaults ++ [(h, gang)] }

/-- A virtual tile lies in an agent's grid (R142); a service core has no grid. -/
def inGrid (s : State) (a : Nat) (v : BitVec 32) : Bool :=
  !isCore a && match s.grid? (s.tile a).handle with
    | some g => decide (gangOf v < g.desc.gcnt) && decide (rankOf v < g.desc.gsz)
    | none => false

/-! ### Conditions 1 to 3 of R137, known at issue -/

/-- The space directory has a valid entry for a space (R149). -/
def spaceValid (s : State) (vd space : Nat) : Bool :=
  decide (space < s.vdDirLen vd) && s.readN (rimKey (s.vdDirBase vd + 16 * space)) 1 % 2 == 1

/-- The trap policy of a space, POL = 1 (R149, R156). -/
def spaceTraps (s : State) (vd space : Nat) : Bool := s.readN (rimKey (s.vdDirBase vd + 16 * space)) 1 / 2 % 2 == 1

/-- Partner VD and space of a VD on a module (R158, R413). -/
def podPartner (s : State) (vd m : Nat) : Option (Nat × Nat) :=
  let e := s.vdN vd (128 + 4 * m) 4
  if e / 256 % 2 = 1 then some (e % 256, e / 65536) else none

/-- Condition 1 of R137. -/
def addressOk (s : State) (a th : Nat) (addr : Word) (size : Nat) (u : Use) : Bool :=
  match tagOf addr with
  | 0 =>
    let off := fieldOf addr 0 16
    fieldOf addr 16 44 == 0 && (decide (off < 0x6000)
      || (0x7000 ≤ off && decide (off < 0x8000) && u.read && (size == 4 || size == 8) && (u.fe || (u.plain && !u.write))))
  | 1 => fieldOf addr 48 12 == 0 && decide (fieldOf addr 0 16 < 0x6000) && s.inGrid a (addr.extractLsb' 16 32)
  | 2 => fieldOf addr 36 24 == 0 && decide (fieldOf addr 20 16 < s.plenOf a)
  | 4 => fieldOf addr 56 4 == 0 && s.spaceValid (s.vdOf a) (s.dataSpace a)
  | 5 => fieldOf addr 56 4 == 0 && match s.podPartner (s.vdOf a) (fieldOf addr 50 6) with
    | some p => fieldOf addr 50 6 != s.moduleNo || s.spaceValid p.1 p.2
    | none => false
  | 12 => isCore a && (s.thread a th).sup && u.plain && !u.fe && !u.relaxed && size == 8 && fieldOf addr 24 36 == 0
  | _ => false

/-- Whether a space has full/empty bits (R136). -/
def hasFe (addr : Word) : Bool :=
  match tagOf addr with
  | 0 => decide (fieldOf addr 0 16 < 0x6000)
  | 1 | 2 => true
  | _ => false

/-- Conditions 1 to 3 of R137 in order. -/
def checkAddress (s : State) (a th : Nat) (addr : Word) (size : Nat) (u : Use) : Option (BitVec 8 × Word) :=
  if !s.addressOk a th addr size u then some (0x03, addr)
  else if addr.toNat % size != 0 then some (0x04, addr)
  else if u.fe && !hasFe addr then some (0x0B, addr)
  else none

/-! ### Rim translation (R148-R157) -/

/-- The station at which an agent's rim accesses enter (R11, R454). -/
def entryStation (a : Nat) : Nat :=
  if isCore a then (match coreNo a with | 0 => 52 | 1 => 60 | 2 => 28 | _ => 20)
  else
    let p := siteXY 8 a
    let north := p.2
    let east := 255 - p.1
    let south := 255 - p.2
    let west := p.1
    let best := min (min north east) (min south west)
    if north = best then p.1 / 16 else if east = best then 16 + p.2 / 16
    else if south = best then 32 + p.1 / 16 else 48 + p.2 / 16

/-- A cached leaf translation of an address (R154). -/
def tlbFind (s : State) (station vd space : Nat) (va : Nat) : Option TlbEntry :=
  s.tlb.find? fun e => e.station == station && e.vd == vd && e.space == space && va / 2 ^ e.bits == e.page

/-- The replacement tree of a station's set (R154). -/
def stationTree (s : State) (station set : Nat) : BitVec 7 := (Tab.get? s.tlbPlru (station * 512 + set)).getD 0

/-- An access goes through its cached leaf: the tree of the set turns away from the leaf's way (R154; DEDUCED, log 97). -/
def useLeaf (s : State) (station vd space va : Nat) : State :=
  match s.tlbFind station vd space va with
  | some e => { s with tlbPlru := Tab.set s.tlbPlru (station * 512 + e.set_) (plruTouch (s.stationTree station e.set_) e.way) }
  | none => s

/-- The physical address a leaf gives (R151). -/
def leafPa (e : TlbEntry) (va : Nat) : Nat := (e.leaf.extractLsb' 13 51).toNat * 8192 + va % 2 ^ e.bits

def leafV (w : Word) : Bool := w.getLsbD 0
def leafR (w : Word) : Bool := w.getLsbD 1
def leafW (w : Word) : Bool := w.getLsbD 2
def leafX (w : Word) : Bool := w.getLsbD 3
def leafU (w : Word) : Bool := w.getLsbD 4
def leafCh (w : Word) : Bool := w.getLsbD 5
def leafZ (w : Word) : Bool := w.getLsbD 6
def leafLvl (w : Word) : Nat := (w.extractLsb' 7 2).toNat

/-- The pending limit of a VD: out-of-range values are the nearest legal one (R155, R413). -/
def pendingLimit (s : State) (vd : Nat) : Nat := min 256 (s.vdN vd 26 2)
def walkerLimit (s : State) (vd : Nat) : Nat := min 16 (s.vdN vd 24 1)

/-! ### Reading the tables -/

/-- log2 of the page size of a leaf kind. -/
def lvlBits : Nat → Nat
  | 1 => 36 | 2 => 26 | _ => 16

/-- The kinds of entry legal at a level (R150). -/
def lvlLegal (level lvl : Nat) : Bool :=
  match level with
  | 1 => lvl == 0
  | 2 => lvl == 0 || lvl == 1
  | 3 => lvl == 0 || lvl == 2
  | _ => lvl == 3

/-- Walk from the table of a level, `fuel` levels deep. A table that does not lie in rim memory, which only a directory's ROOT can name,
has no valid leaf, and no table-format event goes out: R150 gives the range check for table entries (DESIGN CHOICE, log 86). -/
def walkFrom (s : State) (va level table : Nat) : Nat → WalkEnd
  | 0 => .nothing
  | fuel + 1 =>
    let pa := table + 8 * (va / 2 ^ (56 - 10 * level) % 1024)
    if rimBytes < pa + 8 then .nothing
    else
      let e := s.read64 (rimKey pa)
      let lvl := leafLvl e
      let next := (e.extractLsb' 13 51).toNat * 8192
      if !leafV e then .nothing
      else if !lvlLegal level lvl then .malformed level 0 pa
      else if rimBytes ≤ next || (lvl ≠ 0 && next % 2 ^ lvlBits lvl ≠ 0) then .malformed level 1 pa
      else if e.extractLsb' 9 4 != 0#4 then .malformed level 2 pa
      else if lvl = 0 then walkFrom s va (level + 1) next fuel
      else .leaf (lvlBits lvl) pa e

/-- The root table of a space (R149). -/
def spaceRoot (s : State) (vd space : Nat) : Nat := s.readN (rimKey (s.vdDirBase vd + 16 * space)) 8 / 8192 * 8192

/-- The walk of an address in a space of a VD. -/
def walkTables (s : State) (vd space va : Nat) : WalkEnd :=
  if s.spaceValid vd space then s.walkFrom va 1 (s.spaceRoot vd space) 4 else .nothing

/-- log2 of the page size of the leaf that an address leads to. Where there is no leaf, misses and faults merge on 64 KiB, the least
page: R155 and R156 speak of the leaf page only (DESIGN CHOICE, log 73). -/
def leafBits (s : State) (vd space va : Nat) : Nat :=
  match s.walkTables vd space va with
  | .leaf bits _ _ => bits
  | .nothing | .malformed _ _ _ => 16

/-- An address lies on the page of another. -/
def onPage (bits : Nat) (x y : Word) : Bool := x.toNat % 2 ^ 56 / 2 ^ bits == y.toNat % 2 ^ 56 / 2 ^ bits

/-- A walk of a station's VD and space that an address joins. -/
def joinsWalk (station vd space : Nat) (addr : Word) (w : Walk) : Bool :=
  w.station == station && w.vd == vd && w.space == space && onPage w.bits w.addr addr
/-- A rim fault of a station's VD and space on which an address merges. -/
def joinsFault (station vd space : Nat) (addr : Word) (f : RimFault) : Bool :=
  f.station == station && f.vd == vd && f.space == space && onPage f.bits f.addr addr

/-- A miss joins the pending walk of its leaf page, or takes an entry, or is held back (R155). -/
def addWalk (s : State) (w : Walk) : State :=
  let same (x : Walk) : Bool := joinsWalk w.station w.vd w.space w.addr x
  if s.walks.any same then { s with walks := mapIf same (fun x => { x with ahead := x.ahead && w.ahead }) s.walks }
  else
    let here := s.walks.filter fun x => x.station == w.station && !x.heldBack
    let full := 256 ≤ here.length || s.pendingLimit w.vd ≤ (here.filter fun x => x.vd == w.vd).length
    { s with walks := s.walks ++ [{ w with heldBack := full, bits := s.leafBits w.vd w.space (w.addr.toNat % 2 ^ 56) }] }

/-- A rim fault under the wait policy is already waiting for module software at the page. -/
def rimFaultAt (s : State) (station vd space : Nat) (addr : Word) : Bool := s.rimFaults.any (joinsFault station vd space addr)

/-- The agent, or the unit without a thread, that asks a station for a translation. -/
structure Asker where
  station : Nat
  vd      : Nat
  space   : Nat
  vtn     : BitVec 32
  thread  : Nat
  /-- U is ignored (R152). -/
  sup     : Bool
deriving DecidableEq, Repr, Inhabited

/-- An access of an asker has gone through its leaf. -/
def usedBy (s : State) (q : Asker) (addr : Word) : State := s.useLeaf q.station q.vd q.space (addr.toNat % 2 ^ 56)

/-- Translate a rim address at a station: a physical key, or the stop of conditions 4 to 6 of R137. -/
def translateAt (s : State) (q : Asker) (addr : Word) (u : Use) : Res Nat :=
  let va := addr.toNat % 2 ^ 56
  match s.tlbFind q.station q.vd q.space va with
  | none =>
    if s.rimFaultAt q.station q.vd q.space addr then .error (.park (.rimFault q.station q.vd q.space addr addr))
    else .error (.parkIn (.walk q.station q.vd q.space addr addr) (s.addWalk
      { station := q.station, vd := q.vd, space := q.space, addr := addr, kind := u.kind, vtn := q.vtn, thread := q.thread, ahead := u.ahead }))
  | some e =>
    if (u.read && !leafR e.leaf) || (u.write && !leafW e.leaf) || (u.exec && !leafX e.leaf) || (!q.sup && !leafU e.leaf) then .error (.trap 0x06 addr)
    else if u.write && leafCh e.leaf then .error (.park (.cruiseHold addr))
    else if rimBytes ≤ leafPa e va then .error (.fault (.physicalHole (leafPa e va)))
    else .ok (rimKey (leafPa e va))

/-- Translate for an agent's thread. -/
def translate (s : State) (a th vd space : Nat) (sup : Bool) (addr : Word) (u : Use) : Res Nat :=
  s.translateAt ⟨entryStation a, vd, space, s.recordVtn a, th, sup⟩ addr u

/-- The stops of an access by its translated address, under the address that it names: TVAL holds that one (R137). -/
def underName (name : Word) : Stop → Stop
  | .trap cause _ => .trap cause name
  | .park (.walk st vd sp va _) => .park (.walk st vd sp va name)
  | .park (.rimFault st vd sp va _) => .park (.rimFault st vd sp va name)
  | .park (.cruiseHold _) => .park (.cruiseHold name)
  | .parkIn (.walk st vd sp va _) s => .parkIn (.walk st vd sp va name) s
  | e => e

/-- Where an access leads after conditions 1 to 3: conditions 4 to 7 of R137 and the waits. A pod address of this module is translated, and
reported in a rim fault's record of kind 6, as the partner's a[49:0] without a tag (DESIGN CHOICE, log 55). -/
def resolve (s : State) (a th : Nat) (addr : Word) (u : Use) : Res Target :=
  let sup := if u.engine then isCore a else (s.thread a th).sup
  match tagOf addr with
  | 0 =>
    let off := fieldOf addr 0 16
    if off < 0x6000 then .ok (.mem (tileKey a off)) else .ok (.window off)
  | 1 =>
    match s.padTarget a (addr.extractLsb' 16 32) (fieldOf addr 0 16) with
    | .gone => if u.parks then .ok .gone else .error (.trap 0x03 addr)
    | .absent g r o =>
      if u.parks then .ok (.absent g r o)
      else .error (.parkIn (.absent g addr) (s.raiseTileFault (s.tile a).handle g))
    | t => .ok t
  | 2 =>
    let site := s.pbaseOf a + fieldOf addr 20 16
    if s.zeroing.contains site then .error (.park (.zeroing site)) else .ok (.mem (vaultKey site (fieldOf addr 0 20)))
  | 4 => (s.translate a th (s.vdOf a) (s.dataSpace a) sup addr u).map .mem
  | 5 =>
    if fieldOf addr 50 6 = s.moduleNo then
      match s.podPartner (s.vdOf a) (fieldOf addr 50 6) with
      | some p =>
        if !s.spaceValid p.1 p.2 then .error (.trap 0x03 addr)
        else match s.translate a th p.1 p.2 sup (BitVec.ofNat 64 (fieldOf addr 0 50)) { u with kind := .podRequest } with
          | .error e => .error (underName addr e)
          | .ok k => .ok (.mem k)
      | none => .error (.trap 0x03 addr)
    else .ok .pod
  | 12 => .ok (.mcr (fieldOf addr 0 24))
  | _ => .error (.trap 0x03 addr)

/-- An access of an agent has gone through the station that translates its address: rim memory, or this module's under a partner's
space (R154, R158). -/
def usePage (s : State) (a : Nat) (addr : Word) : State :=
  match tagOf addr with
  | 4 => s.useLeaf (entryStation a) (s.vdOf a) (s.dataSpace a) (addr.toNat % 2 ^ 56)
  | 5 => if fieldOf addr 50 6 = s.moduleNo then (match s.podPartner (s.vdOf a) (fieldOf addr 50 6) with
      | some p => s.useLeaf (entryStation a) p.1 p.2 (fieldOf addr 0 50)
      | none => s) else s
  | _ => s

/-- An access leads to another module: to its rim memory, or to the pad of a gang that runs there (R158, R346). -/
def isFar (s : State) (a : Nat) (addr : Word) : Bool :=
  match tagOf addr with
  | 1 => s.padTarget a (addr.extractLsb' 16 32) (fieldOf addr 0 16) == .pod
  | 5 => fieldOf addr 50 6 != s.moduleNo
  | _ => false

end State
end Sys2Proof.Machine
end

