-- ==== Sys2Proof/Machine/Ring.lean ====
section
/-! DEFINITION. Record rings in rim memory: POST queues, skid queues and overflow rings (R255-R260, R457, R458). -/

namespace Sys2Proof.Machine

namespace State

/-! ### Rings (R255, R256) -/

def ringBase (s : State) (hdr : Nat) : Nat := s.readN (rimKey hdr) 8
/-- A capacity of 0 is taken as 1, its least legal value. -/
def ringCapOf (s : State) (hdr : Nat) : Nat := max 1 (s.readN (rimKey (hdr + 8)) 4)
def ringTail (s : State) (hdr : Nat) : Nat := s.readN (rimKey (hdr + 16)) 8
def ringHead (s : State) (hdr : Nat) : Nat := s.readN (rimKey (hdr + 24)) 8
def ringUsed (s : State) (hdr : Nat) : Nat := (BitVec.ofNat 64 (s.ringTail hdr) - BitVec.ofNat 64 (s.ringHead hdr)).toNat
/-- Key of the record of a running count. -/
def ringSlot (s : State) (hdr i : Nat) : Nat := rimKey (s.ringBase hdr + 32 * (i % s.ringCapOf hdr))

/-- Append a record to a ring with physical addresses: the record, TAIL, then DOOR; `none` where it is full (R256). -/
def ringAppend (s : State) (hdr : Nat) (r : BitVec 256) : Option State :=
  if s.ringCapOf hdr ≤ s.ringUsed hdr then none
  else
    let t := s.ringTail hdr
    let s1 := s.store (rimKey (hdr + 16)) 8 (t + 1)
    let s2 := s1.store (s.ringSlot hdr t) 32 r.toNat
    some (s2.store (rimKey (hdr + 32)) 8 (s.readN (rimKey (hdr + 32)) 8 + 1))

/-- The record of a running count, as 256 bits. -/
def ringRecord (s : State) (hdr i : Nat) : BitVec 256 := BitVec.ofNat 256 (s.readN (s.ringSlot hdr i) 32)

def recKind (r : BitVec 256) : Nat := (r.extractLsb' 0 8).toNat
def recRank (r : BitVec 256) : Nat := (r.extractLsb' 32 16).toNat

/-- The running counts of the records of a ring that are not consumed, from HEAD (R458). -/
def ringLive (s : State) (hdr : Nat) : List Nat :=
  ((List.range (min (s.ringUsed hdr) (s.ringCapOf hdr))).map (s.ringHead hdr + ·)).filter fun i => recKind (s.ringRecord hdr i) != 0

/-- The rank's oldest record of a ring that meets a test (R458). -/
def ringOldest (s : State) (hdr rank : Nat) (p : BitVec 256 → Bool) : Option Nat :=
  (s.ringLive hdr).find? fun i => recRank (s.ringRecord hdr i) == rank && p (s.ringRecord hdr i)

/-- HEAD passes every consumed record in front (R458). -/
def advanceHead (s : State) (hdr : Nat) : Nat → State
  | 0 => s
  | n + 1 =>
    if s.ringUsed hdr = 0 then s
    else if recKind (s.ringRecord hdr (s.ringHead hdr)) = 0 then
      advanceHead (s.store (rimKey (hdr + 24)) 8 (s.ringHead hdr + 1)) hdr n
    else s

/-- Mark a record consumed, and advance HEAD (R458; that the table of R451 has such a record unchanged is log 100, DEDUCED). -/
def consume (s : State) (hdr i : Nat) : State :=
  let s := s.store (s.ringSlot hdr i) 1 0
  s.advanceHead hdr (min (s.ringUsed hdr) (s.ringCapOf hdr))

/-! ### Skid queues (R259, R260) -/

/-- A skid record (R259). -/
def skidRecord (kind sub off rank : Nat) (sender : BitVec 32) (w12 data : Nat) : BitVec 256 :=
  record256 [(0, 1, kind), (1, 1, sub), (2, 2, off), (4, 2, rank), (8, 4, sender.toNat), (12, 4, w12), (16, 16, data)]

/-- Append to the skid queue of a gang of a grid; the first record of an empty queue raises a tile fault (R260). What an earlier record of
the slot was is forgotten. -/
def skidAppend (s : State) (h : Word) (gang : Nat) (r : BitVec 256) (quiet : Bool := false) : Option State :=
  match s.grid? h with
  | none => some s
  | some g =>
    if g.complete then some s
    else
    let hdr := resSkidPa (s.residency g gang)
    let empty := s.ringUsed hdr == 0
    let slot := s.ringSlot hdr (s.ringTail hdr)
    (s.ringAppend hdr r).map fun s =>
      let s := { s with sentWords := NSet.erase s.sentWords slot }
      if empty && !quiet then s.raiseTileFault h gang else s

/-- What comes for a tile of a re-run that cannot take it waits for the tile, behind what waits already; a dormant run is ready again
(R18, R354, R368). -/
def parkAway (s : State) (m : Msg) : State :=
  { s with
    net := s.net ++ [{ m with id := s.nextMsg, parked := true, phase := .flight, hold := none }]
    nextMsg := s.nextMsg + 1
    gangs := mapIf (fun g => g.handle == m.handle && g.index == gangOf m.dest && g.mark == m.mark) (fun g => { g with dormant := false }) s.gangs }

/-- A store, STF, STFD or CLRF of a tile to a pad that is away: a record of the gang's skid queue, or none where that is full (R143, R259);
a re-run has no skid queue, and its own run's tile takes it later (R368). -/
def parkPad (s : State) (a gang rank : Nat) (r : BitVec 256) (k : MsgKind) : Option State :=
  let t := s.tile a
  if t.mark == .original then s.skidAppend t.handle gang r
  else some (s.parkAway { id := 0, kind := k, agent := a, thread := 0, vtn := t.vtn, handle := t.handle, vd := t.vd,
                          dest := BitVec.ofNat 32 (gang * 65536 + rank), mark := t.mark })

/-- The tile's gang has rings: it is not a service core's nor a re-run's, and its grid is not complete. -/
def hasRings (s : State) (a : Nat) : Bool :=
  let t := s.tile a
  !isCore a && t.mark == .original && match s.grid? t.handle with
    | some g => !g.complete
    | none => false

/-- The headers of the rings of a tile's gang: skid queue and overflow ring. -/
def skidHdr (s : State) (h : Word) (gang : Nat) : Nat :=
  match s.grid? h with | some g => resSkidPa (s.residency g gang) | none => 0
def ovfHdr (s : State) (h : Word) (gang : Nat) : Nat :=
  match s.grid? h with | some g => resOvfPa (s.residency g gang) | none => 0

/-- A tile's oldest word outside its inbox: in the overflow ring, else a continuation of the skid queue (R246, R457). -/
def outside (s : State) (a : Nat) : Option (Nat × Nat) :=
  let t := s.tile a
  if !s.hasRings a then none
  else
    let o := s.ovfHdr t.handle (gangOf t.vtn)
    let k := s.skidHdr t.handle (gangOf t.vtn)
    match s.ringOldest o (rankOf t.vtn) (fun _ => true) with
    | some i => some (o, i)
    | none => (s.ringOldest k (rankOf t.vtn) fun r => recKind r == 7).map fun i => (k, i)

/-- A tile has a continuation (R457). -/
def hasContinuation (s : State) (a : Nat) : Bool :=
  let t := s.tile a
  s.hasRings a && (s.ringOldest (s.skidHdr t.handle (gangOf t.vtn)) (rankOf t.vtn) fun r => recKind r == 7).isSome

/-- The data of the record appended last to a gang's skid queue is poisoned (R244, R321). -/
def poisonLast (s : State) (h : Word) (gang : Nat) : State :=
  let hdr := s.skidHdr h gang
  { s with poison := NSet.insert s.poison (dwordOf (s.ringSlot hdr (s.ringTail hdr - 1) + 16)) }

end State
end Sys2Proof.Machine
end

