-- ==== Sys2Proof/Machine/Walker.lean ====
section
/-! DEFINITION. The stations' walks (R149-R157): reading the tables, filling a page, the two fault policies, replay; and the
invalidations of TLBINV and of a change of owner. -/

namespace Sys2Proof.Machine

namespace State

/-! ### The instruction at a PC -/

/-- A halfword of code as a thread would fetch it, read without a trace: from its course's cache, or through the tables; none where it
cannot be read so. -/
def codeHalf (s : State) (a th : Nat) (pc : Word) : Option Half :=
  let va := pc.toNat % 2 ^ 56
  match if isCore a then none else s.lineFind (courseOf a) (s.vdOf a) (s.fetchSpace a th) (va / 64) with
  | some l => some (l.data.extractLsb' (16 * (va / 2 % 32)) 16)
  | none => if tagOf pc != 4 then none else match s.walkTables (s.vdOf a) (s.fetchSpace a th) va with
    | .leaf bits _ w =>
      let pa := (w.extractLsb' 13 51).toNat * 8192 + va % 2 ^ bits
      if leafZ w && pa < rimBytes then some (BitVec.ofNat 16 (s.readN (rimKey pa) 2)) else none
    | .nothing | .malformed _ _ _ => none

/-- Up to `n` halfwords of code from an address on. -/
def codeFrom (s : State) (a th : Nat) (pc : Word) : Nat → List Half
  | 0 => []
  | n + 1 => match s.codeHalf a th pc with
    | some h => h :: codeFrom s a th (pc + 2) n
    | none => []

/-- The instruction that a thread would issue at its PC, and the address after it, where they can be read without a trace. -/
def instrAt (s : State) (a th : Nat) : Option (Instr × Word) :=
  let pc := (s.thread a th).pc
  let hs := s.codeFrom a th pc 6
  match decode hs with
  | .ok (i, rest) => some (i, pc + BitVec.ofNat 64 (2 * (hs.length - rest.length)))
  | .error _ => none

/-! ### What waits at a station -/

/-- Change what threads, engines, messages, dispatchers and ports wait for. -/
def mapParks (s : State) (f : Park → Park) : State :=
  let thread (t : Thread) : Thread :=
    { t with park := t.park.map f, relaxed := t.relaxed.map fun r => { r with hold := r.hold.map f } }
  let tile (t : Tile) : Tile :=
    { t with threads := t.threads.map thread
             copies := t.copies.map fun c => c.map fun c => { c with holds := c.holds.map f } }
  let stage (q : HostStage) : HostStage := match q with
    | .reading n p => .reading n (f p)
    | .storing r v p => .storing r v (f p)
    | .retry n => .retry n
    | .launched r => .launched r
  { s with
    tiles := s.tiles.map fun p => (p.1, tile p.2)
    net := s.net.map fun m => { m with hold := m.hold.map f }
    grids := s.grids.map fun g => { g with imageHold := g.imageHold.map f, recHold := g.recHold.map f }
    hostPending := s.hostPending.map fun r => { r with hold := r.hold.map f }
    hostQueues := s.hostQueues.map fun q => (q.1, stage q.2)
    podPending := s.podPending.map fun r => { r with hold := r.hold.map f }
    fills := s.fills.map fun r => { r with hold := r.hold.map f }
    attestHold := s.attestHold.map f }

/-- The page of 64 KiB of an address. -/
def page64 (addr : Word) : Nat := addr.toNat % 2 ^ 56 / 65536

/-- Threads whose park meets a test, with the addresses that `f` finds in it. -/
def parkedWith (s : State) (f : Park → Option Word) : List (Nat × Nat × Word) :=
  s.tiles.flatMap fun p => [0, 1, 2, 3].filterMap fun th =>
    match (vget p.2.threads th {}).park with
    | some k => (f k).map fun addr => (p.1, th, addr)
    | none => none

/-- The address that an access names whose wait is for a walk, or for a rim fault. -/
def walkAddr (w : Walk) : Park → Option Word
  | .walk st v sp addr name => if joinsWalk st v sp addr w then some name else none
  | _ => none
def faultAddr (f : RimFault) : Park → Option Word
  | .rimFault st v sp addr name => if joinsFault st v sp addr f then some name else none
  | _ => none

/-- Every access of a page that waits so ends with cause 0x05 (R156): threads trap, other units meet it when they go on. -/
def failWaiting (s : State) (f : Park → Option Word) : State :=
  let s := (s.parkedWith f).foldl (fun s p => s.trapThread p.1 p.2.1 0x05 p.2.2) s
  s.mapParks fun k => match f k with
    | some addr => .pageFault addr
    | none => k

/-! ### Ending a walk (R153-R156) -/

/-- The ways of a station's sets that a VD's fills may replace: all eight for a VD without an entry, whose mask is 0 (R154, R413). -/
def stationWays (s : State) (vd : Nat) : BitVec 8 := let m := s.vdN vd 23 1; if m = 0 then 0xFF else BitVec.ofNat 8 m

/-- Put a leaf into a station's cache: over the entry of its page, or else in the way of its set that the tree chooses among those
of its VD (R154). -/
def tlbFill (s : State) (e : TlbEntry) : State :=
  let set := Config.tlbSet e.vd e.space e.page % 512
  let same (x : TlbEntry) : Bool := x.station == e.station && x.vd == e.vd && x.space == e.space && x.bits == e.bits && x.page == e.page
  let tree := s.stationTree e.station set
  let w := match s.tlb.find? same with
    | some x => x.way
    | none => plruVictim tree (s.stationWays e.vd)
  let keep := s.tlb.filter fun x => !same x && !(x.station == e.station && x.set_ == set && x.way == w)
  { s with
    tlb := keep ++ [{ e with set_ := set, way := w }]
    tlbPlru := Tab.set s.tlbPlru (e.station * 512 + set) (plruTouch tree w) }

/-- Drop the order-table entries of a range (R159, R206). -/
def dropOrders (s : State) (key n : Nat) : State := { s with orders := s.orders.filter fun o => !(key ≤ o.key && o.key < key + n) }

/-- A leaf with Z = 0 has its page zeroed and Z set, in memory and wherever it is cached (R153, R157); the page's order-table entries
are freed (R159, R206). -/
def pageFill (s : State) (bits pa : Nat) (word : Word) : State × Word :=
  if leafZ word then (s, word)
  else
    let w := word ||| 0x40#64
    let base := (word.extractLsb' 13 51).toNat * 8192 / 2 ^ bits * 2 ^ bits
    let s := ((s.zeroRange (rimKey base) (2 ^ bits)).dropOrders (rimKey base) (2 ^ bits)).store (rimKey pa) 8 w.toNat
    ({ s with tlb := mapIf (fun e => e.leafPa == pa) (fun e => { e with leaf := e.leaf ||| 0x40#64 }) s.tlb }, w)

def accCode : AccKind → Nat
  | .load => 0 | .store => 1 | .atomic => 2 | .fetch => 3 | .engineRead => 4 | .engineWrite => 5 | .podRequest => 6

/-- A rim fault under the wait policy: its record goes out and every merged access waits at the station (R156). -/
def rimWait (s : State) (w : Walk) : State :=
  let tag : Word := BitVec.ofNat 64 ((s.faultTag + 1) % 2 ^ 63)
  let s := { s with faultTag := s.faultTag + 1, rimFaults := s.rimFaults ++ [RimFault.mk w.station w.vd w.space w.addr w.kind w.vtn w.thread w.bits tag] }
  let s := s.addRecord (.supervisor w.vd) (record256 [(0, 8, w.addr.toNat), (8, 2, w.space), (10, 1, w.vd), (11, 1, accCode w.kind),
    (12, 4, w.vtn.toNat), (16, 1, w.thread), (17, 1, w.station), (24, 8, tag.toNat)])
  s.mapParks fun k => match k with
    | .walk st v sp addr name => if joinsWalk st v sp addr w then .rimFault st v sp addr name else k
    | _ => k

/-- A table-format event, kind 7 of R455. -/
def formatRecord (s : State) (w : Walk) (level reason pa : Nat) : State :=
  s.addRecord (.supervisor w.vd) (record256 [(0, 8, w.addr.toNat % 2 ^ 56), (8, 2, w.space), (10, 1, w.vd), (11, 1, 7),
    (12, 4, w.vtn.toNat), (16, 1, w.thread), (17, 1, w.station), (18, 1, level), (19, 1, reason), (24, 8, pa)])

/-- Fills of one line with equal tags are one (R131). -/
def sameFill (f g : Fill) : Bool := f.course == g.course && f.vd == g.vd && f.space == g.space && f.line == g.line

/-- The first miss of a fill. -/
def leadOf (s : State) (f : Fill) : Fill := (s.fills.find? (sameFill f)).getD f

/-- A counter of 16 bits that saturates. -/
def count16 (v : BitVec 16) : BitVec 16 := if v == 0xFFFF#16 then v else v + 1

/-- A fault met by fetching ahead, or a parity error, is charged to a site. -/
def countFetch (s : State) (a : Nat) : State := s.modSite a fun x => { x with fetch := count16 x.fetch }

/-- Fetches ahead on a page that cannot be translated are dropped; those of the fetch unit are counted, once for a fill, at the site of its
first miss (R133, R135). -/
def dropPrefetch (s : State) (w : Walk) : State :=
  let gone (f : Fill) : Bool := f.ahead && f.vd == w.vd && f.space == w.space && entryStation (s.leadOf f).agent == w.station
    && onPage w.bits (BitVec.ofNat 64 (64 * f.line)) w.addr
  let leads := ((s.fills.filter fun f => gone f && f.unit).map s.leadOf).eraseDups
  leads.foldl (fun s f => s.countFetch f.agent) { s with fills := s.fills.filter fun f => !gone f }

/-- No valid leaf: the space's policy decides (R156). -/
def noLeaf (s : State) (w : Walk) : State :=
  let s := s.dropPrefetch w
  if w.ahead then s
  else if s.spaceTraps w.vd w.space then s.failWaiting (walkAddr w) else s.rimWait w

/-- A walk finishes. -/
def finishWalk (s : State) (w : Walk) : State :=
  let s := { s with walks := s.walks.filter fun x => x != w }
  match s.walkTables w.vd w.space (w.addr.toNat % 2 ^ 56) with
  | .leaf bits pa word =>
    let r := s.pageFill bits pa word
    r.1.tlbFill { station := w.station, vd := w.vd, space := w.space, bits := bits, page := w.addr.toNat % 2 ^ 56 / 2 ^ bits, leaf := r.2, leafPa := pa }
  | .nothing => s.noLeaf w
  | .malformed level reason pa => (s.formatRecord w level reason pa).noLeaf w

/-- Walkers of a station take pending entries whose VD is below its limit: with a limit of 0 none is taken (R155). -/
def mayWalk (s : State) (w : Walk) : Bool := !w.heldBack && decide (0 < s.walkerLimit w.vd)

/-- Held-back misses of a station enter the table as it has room (R155). -/
def admitWalks (s : State) (station : Nat) : List Walk → List Walk
  | [] => []
  | w :: rest =>
    let others := admitWalks s station rest
    if w.station == station && w.heldBack then
      let here := s.walks.filter fun x => x.station == station && !x.heldBack
      if here.length < 256 && (here.filter fun x => x.vd == w.vd).length < s.pendingLimit w.vd then { w with heldBack := false } :: rest
      else w :: others
    else w :: others

/-- A write of a replay register: the fault with the tag is walked again, or aborted (R156). -/
def replayFault (s : State) (station : Nat) (v : Word) : State :=
  match s.rimFaults.find? fun f => f.station == station && f.tag == v &&& 0x7FFFFFFFFFFFFFFF#64 with
  | none => s
  | some f =>
    let s := { s with rimFaults := s.rimFaults.filter fun x => x != f }
    if v.getLsbD 63 then s.failWaiting (faultAddr f)
    else
      let s := s.mapParks fun k => match k with
        | .rimFault st vd sp addr name => if joinsFault st vd sp addr f then .walk st vd sp addr name else k
        | _ => k
      s.addWalk { station := station, vd := f.vd, space := f.space, addr := f.addr, kind := f.kind, vtn := f.vtn, thread := f.thread }

/-! ### Held inputs (R367) -/

/-- The pages of 64 KiB that a region of the rim touches. -/
def pagesOf (addr : Word) (n : Nat) : List Nat :=
  if n = 0 then [] else
    let a := addr.toNat % 2 ^ 56
    (List.range ((a + n - 1) / 65536 - a / 65536 + 1)).map fun i => (a / 65536 + i) * 65536

/-- Set or clear CH in a leaf, in memory and in every cache (R157, R367). -/
def setHold (s : State) (vd space va : Nat) (b : Bool) : State :=
  match s.walkTables vd space va with
  | .leaf _ pa word =>
    let f (w : Word) : Word := if b then w ||| 0x20#64 else w &&& ~~~0x20#64
    let s := s.store (rimKey pa) 8 (f word).toNat
    { s with tlb := mapIf (fun e => e.leafPa == pa) (fun e => { e with leaf := f e.leaf }) s.tlb }
  | .nothing | .malformed _ _ _ => s

/-- Pages of a grid's input regions and pad image. -/
def heldPages (g : Grid) : List Nat :=
  ((g.io.filter fun r => !r.output && tagOf r.addr == 4).flatMap fun r => pagesOf r.addr r.len) ++ pagesOf g.desc.image g.desc.imsz

/-! ### Invalidation (R132, R157, R159, R405) -/

/-- Drop the cached leaves and course lines that meet a scope: VD, space, and a range of 64 KiB pages. -/
def invalidate (s : State) (vd : Nat) (space : Option Nat) (range : Option (Nat × Nat)) : State :=
  let inSpace (n : Nat) : Bool := match space with
    | some k => n == k
    | none => true
  let meets (lo len : Nat) : Bool := match range with
    | some (a, n) => decide (a < lo + len) && decide (lo < a + n)
    | none => true
  { s with
    tlb := s.tlb.filter fun e => !(e.vd == vd && inSpace e.space && meets (e.page * 2 ^ e.bits) (2 ^ e.bits))
    icache := s.icache.filter fun l => !(l.vd == vd && inSpace l.space && meets (l.line * 64) 64) }

/-- The zeroing engine clears a vault: every word empty, its order-table entries freed, each doubleword a write to its watchers
(R159, R206, R231). -/
def zeroVault (s : State) (site : Nat) : State :=
  let k := vaultKey site 0
  ((s.zeroRange k 1048576).rollWatchers k 1048576).dropOrders k 1048576

end State
end Sys2Proof.Machine
end

