-- ==== Sys2Proof/Machine/Mcr.lean ====
section
/-! DEFINITION. Module control registers (R411-R413): what each block reads, what a write to it does, and what the host may write. -/

namespace Sys2Proof.Machine

/-- A cruise report record (R373). -/
def cruiseReport (kind vd module gang : Nat) (handle : Word) (w16 score : Nat) : BitVec 256 :=
  record256 [(0, 1, kind), (1, 1, vd), (2, 2, module), (4, 4, gang), (8, 8, handle.toNat), (16, 2, w16), (18, 1, score)]

namespace State

/-! ### The configuration blob (R1, R2, R4, R420; log 10) -/

/-- A byte of a flash region at reset: 0 and 1 the firmware slots, 2 and 3 the marker copies, 4 the configuration blob, which no firmware
write reaches. -/
def flashByte (region off : Nat) : Byte := Config.flash (region * 2 ^ 32 + off)
def flashN (region off n : Nat) : Nat := (List.range n).foldr (fun i r => (flashByte region (off + i)).toNat + 256 * r) 0
/-- The module's bin: 0 A, 1 B, 2 C. -/
def moduleBin : Nat := flashN 4 0 8 % 3
/-- The working sites that a bin guarantees (R1). -/
def binSites : Nat → Nat
  | 0 => 64512
  | 1 => 61440
  | _ => 57344
/-- The blob records a site as defective. It records no more defects than the module's bin allows (R1). -/
def siteDefective (a : Nat) : Bool :=
  Config.defective a && decide (((List.range a).filter Config.defective).length < 65536 - binSites moduleBin)

/-! ### Sites (R390, R388) -/

/-- The state of a site: the blob's defects are DEFECTIVE from boot, and never hold a tile (R4, R390). -/
def siteState (s : State) (a : Nat) : SiteState :=
  match (s.site a).state with
  | .free => if siteDefective a then .defective else .free
  | .loaded => .loaded
  | .running => .running
  | .stopping => .stopping
  | .stopped => .stopped
  | .quarantined => .quarantined
  | .defective => .defective
def powerOff (s : State) (a : Nat) : Bool := s.mcrN (0x60000 + a) 1 % 2 == 1
def working (s : State) (a : Nat) : Bool := s.siteState a != .defective
/-- The placement pool of a VD's partition (R388): none where the VD is not active. -/
def poolOf (s : State) (vd : Nat) : List Nat :=
  if s.vdActive vd then ((List.range (s.vdPlen vd)).map (s.vdPbase vd + ·)).filter fun a =>
    s.siteState a != .defective && s.siteState a != .quarantined
  else []

/-- A site may be switched off only where it holds no tile (R413). -/
def mayPower (s : State) (a : Nat) : Bool :=
  match s.siteState a with
  | .free | .defective | .quarantined => true
  | .loaded | .running | .stopping | .stopped => false

/-- Write the power bits of a site; clock-off is bit 1, power-off bit 0. -/
def writePower (s : State) (a v : Nat) : State :=
  if v % 4 = 0 || s.mayPower a then s.setMcrN (0x60000 + a) 1 (v % 4) else s

/-! ### VD entries (R388, R413) -/

/-- The bits of a doubleword of a VD entry that are kept. -/
def vdMask (off : Nat) : Word :=
  if off = 0 then 0x0000FFFFFFFF0007 else if off = 24 then 0xFFFFFFFFFFFF00FF else if off = 48 then 0x00000000FFFFFFFF
  else if off ≤ 72 then 0xFFFFFFFFFFFFFFFF else if off < 128 then 0 else if off < 384 then 0xFFFF01FFFFFF01FF else 0

/-- Active VDs but one. -/
def otherActive (s : State) (vd : Nat) : List Nat := (List.range 256).filter fun v => v != vd && s.vdActive v

/-- Every site that leaves an interval holds no tile. -/
def mayLeave (s : State) (p0 n0 p1 n1 : Nat) : Bool :=
  (List.range n0).all fun i => (p1 ≤ p0 + i && p0 + i < p1 + n1) || s.mayPower (p0 + i)

/-- A VD departs from courses that hold no site of it any more: its course lines go; all translations on deactivation (R132, R159). -/
def departVd (s : State) (vd p1 n1 : Nat) (gone : Bool) : State :=
  let stays (c : Nat) : Bool := !gone && (List.range n1).any fun i => courseOf (p1 + i) == c
  { s with
    icache := s.icache.filter fun l => l.vd != vd || stays l.course
    tlb := if gone then s.tlb.filter fun e => e.vd != vd else s.tlb }

/-- Audits of a VD that is destroyed end without a verdict, reason 6 (R370). -/
def endAudits (s : State) (p : Audit → Bool) (reason : Nat) : State :=
  let s := (s.audits.filter p).foldl (fun s a => s.addRecord .cruise
    (cruiseReport 3 a.vd s.moduleNo a.gang (handleOf a.handle) reason 0)) s
  { s with audits := s.audits.filter fun a => !p a }

/-- A VD is destroyed: its audits end, the holds of its grids are cleared (R367, R370), and nothing of its grids stays. -/
def destroyVd (s : State) (vd : Nat) : State :=
  let mine (g : Grid) : Bool := g.vd == vd
  let s := s.endAudits (fun a => a.vd == vd) 6
  let s := (s.grids.filter fun g => mine g && g.holds).foldl (fun s g =>
    (heldPages g).foldl (fun s va => s.setHold vd g.desc.space va false) s) s
  { s with
    grids := s.grids.filter fun g => !mine g
    gangs := s.gangs.filter fun r => r.vd != vd
    swap := s.swap.filter fun b => b.vd != vd
    tileFaults := s.tileFaults.filter fun f => s.grids.any fun g => g.handle == f.1 && !mine g
    overlays := s.overlays.filter fun o => s.grids.any fun g => g.handle == o.handle && !mine g
    away := s.away.filter fun r => s.grids.any fun g => g.handle == r.gid && !mine g }

/-- Bytes 0 to 7 of a VD entry: activate, resize or deactivate, where R388 allows it. -/
def writeVdWord (s : State) (vd : Nat) (v : Word) : State :=
  let v := v &&& vdMask 0
  let on := v.getLsbD 0
  let p1 := (v.extractLsb' 16 16).toNat
  let n1 := (v.extractLsb' 32 16).toNat + 1
  let was := s.vdActive vd
  let p0 := s.vdPbase vd
  let n0 := if was then s.vdPlen vd else 0
  let n2 := if on then n1 else 0
  let apart := (s.otherActive vd).all fun w => p1 + n1 ≤ s.vdPbase w || s.vdPbase w + s.vdPlen w ≤ p1
  let legal := p1 + n1 ≤ 65536 && apart && (s.otherActive vd).length < 64 && s.feature 0 && !s.recovery
  if (on && !legal) || !s.mayLeave p0 n0 p1 n2 then s
  else
    let s := s.setMcrN (vdOff vd 0) 8 v.toNat
    let enters := ((List.range n2).map (p1 + ·)).filter fun a => !(p0 ≤ a && a < p0 + n0)
    let s := { s with zeroing := s.zeroing ++ enters.filter fun a => !s.zeroing.contains a }
    let s := if was then s.departVd vd p1 n2 (!on) else s
    let s := if was && !on then s.destroyVd vd else s
    if on && !was then
      { s with serials := Tab.erase s.serials vd, service := s.service.filter fun p => p.1 / 256 != vd
               rerunService := Tab.erase s.rerunService vd, rerunWindow := Tab.erase s.rerunWindow vd }
    else s

/-- A doubleword of a VD entry. -/
def writeVd (s : State) (vd off : Nat) (v : Word) : State :=
  if off = 0 then s.writeVdWord vd v else s.setMcrN (vdOff vd off) 8 (v &&& vdMask off).toNat

/-! ### Features (R423) -/

/-- A write of the request: taken only while no VD is active, and the grant changes at once. -/
def writeFeatures (s : State) (v : BitVec 128) : State :=
  if (List.range 256).any s.vdActive then s
  else (s.setMcrN 0x40 16 v.toNat).setMcrN 0x50 16 (v.toNat % 64)

/-! ### Reading and writing a doubleword (R411, R412) -/

/-- A doubleword of an entry of the selected bank's read-watch table; one that has been freed reads as it was, with its valid bit 0
(R228, R446). -/
def watchWord (s : State) (i : Nat) : Word :=
  let site := s.mcrN 0x3000 2
  let bank := s.mcrN 0x3002 1 % 8
  let b := if bank < 4 then 65600 + 4 * site + bank else 64 + site
  let at_ (w : Watch) : Bool := bankOf w.key == b && w.slot == i / 2
  match (s.watches.find? at_).or (s.oldWatches.find? at_) with
  | none => 0
  | some w =>
    let d := (w.key - (if bank < 4 then tileKey site 0 else vaultKey site 0)) / 8
    if i % 2 = 0 then BitVec.ofNat 64 ((if bank < 4 then d / 4 else d) + w.vtn.toNat * 2 ^ 32)
    else BitVec.ofNat 64 (w.thread + w.bar * 2 ^ 8 + (if s.watches.any at_ then 2 ^ 16 else 0) + w.vd * 2 ^ 24)

/-- The part code of the identity block, "PHW-65" from the lowest address (R412). -/
def partCode : Word := 0x35362D574850

/-- The doubleword at an offset, as it reads: reserved offsets read zero. -/
def mcrRead (s : State) (off : Nat) : Word :=
  let off := off / 8 * 8
  if off = 0 then partCode
  else if 0x3400 ≤ off && off < 0x3800 then s.watchWord ((off - 0x3400) / 8)
  -- code 10 without a vote until the first window boundary (R424)
  else if 0x50000 ≤ off && off < 0x54000 && s.windows = 0 then 0x7F0A00007F0A
  else if 0x10000 ≤ off && off < 0x30000 && off % 512 = 0 then
    -- an ungranted fretless or replay bit reads 0 (R423)
    s.read64 (mcrKey off) &&& ~~~((if s.feature 1 then 0#64 else 2#64) ||| (if s.feature 5 then 0#64 else 4#64))
  else s.read64 (mcrKey off)

/-- The writable bits of a plain register doubleword, 0 for a read-only or reserved one. -/
def plainMask (off : Nat) : Word :=
  if off = 0x20 then 0x3F
  else if off = 0x80 then 0xFF else if off = 0x88 then 0xFFFFFFFF
  else if 0x200 ≤ off && off < 0x230 then 0xFFFFFFFFFFFFFFFF
  else if 0x1000 ≤ off && off < 0x1030 && off ≠ 0x1018 then 0xFFFFFFFFFFFFFFFF
  else if off = 0x1040 || off = 0x1048 then 0xFFFFFFFFFFFFFFFF
  else if 0x1100 ≤ off && off < 0x1300 then (if off % 32 = 24 then 0xFFFFFFFF00000001 else 0xFFFFFFFFFFFFFFFF)
  else if 0x2000 ≤ off && off < 0x2200 then 0xFFFFFFFFFFFFFFFF
  else if off = 0x3000 then 0x7FFFF
  else if 0x4000 ≤ off && off < 0x4200 then 0xBF3F
  else if 0x40000 ≤ off && off < 0x50000 then 0xFFFFFFFFFFFFFFFF
  else 0

/-- Keep the bits outside a mask. -/
def maskedWrite (s : State) (off : Nat) (mask v : Word) : State :=
  s.setMcrN off 8 ((s.read64 (mcrKey off) &&& ~~~mask) ||| (v &&& mask)).toNat

/-- Parked replay SEEDs search again (R88). -/
def searchReplay (s : State) : State :=
  s.tiles.foldl (fun s p => [0, 1, 2, 3].foldl (fun s th =>
    if (s.thread p.1 th).park == some (.seed 2) then s.modThread p.1 th fun t => { t with park := none } else s) s) s

/-- A write of a doubleword by module software (R411, R412). -/
def mcrWrite (s : State) (off : Nat) (v : Word) : State :=
  let off := off / 8 * 8
  if off = 0x40 || off = 0x48 then
    let old := BitVec.ofNat 128 (s.mcrN 0x40 16)
    s.writeFeatures (if off = 0x40 then old.extractLsb' 64 64 ++ v else v ++ old.extractLsb' 0 64)
  else if 0x2000 ≤ off && off < 0x2200 then (s.setMcrN off 8 v.toNat).replayFault ((off - 0x2000) / 8) v
  else if 0x10000 ≤ off && off < 0x30000 then s.writeVd ((off - 0x10000) / 512) (off % 512) v
  else if 0x60000 ≤ off && off < 0x70000 then
    (List.range 8).foldl (fun s i => s.writePower (off - 0x60000 + i) (v.toNat / 256 ^ i % 256)) s
  else if plainMask off == 0#64 then s
  else if 0x4000 ≤ off && off < 0x4200 then
    -- a route entry written valid brings its module back into the pod (R419)
    let m := (off - 0x4000) / 8
    { s.maskedWrite off (plainMask off) v with podLeft := if v.getLsbD 15 then s.podLeft.filter (· != m) else s.podLeft }
  else if off = 0x1028 then (s.maskedWrite off (plainMask off) v).searchReplay
  else s.maskedWrite off (plainMask off) v

/-- The bits of a doubleword that the host may write; none gives an error completion (R412). -/
def hostMask (off : Nat) : Option Word :=
  let off := off / 8 * 8
  if off = 0x40 || off = 0x48 then some 0xFFFFFFFFFFFFFFFF
  else if 0x200 ≤ off && off < 0x230 then some 0xFFFFFFFFFFFFFFFF
  else if 0x1100 ≤ off && off < 0x1300 then
    (if off % 32 = 8 then some 0xFFFFFFFF00000000 else if off % 32 = 24 then some 1 else none)
  else none

end State
end Sys2Proof.Machine
end

