-- ==== Sys2Proof/Machine/Pod.lean ====
section
/-! DEFINITION. Other modules of the pod as this one sees them (R158, R346, R417-R419): the module that an address leads to, the port that
carries an access there and what comes back, and what arrives from there. -/

namespace Sys2Proof.Machine

/-- How an access of another module ends. -/
inductive PodEnd where
  /-- Both ports to it are down (R418). -/
  | waits
  /-- It has left the pod: the access is discarded, and counted (R419). -/
  | lost
  | fails (cause : BitVec 8)
  /-- It is answered; a read may meet poison. -/
  | answered (poison : Bool)
deriving DecidableEq, Repr, Inhabited

/-- What came of an access: a value, a wait that may have asked a station for a walk, or a fault. -/
inductive Got (α : Type) where
  | ok (a : α)
  | wait (p : Park) (s : State)
  | bad (cause : BitVec 8) (addr : Word)

/-- Requests that an unfinished access has handed to a station or to the gang scheduler. -/
def State.keepRequests (s s' : State) : State := { s with walks := s'.walks, tileFaults := s'.tileFaults }

namespace State

/-- Judge an access of a unit that may be waiting already (R156). -/
def attempt {α : Type} (s : State) (hold : Option Park) (r : Res α) : Got α :=
  match hold with
  | some (.pageFault addr) => .bad 0x05 addr
  | _ => match r with
    | .ok a => .ok a
    | .error (.trap cause addr) => .bad cause addr
    | .error (.park p) => .wait p s
    | .error (.parkIn p s') => .wait p (s.keepRequests s')
    | .error (.done s') => .wait .stopped s'
    | .error (.fault _) => .wait .stopped s

/-- A module is in the pod: its route entry is valid and it has not left (R418, R419). -/
def inPod (s : State) (m : Nat) : Bool := m == s.moduleNo || (s.mcrN (0x4000 + 8 * m) 2 / 2 ^ 15 % 2 == 1 && !s.podLeft.contains m)

/-- One of the two ports that lead to a module is up (R418). -/
def podUp (s : State) (m : Nat) : Bool :=
  let e := s.mcrN (0x4000 + 8 * m) 2
  m == s.moduleNo || !(s.portsDown.contains (e % 64) && s.portsDown.contains (e / 256 % 64))

/-- The module that runs a gang of a grid which is not this module's: of those of MASK below it, or above it, that `Config.podOwner`
names, since ranges follow the modules' order (R346; log 1). -/
def ownerOf (s : State) (g : Grid) (gang : Nat) : Nat :=
  let ms := (List.range 64).filter fun m => g.desc.mask.getLsbD m && (if gang < g.lo then decide (m < s.moduleNo) else decide (s.moduleNo < m))
  ms.getD (Config.podOwner g.handle.toNat gang % max 1 ms.length) 64

/-- The module that an address leads to: a pod address names it, and a pad is where its gang runs. -/
def podModule (s : State) (a : Nat) (addr : Word) : Nat :=
  if tagOf addr == 5 then fieldOf addr 50 6
  else match s.grid? (s.tile a).handle with
    | some g => s.ownerOf g (gangOf (addr.extractLsb' 16 32))
    | none => 64

/-- The port that carries the traffic to a module: the first, or the second where the first is down (R418). -/
def podPort (s : State) (m : Nat) : Nat :=
  let e := s.mcrN (0x4000 + 8 * m) 2
  if s.portsDown.contains (e % 64) then e / 256 % 64 else e % 64

/-- A flit has got through at a port: its replays in a row are over (R417). -/
def flitThrough (s : State) (m : Nat) : State := { s with flitReplays := Tab.erase s.flitReplays (s.podPort m) }

/-- How an access of an agent ends at another module: its causes and its data are free (log 1). -/
def podEnd (s : State) (a : Nat) (addr : Word) : PodEnd :=
  let m := s.podModule a addr
  let cause := Config.podFault s.free
  if 64 ≤ m || !s.inPod m then .lost
  else if !s.podUp m then .waits
  else if cause == 0x03#8 || cause == 0x05#8 || cause == 0x06#8 then .fails cause
  else .answered (cause == 0x0A#8)

/-- The name here of a byte of another module: where a re-run's overlay keeps what it writes there, and a read-watch its doubleword. -/
def podKey (addr : Word) : Nat := mcrBase + 2 ^ 57 + addr.toNat % 2 ^ 56

/-- What another module's memory returns, under a re-run's own writes. -/
def podView (s : State) (a : Nat) (addr : Word) (n : Nat) : Nat :=
  let v := (Config.podData s.free).toNat + 2 ^ 64 * (Config.podData (s.free + 1)).toNat
  if (s.tile a).mark == .original then v % 256 ^ n
  else (List.range n).foldr (fun i r => (match s.overlayByte (s.overlayOf a) (podKey addr + i) with
    | some b => b.toNat
    | none => v / 256 ^ i % 256) + 256 * r) 0

/-- An access that has ended at another module: its free values are taken, and its flits have got through. -/
def podPast (s : State) (a : Nat) (addr : Word) : State := { s.flitThrough (s.podModule a addr) with free := s.free + 2 }

/-- An access of a thread to a module that has left the pod is discarded, and counted (R419). -/
def podLost (s : State) (a th : Nat) (addr : Word) : State :=
  { s with free := s.free + 2 }.countFault (s.tile a).handle (s.threadFault a th 0x03 addr)

/-- A write of a thread that another module has taken: it strikes what this module's threads watch there (R231); a re-run's stands in its
overlay (R368). -/
def podWrote (s : State) (a : Nat) (addr : Word) (n v : Nat) : State :=
  if (s.tile a).mark == .original then s.rollWatchers (podKey addr) n else s.storeAs a (podKey addr) n v

/-! ### Pod requests (R158) -/

/-- Another module's request to a partner VD of this module: it enters at station 0 (log 27), as a user access. -/
def podAsker (r : PodReq) : Asker := ⟨0, r.vd, r.space, 0xFFFFFFFF#32, 0, false⟩

def podTry (s : State) (r : PodReq) : State × Option Park :=
  let answer (s : State) (cause : BitVec 8) (v : Word) : State × Option Park :=
    ({ s with podOut := s.podOut ++ [{ module := r.module, addr := r.addr, cause := cause, data := v }] }, none)
  let u : Use := { read := !r.write, write := r.write, plain := false, kind := .podRequest }
  if !s.vdActive r.vd || !s.spaceValid r.vd r.space then answer s 0x03 0
  else match s.attempt r.hold (s.translateAt (podAsker r) (BitVec.ofNat 64 (fieldOf r.addr 0 50)) u) with
    | .bad cause _ => answer s cause 0
    | .wait p s' => (s', some p)
    | .ok key =>
      let s := s.usedBy (podAsker r) (BitVec.ofNat 64 (fieldOf r.addr 0 50))
      if r.write then answer (s.store key r.size (r.data.toNat % 256 ^ r.size)) 0 0
      else if s.poisonedIn key r.size then answer s 0x0A 0
      else answer s 0 (BitVec.ofNat 64 (s.readN key r.size))

/-- The agent under which a module's operations stand among the messages. -/
def podAgent (module : Nat) : Nat := 2 * 65536 + module

/-- Something of a tile of another module arrived before, and has not landed: a posted operation, or a store (R185). -/
def arrivedBefore (s : State) (module tile id : Nat) : Bool :=
  (s.net.any fun x => x.agent == podAgent module && x.tile == tile && x.phase == .flight && decide (x.id < id))
    || s.podPending.any fun r => r.write && r.module == module && r.tile == tile && decide (r.id < id)

/-- Try requests in order of arrival: behind a store or a posted operation that waits, the later stores of its tile wait too, and nothing
else does (R185). -/
def podTryAll (s : State) (blocked : List Nat) : List PodReq → State
  | [] => s
  | r :: rest =>
    let keep (s : State) (r : PodReq) : State := { s with podPending := s.podPending ++ [r] }
    if r.write && (blocked.contains r.tile || s.arrivedBefore r.module r.tile r.id) then podTryAll (keep s r) blocked rest
    else
      let t := s.podTry r
      match t.2 with
      | some p => podTryAll (keep t.1 { r with hold := some p }) (if r.write then r.tile :: blocked else blocked) rest
      | none => podTryAll t.1 blocked rest

/-- Try the requests of a module. -/
def podPump (s : State) (module : Nat) : State :=
  let mine (r : PodReq) : Bool := r.module == module
  podTryAll { s with podPending := s.podPending.filter fun r => !mine r } [] (s.podPending.filter mine)

end State
end Sys2Proof.Machine
end

