-- ==== Sys2Proof/Machine/LoadStore.lean ====
section
/-! DEFINITION. Loads and stores of one thread: performing an access at its home, relaxed accesses, speculation past a barrier,
full/empty instructions and vector moves (R160-R169, R227, R228). -/

namespace Sys2Proof.Machine

namespace State

/-! ### The control window (R141) -/

/-- A doubleword of the control window. -/
def windowWord (s : State) (a off : Nat) : Word :=
  let t := s.tile a
  if off < 0x7040 then
    let i := (off - 0x7000) / 4
    vget t.c (i + 1) 0 ++ vget t.c i 0
  else if 0x7100 ≤ off && off < 0x7200 then
    let z := vget t.trig ((off - 0x7100) / 32) {}
    match (off - 0x7100) % 32 / 8 with
    | 0 => z.cfg | 1 => z.d1 | 2 => z.d2 | _ => z.d3
  else if 0x7200 ≤ off && off < 0x7300 then
    let h := vget t.streams ((off - 0x7200) / 32) {}
    match (off - 0x7200) % 32 / 8 with
    | 0 => h.cfg
    | 1 => h.wr ++ h.rd
    | 2 => (if h.valid then 1 else 0) ||| (if h.pcl then 2 else 0) ||| (if h.ccl then 4 else 0)
    | _ => 0
  else if off < 0x7308 && 0x7300 ≤ off then
    BitVec.ofNat 64 t.inbox.length ||| (if (s.outside a).isSome then 0x80 else 0)
  else 0

/-- A load of 4 or 8 bytes from the control window. -/
def windowRead (s : State) (a off n : Nat) : Nat :=
  (s.windowWord a (off / 8 * 8)).toNat / 256 ^ (off % 8) % 256 ^ n

/-! ### Performing an access -/

/-- The address with a remote-pad name of the agent's own tile as its local address. -/
def canonAddr (s : State) (a : Nat) (addr : Word) : Word :=
  if tagOf addr == 1 && addr.extractLsb' 16 32 == (s.tile a).vtn then addr &&& 0xFFFF#64 else addr

/-- The turns of an access whose latency R162 does not fix and that has no home on this module (log 67). -/
def openTurns (s : State) (a : Nat) (addr : Word) : Nat := 1 + Config.openTurns (s.cyc a).toNat addr.toNat

/-- A load performed at its home: conditions 4 to 8 of R137, then the bytes, and the turns after which they are ready (R162). -/
def performLoad (s : State) (a th : Nat) (addr : Word) (n : Nat) : Res (Nat × Nat) :=
  match s.resolve a th addr Use.load with
  | .error e => .error e
  | .ok (.mem key) => if s.poisonedAs a key n then .error (.trap 0x0A addr) else .ok (s.viewN a key n, s.homeTurns a key)
  | .ok (.window off) => .ok (s.windowRead a off n, 1)
  | .ok (.mcr off) => .ok ((s.mcrRead off).toNat, s.homeTurns a (mcrKey off))
  | .ok .void => .ok (0, s.openTurns a addr)
  | .ok .pod => .error (.park (.pod addr))
  | .ok .gone => .error (.trap 0x03 addr)
  | .ok (.absent g _ _) => .error (.park (.absent g addr))

/-- The size code of a skid record (R259). -/
def sizeCode (n : Nat) : Nat := if n = 1 then 0 else if n = 2 then 1 else if n = 4 then 2 else 3

/-- A plain store performed: at its home, in a skid queue, or discarded and counted (R143, R161); its digest terms with it (R366). Each
half of a VST is a store of its own, and counts by itself where it is discarded (DESIGN CHOICE, log 74). -/
def performStore (s : State) (a th : Nat) (cx : Bool) (addr : Word) (n v : Nat) : Res State :=
  match s.resolve a th addr Use.store with
  | .error e => .error e
  | .ok (.mem key) => .ok (((s.digest a cx addr n v).storeAs a key n v).usePage a addr)
  | .ok (.window _) => .error (.trap 0x03 addr)
  | .ok (.mcr off) => .ok (s.mcrWrite off (BitVec.ofNat 64 v))
  | .ok .void => .ok (s.digest a cx addr n v)
  | .ok .pod => .error (.park (.pod addr))
  | .ok .gone => .ok ((s.digest a cx addr n v).countFault (s.tile a).handle (s.threadFault a th 0x03 addr))
  | .ok (.absent g r off) =>
    match s.parkPad a g r (skidRecord 1 (16 * sizeCode n) off r (s.tile a).vtn 0 (v % 256 ^ n)) (.padStore off n (BitVec.ofNat 64 v) false) with
    | some s => .ok (s.digest a cx addr n v)
    | none => .error (.park (.ringFull g))

/-! ### Speculation (R227, R228) -/

/-- The entry of a doubleword. -/
def bufFind (l : List BufEntry) (dw : Word) : Option BufEntry := l.find? fun e => e.addr == dw

/-- The byte mask of an access within its doubleword. -/
def maskOf (addr : Word) (n : Nat) : BitVec 8 := BitVec.ofNat 8 ((2 ^ n - 1) * 2 ^ (addr.toNat % 8))

/-- Bits of the bytes that a mask names. -/
def maskBits (m : BitVec 8) : Word :=
  BitVec.ofNat 64 ((List.range 8).foldl (fun r i => if m.getLsbD i then r + 255 * 256 ^ i else r) 0)

/-- Buffered bytes over the bytes read. -/
def mergeBuf (e : Option BufEntry) (w : Word) : Word :=
  match e with
  | some e => (w &&& ~~~maskBits e.mask) ||| (e.data &&& maskBits e.mask)
  | none => w

/-- Merge a store into the buffer; `none` where a 33rd entry is needed (R227). -/
def bufStore (l : List BufEntry) (dw : Word) (m : BitVec 8) (d : Word) (terms : Vector (BitVec 32) 4) : Option (List BufEntry) :=
  match bufFind l dw with
  | some _ => some (mapIf (fun e => e.addr == dw)
      (fun e => { e with mask := e.mask ||| m, data := (e.data &&& ~~~maskBits m) ||| (d &&& maskBits m)
                         terms := Vector.zipWith (· + ·) e.terms terms }) l)
  | none => if 32 ≤ l.length then none else some (l ++ [⟨dw, d &&& maskBits m, m, terms⟩])

/-- The buffer holds every byte of an access of up to 16 bytes (R228). -/
def bufCovers (l : List BufEntry) (addr : Word) (n : Nat) : Bool :=
  (List.range ((n + 7) / 8)).all fun i =>
    let a := addr + BitVec.ofNat 64 (8 * i)
    let m := maskOf a (min n 8)
    (bufFind l (a &&& ~~~7#64)).any fun e => e.mask &&& m == m

/-- Bytes of an access of up to 16 bytes, with the buffered ones over them (R228). -/
def mergeOver (l : List BufEntry) (addr : Word) (n v : Nat) : Nat :=
  (List.range n).foldr (fun i r => (match bufFind l ((addr + BitVec.ofNat 64 i) &&& ~~~7#64) with
    | some e => let k := (addr + BitVec.ofNat 64 i).toNat % 8
      if e.mask.getLsbD k then e.data.toNat / 256 ^ k % 256 else v / 256 ^ i % 256
    | none => v / 256 ^ i % 256) + 256 * r) 0

/-- Read-watch entries of a bank (R228). -/
def watchLoad (s : State) (bank : Nat) : Nat := (s.watches.filter fun w => bankOf w.key == bank).length

/-- The home doubleword of a speculative load that the buffer does not serve whole, and whether its watch has room (R228). -/
def specHome (s : State) (a th : Nat) (sp : Spec) (addr : Word) (n : Nat) : Option Nat :=
  if bufCovers sp.buf (s.canonAddr a addr) n then none
  else match s.resolve a th addr Use.load with
    | .ok (.mem key) => some (dwordOf key)
    | _ => none

/-- The lowest slot of a bank's table that holds no valid entry (R228; DESIGN CHOICE, log 87). -/
def watchSlot (s : State) (bank : Nat) : Nat :=
  ((List.range 64).find? fun i => !s.watches.any fun w => bankOf w.key == bank && w.slot == i).getD 64

/-- Register a watch of a doubleword, unless the thread holds one there (R228). -/
def addWatch (s : State) (a th bar dk : Nat) : State :=
  if s.watches.any fun w => w.key == dk && w.agent == a && w.thread == th then s
  else
    let i := s.watchSlot (bankOf dk)
    { s with
      watches := s.watches ++ [{ key := dk, agent := a, thread := th, bar := bar, slot := i, vtn := s.recordVtn a, vd := s.vdOf a }]
      oldWatches := s.oldWatches.filter fun w => !(bankOf w.key == bankOf dk && w.slot == i) }

/-- A watch of a doubleword stands, or has room in its bank's table of 64 (R228). -/
def watchRoom (s : State) (a th dk : Nat) : Bool :=
  (s.watches.any fun w => w.key == dk && w.agent == a && w.thread == th) || decide (s.watchLoad (bankOf dk) < 64)

/-- The watch that a speculative load registers in the bank cycle in which it reads, whatever it reads (R228). -/
def specWatch (s : State) (a th : Nat) (sp : Spec) (addr : Word) (n : Nat) : State :=
  match s.specHome a th sp addr n with
  | some dk => if s.watchRoom a th dk then s.addWatch a th sp.bar dk else s
  | none => s

/-- What a load of at most 8 bytes by a speculating thread reads, in the spaces R169 lets it reach. -/
def specLoad (s : State) (a th : Nat) (sp : Spec) (addr : Word) (n : Nat) : Res Nat :=
  let ca := s.canonAddr a addr
  let dw := ca &&& ~~~7#64
  let sh := 8 * (addr.toNat % 8)
  let e := bufFind sp.buf dw
  if bufCovers sp.buf ca n then .ok ((mergeBuf e 0).toNat / 2 ^ sh % 256 ^ n)
  else match s.resolve a th addr Use.load with
    | .error e => .error e
    | .ok (.mem key) =>
      let dk := dwordOf key
      if !s.watchRoom a th dk then .error (.park .speculating)
      else if s.poisonedAs a key n then .error (.trap 0x0A addr)
      else .ok ((mergeBuf e (BitVec.ofNat 64 (s.viewN a dk 8))).toNat / 2 ^ sh % 256 ^ n)
    | .ok .void => .ok ((mergeBuf e 0).toNat / 2 ^ sh % 256 ^ n)
    | .ok .gone => .error (.trap 0x03 addr)
    | .ok (.window _) | .ok (.mcr _) | .ok .pod | .ok (.absent _ _ _) => .error (.park .speculating)

/-- A speculative store enters the buffer, with its digest terms (R227, R366). -/
def specStore (s : State) (a th : Nat) (sp : Spec) (addr : Word) (n v : Nat) : Res State :=
  let ca := s.canonAddr a addr
  let d0 : Vector (BitVec 32) 4 := Vector.replicate 4 0
  let d := if (s.thread a th).cx || s.ownPad a addr then d0
    else (digestWords addr.toNat n v).foldl (fun d w => addTerm d w.1 w.2.1 w.2.2) d0
  match bufStore sp.buf (ca &&& ~~~7#64) (maskOf ca n) (BitVec.ofNat 64 (v * 2 ^ (8 * (addr.toNat % 8)))) d with
  | none => .error (.park .speculating)
  | some l => .ok (s.modThread a th fun t => { t with spec := some { sp with buf := l } })

/-- Spaces a speculating thread may reach: pads, vaults and remote pads (R169). -/
def specSpace (addr : Word) : Bool :=
  match tagOf addr with
  | 0 => decide (fieldOf addr 0 16 < 0x6000)
  | 1 | 2 => true
  | _ => false

end State

namespace Op

/-- Continue with a result of a pure access. A wait for it leaves what the instruction has popped in its hands (R170). -/
def lift {α : Type} (r : Res α) : Op α := fun s =>
  match r with
  | .ok a => .ok (a, s)
  | .error (.park p) => .error (.parkIn p s)
  | .error e => .error e

/-- A thread that has reserved a place at a pushing destination for the access it waits for (R160). -/
def claim (x : RegNum) (t : Thread) : Thread :=
  { t with claims := if State.pushesTo .up x || State.pushesTo .down x || isHandle x then [x] else [] }

/-- A load reserves a place at its pushing destination while it waits for its access; one that is handed on holds it there (R160). -/
def claiming (x : RegNum) (m : Op Unit) : Op Unit := fun s =>
  match m s with
  | .error (.parkIn (.pod a) s') => .error (.parkIn (.pod a) s')
  | .error (.parkIn (.half a) s') => .error (.parkIn (.half a) s')
  | .error (.parkIn p s') => .error (.parkIn p (s'.modMe (claim x)))
  | r => r

/-- Conditions 1 to 3 of R137 for the issuing thread. -/
def checkAddress (addr : Word) (size : Nat) (u : Use) : Op Unit := do
  let s ← get
  match s.checkAddress s.cur.1 s.cur.2 addr size u with
  | some f => trap f.1 f.2
  | none => pure ()

/-- One load of at most 8 bytes of the access at `name`, performed now: its bytes and its turns. -/
def loadBytes (name addr : Word) (n : Nat) : Op (Nat × Nat) := do
  let s ← get
  match s.me.spec with
  | none => do
    let v ← lift ((s.performLoad s.cur.1 s.cur.2 addr n).mapError (State.underName name))
    set (s.usePage s.cur.1 addr)
    pure v
  | some sp =>
    await (State.specSpace addr) .speculating
    let s' := s.specWatch s.cur.1 s.cur.2 sp addr n
    match s.specLoad s.cur.1 s.cur.2 sp addr n with
    | .error (.trap cause _) => throw (.done (s'.trapHere cause name))
    | .error e => throw e
    | .ok v => do
      set s'
      pure (v, 1)

/-- One plain store of at most 8 bytes, performed now. -/
def storeBytes (addr : Word) (n v : Nat) : Op Unit := do
  let s ← get
  match s.me.spec with
  | none =>
    let s' ← lift (s.performStore s.cur.1 s.cur.2 s.me.cx addr n v)
    set s'
  | some sp =>
    await (State.specSpace addr) .speculating
    match s.specStore s.cur.1 s.cur.2 sp addr n v with
    | .error e => throw e
    | .ok s' => set s'

/-- The first doubleword of a vector access has been performed: its thread is kept until the second has (R172). -/
def halfDone (r : Relaxed) (lo : Nat) (hold : Option Park) : Op Unit := do
  let s ← get
  throw (.parkIn (.half r.addr) (s.modMe fun t => { t with relaxed := t.relaxed ++ [{ r with first := some (BitVec.ofNat 64 lo), hold := hold }] }))

/-- The halves of a vector access are performed apart: the schedule's choice (R172). In speculation a watch covers both, so that no
other order shows (R228). -/
def apart (s : State) : Bool := s.split && s.me.spec.isNone

/-- A load of 1 to 8 bytes, then its destination. -/
def loadInto (r : Relaxed) (write : Nat → Nat → Op Unit) : Op Unit := do
  let v ← loadBytes r.addr r.addr r.size
  write v.1 v.2

/-- A load of 16 bytes, as two doubleword accesses, the low one first (R172; DESIGN CHOICE, log 63). -/
def loadWide (r : Relaxed) (write : Nat → Nat → Op Unit) : Op Unit := do
  let lo ← loadBytes r.addr r.addr 8
  let s ← get
  if apart s then halfDone r lo.1 none
  else do
    let hi ← loadBytes r.addr (r.addr + 8) 8
    write (lo.1 + hi.1 * 2 ^ 64) (max lo.2 hi.2)

/-- A plain store of 16 bytes, as two doubleword stores (R172). One whose second has to wait has performed its first. -/
def storeWide (r : Relaxed) : Op Unit := do
  storeBytes r.addr 8 (r.data.toNat % 2 ^ 64)
  let s ← get
  if apart s then halfDone r 0 none
  else match s.me.spec with
    | some _ => storeBytes (r.addr + 8) 8 (r.data.toNat / 2 ^ 64)
    | none => match s.performStore s.cur.1 s.cur.2 s.me.cx (r.addr + 8) 8 (r.data.toNat / 2 ^ 64) with
      | .ok s' => set s'
      | .error (.park p) => halfDone r 0 (some p)
      | .error (.parkIn p s') => do
        set s'
        halfDone r 0 (some p)
      | .error e => throw (State.underName r.addr e)

/-- Hand a relaxed access on, without keeping the thread (R161). -/
def relax (r : Relaxed) : Op Unit := do
  let s ← get
  await (decide (s.me.relaxed.length < 8)) .relaxedSlot
  modify fun s => s.modMe fun t => { t with relaxed := t.relaxed ++ [{ r with at_ := s.cyc s.cur.1 }] }

/-- The effective address of R136. -/
def address (y : RegNum) (off : Word) (size : Nat) : Op Word := do
  let b ← readG y
  pure (b + off * BitVec.ofNat 64 size)

/-- A relaxed access is one whose MOD bit is set, outside speculation (R33, R169). -/
def isRelaxed (s : State) (c : Chain) : Bool := c.relaxed && s.me.spec.isNone

/-- A plain access waits for the outstanding relaxed ones; a relaxed one does not (R161). -/
def memOrder (c : Chain) : Op Unit := do
  let s ← get
  await (isRelaxed s c || s.me.relaxed.isEmpty) .drained

/-- Hand a request to another module, with the thread kept until its answer (R158, R161, R346). While the thread speculates only a load of
a pad goes out (R169, R228). -/
def sendPod (r : Relaxed) : Op Unit := do
  let s ← get
  await (s.me.spec.isNone || (r.act == .access && !r.store && State.tagOf r.addr == 1)) .speculating
  throw (.parkIn (.pod r.addr) (s.modMe fun t => { t with relaxed := t.relaxed ++ [r] }))

/-- The speculation buffer takes an access of a pad elsewhere: a store, or a load of which it holds every byte (R227, R228). -/
def buffered (s : State) (r : Relaxed) : Bool :=
  match s.me.spec with
  | none => false
  | some sp => State.tagOf r.addr == 1 && (r.store || State.bufCovers sp.buf r.addr r.size)

/-- A plain access: performed now, or, where its home is on another module, handed on. -/
def plain (r : Relaxed) (now : Op Unit) : Op Unit := do
  let s ← get
  if s.isFar s.cur.1 r.addr && !buffered s r then sendPod r else now

end Op

/-! ### Shapes -/

/-- Sign- or zero-extended load result. -/
def extendLoad (signed : Bool) (n v : Nat) : Word := if signed then sext (8 * n) (BitVec.ofNat 64 v) else BitVec.ofNat 64 v

/-- What the control window holds for a load that is handed on: its state at the issue cycle (R141). -/
def windowNow (s : State) (addr : Word) (n : Nat) : Option Word :=
  if State.tagOf addr == 0 && 0x7000 ≤ State.fieldOf addr 0 16 then some (BitVec.ofNat 64 (s.windowRead s.cur.1 (State.fieldOf addr 0 16) n)) else none

/-- The plain and signed loads (R164). -/
def loadG (c : Chain) (x y : RegNum) (off : Word) (n : Nat) (signed : Bool) : Op Unit := Op.claiming x do
  Op.need [.g y] [.g x]
  Op.memOrder c
  let addr ← Op.address y off n
  let s ← get
  Op.checkAddress addr n { Use.load with relaxed := Op.isRelaxed s c }
  let r : Relaxed := { addr := addr, size := n, store := false, signed := signed, dest := x, cx := s.me.cx }
  if Op.isRelaxed s c then Op.relax { r with window := windowNow s addr n }
  else Op.plain r (Op.loadInto r fun v lat => Op.writeG x (extendLoad signed n v) lat)
  Op.retire c

/-- The plain stores: base Y, then data X (R160, R164). -/
def storeG (c : Chain) (x y : RegNum) (off : Word) (n : Nat) : Op Unit := do
  Op.need [.g y, .g x] []
  Op.memOrder c
  let addr ← Op.address y off n
  let v ← Op.readG x
  let s ← get
  Op.checkAddress addr n { Use.store with relaxed := Op.isRelaxed s c }
  let r : Relaxed := { addr := addr, size := n, store := true, data := BitVec.ofNat 128 (v.toNat % 256 ^ n), cx := s.me.cx }
  if Op.isRelaxed s c then Op.relax r
  else Op.plain r (Op.storeBytes addr n (v.toNat % 256 ^ n))
  Op.retire c

/-- Where a full/empty, atomic or reservation access acts: a key of this module, nowhere (another gang's pad, for a cruise re-run, R368),
or a pad of another module (R346). -/
inductive Home where
  | at (key : Nat)
  | void
  | pod
deriving DecidableEq, Repr, Inhabited

/-- Resolve a full/empty, atomic or reservation access of the issuing thread to its home. -/
def homeOf (addr : Word) (u : Use) : Op Home := do
  let s ← get
  match ← Op.lift (s.resolve s.cur.1 s.cur.2 addr u) with
  | .mem key => do
    modify fun s => s.usePage s.cur.1 addr
    pure (.at key)
  | .void => pure .void
  | .pod => pure .pod
  | .gone | .window _ | .mcr _ => Op.trap 0x03 addr
  | .absent g _ _ => do
    let s ← get
    throw (.parkIn (.absent g addr) s)

/-- The issuing thread waits in a bank: it is parked first, so that the bank can complete it in the same step. -/
def parkFor (c : Chain) (p : Park) (f : State → State) : Op Unit := do
  let s ← get
  throw (.done (f (s.parkMe c p)))

/-- The same, with a place reserved at the destination that the completion writes (R160). -/
def parkClaim (c : Chain) (p : Park) (x : RegNum) (f : State → State) : Op Unit := parkFor c p fun s => f (s.modMe (Op.claim x))

/-- LDF, LDFD, LDFE, LDFED (R165). A served load leaves the list; a waiting one stays parked. -/
def feLoad (c : Chain) (x y : RegNum) (off : Word) (n : Nat) (clear : Bool) : Op Unit := Op.claiming x do
  Op.need [.g y] [.g x]
  let addr ← Op.address y off n
  let u : Use := { read := true, write := clear, fe := true, plain := false }
  Op.checkAddress addr n u
  let s ← get
  match ← homeOf addr u with
  | .void => do Op.writeG x 0 (s.openTurns s.cur.1 addr); Op.retire c
  | .pod => Op.sendPod { addr := addr, size := n, store := false, dest := x, act := .fe (.load clear) }
  | .at key =>
    parkClaim c (.fullEmpty addr) x fun s => s.feRequest
      { key := key, size := n, kind := .load clear, addr := addr, dest := x, agent := s.cur.1, thread := s.cur.2 }

/-- STE and STED wait for empty words (R165). -/
def feStoreWait (c : Chain) (x y : RegNum) (off : Word) (n : Nat) : Op Unit := do
  Op.need [.g y, .g x] []
  let addr ← Op.address y off n
  let v ← Op.readG x
  let u : Use := { write := true, fe := true, plain := false, kind := .store }
  Op.checkAddress addr n u
  let d := v.toNat % 256 ^ n
  let s ← get
  match ← homeOf addr u with
  | .void => do modify (fun s => s.digest s.cur.1 s.me.cx addr n d); Op.retire c
  | .pod => Op.sendPod { addr := addr, size := n, store := true, data := BitVec.ofNat 128 d, cx := s.me.cx, act := .fe .store }
  | .at key =>
    parkFor c (.fullEmpty addr) fun s => s.feRequest
      { key := key, size := n, kind := .store, addr := addr, data := BitVec.ofNat 64 d, cx := s.me.cx,
        agent := s.cur.1, thread := s.cur.2 }

/-- STF and STFD never wait; to an absent gang they are parked (R143, R165). -/
def feStoreNow (c : Chain) (x y : RegNum) (off : Word) (n : Nat) : Op Unit := do
  Op.need [.g y, .g x] []
  let addr ← Op.address y off n
  let v ← Op.readG x
  let u : Use := { write := true, fe := true, plain := false, parks := true, kind := .store }
  Op.checkAddress addr n u
  let s ← get
  let a := s.cur.1
  let d := v.toNat % 256 ^ n
  let counted := s.digest a s.me.cx addr n d
  match ← Op.lift (s.resolve a s.cur.2 addr u) with
  | .mem key =>
    let counted := counted.usePage a addr
    if s.shadows a key then set (counted.storeAs a key n d)
    else set (((counted.store key n d).markWords key n true).feRescan key)
  | .absent g r o =>
    match s.parkPad a g r (State.skidRecord 2 (16 * State.sizeCode n) o r s.myTile.vtn 0 d) (.padFull o n (BitVec.ofNat 64 d)) with
    | some s' => set (s'.digest a s.me.cx addr n d)
    | none => throw (.parkIn (.ringFull g) s)
  | .gone => set (counted.countFault s.myTile.handle (s.threadFault a s.cur.2 0x03 addr))
  | .void => set counted
  | .pod => Op.sendPod { addr := addr, size := n, store := true, data := BitVec.ofNat 128 d, cx := s.me.cx, act := .fe .store }
  | .window _ | .mcr _ => Op.trap 0x0B addr
  Op.retire c

/-- VLD (R167): 16 bytes as two doubleword accesses. -/
def loadV (c : Chain) (x y : RegNum) (off : Word) : Op Unit := Op.claiming x do
  Op.need [.g y] [.v x]
  Op.memOrder c
  let addr ← Op.address y off 16
  let s ← get
  Op.checkAddress addr 16 { Use.load with relaxed := Op.isRelaxed s c }
  let r : Relaxed := { addr := addr, size := 16, store := false, dest := x, vector := true }
  if Op.isRelaxed s c then Op.relax r
  else Op.plain r (Op.loadWide r fun v lat => Op.writeV x (BitVec.ofNat 128 v) lat)
  Op.retire c

/-- VST (R167). -/
def storeV (c : Chain) (x y : RegNum) (off : Word) : Op Unit := do
  Op.need [.g y, .v x] []
  Op.memOrder c
  let addr ← Op.address y off 16
  let v ← Op.readV x
  let s ← get
  Op.checkAddress addr 16 { Use.store with relaxed := Op.isRelaxed s c }
  let r : Relaxed := { addr := addr, size := 16, store := true, data := v, cx := s.me.cx }
  if Op.isRelaxed s c then Op.relax r
  else Op.plain r (Op.storeWide r)
  Op.retire c

/-! ### Meanings -/

/-- LDB (R164). -/
def execLdb (c : Chain) (x y : RegNum) (off : Word) (s : State) : Host.Outcome State Fault Refusal :=
  issue {} c s (loadG c x y off 1 false)
/-- LDH (R164). -/
def execLdh (c : Chain) (x y : RegNum) (off : Word) (s : State) : Host.Outcome State Fault Refusal :=
  issue {} c s (loadG c x y off 2 false)
/-- LDW (R164). -/
def execLdw (c : Chain) (x y : RegNum) (off : Word) (s : State) : Host.Outcome State Fault Refusal :=
  issue {} c s (loadG c x y off 4 false)
/-- LDD (R164). -/
def execLdd (c : Chain) (x y : RegNum) (off : Word) (s : State) : Host.Outcome State Fault Refusal :=
  issue {} c s (loadG c x y off 8 false)
/-- LDBS (R164). -/
def execLdbs (c : Chain) (x y : RegNum) (off : Word) (s : State) : Host.Outcome State Fault Refusal :=
  issue {} c s (loadG c x y off 1 true)
/-- LDHS (R164). -/
def execLdhs (c : Chain) (x y : RegNum) (off : Word) (s : State) : Host.Outcome State Fault Refusal :=
  issue {} c s (loadG c x y off 2 true)
/-- LDWS (R164). -/
def execLdws (c : Chain) (x y : RegNum) (off : Word) (s : State) : Host.Outcome State Fault Refusal :=
  issue {} c s (loadG c x y off 4 true)
/-- LDF (R165). -/
def execLdf (c : Chain) (x y : RegNum) (off : Word) (s : State) : Host.Outcome State Fault Refusal :=
  issue { held := true, drained := true } c s (feLoad c x y off 4 false)
/-- LDFD (R165). -/
def execLdfd (c : Chain) (x y : RegNum) (off : Word) (s : State) : Host.Outcome State Fault Refusal :=
  issue { held := true, drained := true } c s (feLoad c x y off 8 false)
/-- LDFE (R165). -/
def execLdfe (c : Chain) (x y : RegNum) (off : Word) (s : State) : Host.Outcome State Fault Refusal :=
  issue { held := true, drained := true } c s (feLoad c x y off 4 true)
/-- LDFED (R165). -/
def execLdfed (c : Chain) (x y : RegNum) (off : Word) (s : State) : Host.Outcome State Fault Refusal :=
  issue { held := true, drained := true } c s (feLoad c x y off 8 true)
/-- VLD (R167). -/
def execVld (c : Chain) (x y : RegNum) (off : Word) (s : State) : Host.Outcome State Fault Refusal :=
  issue { compute := true } c s (loadV c x y off)
/-- STB (R164). -/
def execStb (c : Chain) (x y : RegNum) (off : Word) (s : State) : Host.Outcome State Fault Refusal :=
  issue {} c s (storeG c x y off 1)
/-- STH (R164). -/
def execSth (c : Chain) (x y : RegNum) (off : Word) (s : State) : Host.Outcome State Fault Refusal :=
  issue {} c s (storeG c x y off 2)
/-- STW (R164). -/
def execStw (c : Chain) (x y : RegNum) (off : Word) (s : State) : Host.Outcome State Fault Refusal :=
  issue {} c s (storeG c x y off 4)
/-- STD (R164). -/
def execStd (c : Chain) (x y : RegNum) (off : Word) (s : State) : Host.Outcome State Fault Refusal :=
  issue {} c s (storeG c x y off 8)
/-- STE (R165). -/
def execSte (c : Chain) (x y : RegNum) (off : Word) (s : State) : Host.Outcome State Fault Refusal :=
  issue { held := true, drained := true } c s (feStoreWait c x y off 4)
/-- STED (R165). -/
def execSted (c : Chain) (x y : RegNum) (off : Word) (s : State) : Host.Outcome State Fault Refusal :=
  issue { held := true, drained := true } c s (feStoreWait c x y off 8)
/-- STF (R165). -/
def execStf (c : Chain) (x y : RegNum) (off : Word) (s : State) : Host.Outcome State Fault Refusal :=
  issue { held := true, drained := true } c s (feStoreNow c x y off 4)
/-- STFD (R165). -/
def execStfd (c : Chain) (x y : RegNum) (off : Word) (s : State) : Host.Outcome State Fault Refusal :=
  issue { held := true, drained := true } c s (feStoreNow c x y off 8)
/-- VST (R167). -/
def execVst (c : Chain) (x y : RegNum) (off : Word) (s : State) : Host.Outcome State Fault Refusal :=
  issue { compute := true } c s (storeV c x y off)

end Sys2Proof.Machine
end

