-- ==== Sys2Proof/Machine/Sync.lean ====
section
/-! DEFINITION. Synchronisation: reservations, ordered tickets, atomics, FENCE, WAITC, WAITF, CLRF and TAKE (R102, R189-R214). -/

namespace Sys2Proof.Machine

namespace State

/-- Where the instructions of this chapter may act, beside R137 (R190). -/
def syncSpace (ordered : Bool) (addr : Word) : Bool :=
  match tagOf addr with
  | 5 => false
  | 0 | 1 => !ordered
  | _ => true

/-- Entries of a bank's order table (R206). -/
def orderLoad (s : State) (bank : Nat) : Nat := (s.orders.filter fun o => bankOf o.key == bank).length

/-- Whether an OINIT can act: it frees, it overwrites, or the table has room (R206, R207). -/
def oinitReady (s : State) (key : Nat) (t : Word) : Bool :=
  t == 0xFFFFFFFFFFFFFFFF#64 || (s.ticketOf key).isSome || decide (s.orderLoad (bankOf key) < 256)

/-- OINIT at its bank: the entry freed, overwritten or created, and the requests rescanned (R207). -/
def oinitAt (s : State) (key : Nat) (t : Word) : State :=
  let rest := s.orders.filter fun o => o.key != dwordOf key
  let s := { s with orders := if t == 0xFFFFFFFFFFFFFFFF#64 then rest else rest ++ [OrderEntry.mk (dwordOf key) t] }
  s.regrant key

/-- A posted operation that a FENCE of a scope waits for: it has not landed, and its destination is in scope (R180). A GET has landed
once its request is served, or parked, at its destination: R180 names the destination, and R239 frees the entry then, while the data
lands at the issuer later (DESIGN CHOICE, log 76). -/
def fenceHolds (s : State) (a th scope : Nat) (m : Msg) : Bool :=
  let mine := m.agent == a && m.thread == th && m.slot.isNone && m.phase != .acked && !m.parked
  let toTile := match m.kind with
    | .put _ _ _ | .putv _ _ _ | .getReq _ _ _ | .send _ | .cinc _ _ => true
    | .getResp _ _ _ _ | .post _ _ | .launch _ | .handle _ _ | .padStore _ _ _ _ | .padFull _ _ _ | .padClear _ => false
  let isPost := match m.kind with
    | .post _ _ => true
    | _ => false
  let answer := match m.kind with
    | .getResp _ _ _ _ | .handle _ _ => true
    | _ => false
  let here := match s.grid? m.handle with
    | some g => decide (g.lo ≤ gangOf m.dest) && decide (gangOf m.dest < g.hi)
    | none => true
  mine && match scope with
    | 0 => false
    | 1 => toTile && gangOf m.dest == gangOf (s.tile a).vtn
    | 2 => (toTile && here) || isPost
    | _ => !answer

/-- A FENCE of a scope has nothing left to wait for (R180). -/
def fenceClear (s : State) (a th scope : Nat) : Bool := !(s.net.any (s.fenceHolds a th scope))

end State

namespace Op

/-- The address checks of R190 and R191. -/
def syncAddress (ordered : Bool) (addr : Word) (size : Nat) (u : Use) : Op Unit := do
  require (State.syncSpace ordered addr || u.fe) 0x03 addr
  checkAddress addr size u

end Op

/-! ### Shapes -/

/-- LRW and LRO give up what their thread holds, then queue their request (R201, R208). While the request still waits on a walk, a
cruise-hold or an absent gang, nothing is given up yet (DESIGN CHOICE, log 75). -/
def reserve (c : Chain) (x y : RegNum) (ordered : Bool) : Op Unit := Op.claiming x do
  Op.need (if ordered then [.g y, .g x] else [.g y]) [.g x]
  let addr ← Op.readG y
  let t ← if ordered then Op.readG x else pure 0
  Op.syncAddress ordered addr 8 Use.atomic
  let s ← get
  match ← homeOf addr Use.atomic with
  | .void => do
    modify fun s => s.dropHold s.cur.1 s.cur.2 false
    Op.writeG x 0 (s.openTurns s.cur.1 addr)
    Op.retire c
  | .pod => do
    modify fun s => s.dropHold s.cur.1 s.cur.2 false
    Op.sendPod { addr := addr, size := 8, store := false, dest := x, act := .lrw }
  | .at key =>
    parkClaim c (if ordered then .ticket addr t else .grant addr) x fun s =>
      (s.dropHold s.cur.1 s.cur.2 false).requestGrant
        { key := key, addr := addr, kind := if ordered then .lro t else .lrw, dest := x, agent := s.cur.1, thread := s.cur.2 }

/-- Write a word that hands a reservation on, and give it up; at another module's pad the write is made there. -/
def handWord (s : State) (home : Home) (addr v : Word) (ordered : Bool) : State :=
  let a := s.cur.1
  let s := s.digest a s.me.cx addr 8 v.toNat
  let s := match home with
    | .at key =>
      let s := s.storeAs a key 8 v.toNat
      if ordered then s.ticketStep key else s
    | .void | .pod => s
  s.dropHold a s.cur.2 false

/-- SCH and SCO hand the reservation on with a write, or report why they cannot (R202, R209). Whether one held at another module's pad
has been revoked there is free (log 1). A re-run's SCH at another gang's pad finds no reservation, since its LRW there has none: status 2,
and no digest term (DESIGN CHOICE, log 88). -/
def handOff (c : Chain) (x y : RegNum) (kind : BitVec 8) (ordered : Bool) : Op Unit := Op.claiming x do
  Op.need [.g y, .g x] [.g x]
  let addr ← Op.readG y
  let v ← Op.readG x
  Op.syncAddress ordered addr 8 Use.atomic
  let home ← homeOf addr Use.atomic
  let s ← get
  let r := s.me.sync
  let mine := r.heldKind == kind && r.heldAddr == addr
  let lost := r.revoked || (home == .pod && (Config.podData s.free).getLsbD 0)
  let s := if home == .pod then { s with free := s.free + 1 } else s
  if home == .void || !mine then Op.writeG x 2
  else if lost then do
    set (s.modMe fun t => { t with sync := {} })
    Op.writeG x 1
  else do
    set (handWord s home addr v ordered)
    Op.writeG x 0
  Op.retire c

/-- An atomic on another gang's pad in a cruise re-run: it reads 0 and stores nothing, but is digested (R365, R368). -/
def voidAtomic (x : RegNum) (addr : Word) (op : AtomOp) (w : Nat) (v v2 : Word) : Op Unit := do
  let s ← get
  let n := v.toNat % 2 ^ (8 * w)
  let res := State.atomResult op w 0 n (v2.toNat % 2 ^ (8 * w))
  match res.1 with
  | some new => set (s.digest s.cur.1 s.me.cx addr w (if op.counts then n else new))
  | none => pure ()
  modify fun s => s.raise s.cur.1 s.cur.2 res.2
  Op.writeG x 0 (s.openTurns s.cur.1 addr)

/-- An atomic asks for its grant; the bank computes and hands on when it grants (R210, R212). -/
def atomic (c : Chain) (x y : RegNum) (op : AtomOp) (w : Nat) : Op Unit := Op.claiming x do
  let paired := op == .cas || op == .faddo
  Op.need (if paired then [.g y, .g x, .g (x + 1)] else [.g y, .g x]) [.g x]
  let addr ← Op.readG y
  let v ← Op.readG x
  let v2 ← if paired then Op.readG (x + 1) else pure 0
  Op.syncAddress (op == .faddo) addr w Use.atomic
  let s ← get
  match ← homeOf addr Use.atomic with
  | .void => do voidAtomic x addr op w v v2; Op.retire c
  | .pod => Op.sendPod { addr := addr, size := w, store := false, data := v.setWidth 128, dest := x, cx := s.me.cx, act := .atomic op v2 }
  | .at key =>
    parkClaim c (if op == .faddo then .ticket addr v2 else .grant addr) x fun s => s.requestGrant
      { key := key, addr := addr, kind := .atomic op w v v2, dest := x, cx := s.me.cx, agent := s.cur.1, thread := s.cur.2 }

/-- FENCE of a scope (R180, R214). -/
def fenceOf (c : Chain) (scope : Nat) : Op Unit := do
  let s ← get
  Op.await (s.fenceClear s.cur.1 s.cur.2 scope) (.fence scope)
  Op.retire c

/-- How every instruction of page 0 of major 0xA but FENCE of thread scope issues (R189, R192, R194). -/
def syncRules : Op.Rules := { held := true, drained := true }

/-! ### Meanings -/

/-- LRW (R201). -/
def execLrw (c : Chain) (x y : RegNum) (s : State) : Host.Outcome State Fault Refusal := issue syncRules c s (reserve c x y false)
/-- SCH (R202). -/
def execSch (c : Chain) (x y : RegNum) (s : State) : Host.Outcome State Fault Refusal := issue syncRules c s (handOff c x y 1 false)
/-- LRO (R208). -/
def execLro (c : Chain) (x y : RegNum) (s : State) : Host.Outcome State Fault Refusal := issue syncRules c s (reserve c x y true)
/-- SCO (R209). -/
def execSco (c : Chain) (x y : RegNum) (s : State) : Host.Outcome State Fault Refusal := issue syncRules c s (handOff c x y 2 true)

/-- OINIT (R207): waits for the table where it is full (R206). -/
def execOinit (c : Chain) (x y : RegNum) (s : State) : Host.Outcome State Fault Refusal :=
  issue syncRules c s do
    Op.need [.g y, .g x] []
    let addr ← Op.readG y
    let t ← Op.readG x
    Op.syncAddress true addr 8 Use.atomic
    match ← homeOf addr Use.atomic with
    | .void | .pod => Op.retire c
    | .at key => do
      let s ← get
      if s.oinitReady key t then do
        set (s.oinitAt key t)
        Op.retire c
      else parkFor c (.orderTable key t) id

/-- AADD (R210). -/
def execAadd (c : Chain) (x y : RegNum) (s : State) : Host.Outcome State Fault Refusal := issue syncRules c s (atomic c x y .add 8)
/-- AAND (R210). -/
def execAand (c : Chain) (x y : RegNum) (s : State) : Host.Outcome State Fault Refusal := issue syncRules c s (atomic c x y .and 8)
/-- AOR (R210). -/
def execAor (c : Chain) (x y : RegNum) (s : State) : Host.Outcome State Fault Refusal := issue syncRules c s (atomic c x y .or 8)
/-- AXOR (R210). -/
def execAxor (c : Chain) (x y : RegNum) (s : State) : Host.Outcome State Fault Refusal := issue syncRules c s (atomic c x y .xor 8)
/-- AMIN (R210). -/
def execAmin (c : Chain) (x y : RegNum) (s : State) : Host.Outcome State Fault Refusal := issue syncRules c s (atomic c x y .min 8)
/-- AMAX (R210). -/
def execAmax (c : Chain) (x y : RegNum) (s : State) : Host.Outcome State Fault Refusal := issue syncRules c s (atomic c x y .max 8)
/-- AMINU (R210). -/
def execAminu (c : Chain) (x y : RegNum) (s : State) : Host.Outcome State Fault Refusal := issue syncRules c s (atomic c x y .minu 8)
/-- AMAXU (R210). -/
def execAmaxu (c : Chain) (x y : RegNum) (s : State) : Host.Outcome State Fault Refusal := issue syncRules c s (atomic c x y .maxu 8)
/-- ASWAP (R210). -/
def execAswap (c : Chain) (x y : RegNum) (s : State) : Host.Outcome State Fault Refusal := issue syncRules c s (atomic c x y .swap 8)
/-- ACAS (R210). -/
def execAcas (c : Chain) (x y : RegNum) (s : State) : Host.Outcome State Fault Refusal := issue syncRules c s (atomic c x y .cas 8)
/-- AFADD (R210). -/
def execAfadd (c : Chain) (x y : RegNum) (s : State) : Host.Outcome State Fault Refusal := issue syncRules c s (atomic c x y .fadd 8)
/-- AFADDO (R212). -/
def execAfaddo (c : Chain) (x y : RegNum) (s : State) : Host.Outcome State Fault Refusal := issue syncRules c s (atomic c x y .faddo 8)
/-- AADDW (R210). -/
def execAaddw (c : Chain) (x y : RegNum) (s : State) : Host.Outcome State Fault Refusal := issue syncRules c s (atomic c x y .add 4)
/-- AANDW (R210). -/
def execAandw (c : Chain) (x y : RegNum) (s : State) : Host.Outcome State Fault Refusal := issue syncRules c s (atomic c x y .and 4)
/-- AORW (R210). -/
def execAorw (c : Chain) (x y : RegNum) (s : State) : Host.Outcome State Fault Refusal := issue syncRules c s (atomic c x y .or 4)
/-- AXORW (R210). -/
def execAxorw (c : Chain) (x y : RegNum) (s : State) : Host.Outcome State Fault Refusal := issue syncRules c s (atomic c x y .xor 4)
/-- AMINW (R210). -/
def execAminw (c : Chain) (x y : RegNum) (s : State) : Host.Outcome State Fault Refusal := issue syncRules c s (atomic c x y .min 4)
/-- AMAXW (R210). -/
def execAmaxw (c : Chain) (x y : RegNum) (s : State) : Host.Outcome State Fault Refusal := issue syncRules c s (atomic c x y .max 4)
/-- AMINUW (R210). -/
def execAminuw (c : Chain) (x y : RegNum) (s : State) : Host.Outcome State Fault Refusal := issue syncRules c s (atomic c x y .minu 4)
/-- AMAXUW (R210). -/
def execAmaxuw (c : Chain) (x y : RegNum) (s : State) : Host.Outcome State Fault Refusal := issue syncRules c s (atomic c x y .maxu 4)
/-- ASWAPW (R210). -/
def execAswapw (c : Chain) (x y : RegNum) (s : State) : Host.Outcome State Fault Refusal := issue syncRules c s (atomic c x y .swap 4)
/-- ACASW (R210). -/
def execAcasw (c : Chain) (x y : RegNum) (s : State) : Host.Outcome State Fault Refusal := issue syncRules c s (atomic c x y .cas 4)
/-- AFADDW (R210). -/
def execAfaddw (c : Chain) (x y : RegNum) (s : State) : Host.Outcome State Fault Refusal := issue syncRules c s (atomic c x y .fadd 4)
/-- AFADDOW (R212). -/
def execAfaddow (c : Chain) (x y : RegNum) (s : State) : Host.Outcome State Fault Refusal := issue syncRules c s (atomic c x y .faddo 4)

/-- FENCE of thread scope: executes while speculating (R180, R194). -/
def execFence (c : Chain) (s : State) : Host.Outcome State Fault Refusal := issue { drained := true } c s (fenceOf c 0)
/-- FENCE.G (R180). -/
def execFenceG (c : Chain) (s : State) : Host.Outcome State Fault Refusal := issue syncRules c s (fenceOf c 1)
/-- FENCE.M (R180). -/
def execFenceM (c : Chain) (s : State) : Host.Outcome State Fault Refusal := issue syncRules c s (fenceOf c 2)
/-- FENCE.P (R180). -/
def execFenceP (c : Chain) (s : State) : Host.Outcome State Fault Refusal := issue syncRules c s (fenceOf c 3)

/-- WAITC (R199): the counter as it stands at issue, or a wait for the update that reaches the threshold. -/
def execWaitc (c : Chain) (k : BitVec 4) (y : RegNum) (s : State) : Host.Outcome State Fault Refusal :=
  issue syncRules c s do
    Op.need [.g y] []
    let t ← Op.readG y
    let s ← get
    let n : BitVec 32 := t.setWidth 32
    if n.toNat ≤ (vget s.myTile.c k.toNat 0).toNat then Op.retire c
    else parkFor c (.counter k.toNat n) id

/-- WAITF (R195): waits in the bank's list, and reads nothing. -/
def execWaitf (c : Chain) (y : RegNum) (s : State) : Host.Outcome State Fault Refusal :=
  issue syncRules c s do
    Op.need [.g y] []
    let addr ← Op.readG y
    let u : Use := { read := true, fe := true, plain := false }
    Op.syncAddress false addr 4 u
    match ← homeOf addr u with
    | .void => Op.retire c
    | .pod => Op.sendPod { addr := addr, size := 4, store := true, act := .fe .waitf }
    | .at key =>
      parkFor c (.waitf addr) fun s => s.feRequest
        { key := key, size := 4, kind := .waitf, addr := addr, agent := s.cur.1, thread := s.cur.2 }

/-- CLRF (R196): the word empty, the list rescanned; parked in the skid queue of an absent gang, and condition 7 of R137 at a retired
one (R191). -/
def execClrf (c : Chain) (y : RegNum) (s : State) : Host.Outcome State Fault Refusal :=
  issue syncRules c s do
    Op.need [.g y] []
    let addr ← Op.readG y
    let u : Use := { write := true, fe := true, plain := false, parks := true, kind := .store }
    Op.syncAddress false addr 4 u
    let s ← get
    let a := s.cur.1
    match ← Op.lift (s.resolve a s.cur.2 addr u) with
    | .mem key =>
      let s' := s.usePage a addr
      set (if s.shadows a key then s' else (s'.setFull key false).feRescan key)
    | .absent g r o =>
      match s.parkPad a g r (State.skidRecord 3 0 o r s.myTile.vtn 0 0) (.padClear o) with
      | some s' => set s'
      | none => throw (.parkIn (.ringFull g) s)
    | .gone => Op.trap 0x03 addr
    | .void => pure ()
    | .pod => Op.sendPod { addr := addr, size := 4, store := true, act := .clrf }
    | .window _ | .mcr _ => Op.trap 0x0B addr
    Op.retire c

/-- TAKE (R102): the value with latency 1, and the register empty from the next cycle. Y is a shared register (Decode). -/
def execTake (c : Chain) (x y : RegNum) (s : State) : Host.Outcome State Fault Refusal :=
  issue { held := true } c s do
    Op.need [.g y] [.g x]
    let v ← Op.readG y
    modify fun s => s.modMyTile fun t => t.addChange (SharedChange.mk (y.toNat - 32) (s.cyc s.cur.1 + 1) none s.cur.2)
    Op.writeG x v
    Op.retire c

end Sys2Proof.Machine
end

