-- ==== Sys2Proof/Machine/Barrier.lean ====
section
/-! DEFINITION. Barriers and speculation past them: BAR, BARS, BARCFG, BARQ, BARR, the delivery of a completion, rollbacks and
drains (R182, R183, R215-R236, R460). -/

namespace Sys2Proof.Machine

namespace State

/-! ### Arriving -/

/-- A thread's arrival reaches the network; it may decide the group (R219, R220). -/
def arrive (s : State) (a th b : Nat) (w : BarWait) (v : Word) : State :=
  let s := s.modTile a fun t => { t with
    arrived := vset t.arrived b (vget t.arrived b 0 ||| (1#4 <<< th))
    barWait := vset t.barWait th w, contrib := vset t.contrib th v }
  s.decideGroup a b

/-- Whether BARS may speculate (R225). -/
def specUnused (s : State) (a th b : Nat) : Bool := !(s.tile a).specUsed.getLsbD (4 * b + th)

/-! ### Rollback (R232) -/

/-- A thread that speculates goes back to its checkpoint and waits at its barrier. -/
def rollBack (s : State) (a th : Nat) : State :=
  let s := s.freeWatches fun w => w.agent == a && w.thread == th
  match (s.thread a th).spec with
  | none => s.modThread a th fun t => { t with rollback := false }
  | some sp =>
    let s := s.modThread a th fun t => { t with
      g := sp.g, v := sp.v, q := sp.q, fst := sp.fst, srcnt := sp.srcnt, loop0 := sp.loop0, loop1 := sp.loop1
      ldepth := sp.ldepth, pc := sp.barsPc, parkNext := sp.pc, park := some (.barrier sp.bar), spec := none
      rollback := false, popped := [], held := [], claims := [], relaxed := [] }
    s.modTile a fun t => { t with specUsed := t.specUsed ||| (1#16 <<< (4 * sp.bar + th)), rollbacks := t.rollbacks + 1 }

/-! ### The drain (R233) -/

/-- Store the masked bytes of a doubleword for an agent. -/
def storeMaskedAs (s : State) (a key : Nat) (e : BufEntry) : State :=
  if e.mask == 0xFF#8 then s.storeAs a key 8 e.data.toNat
  else if s.shadows a key then
    (List.range 8).foldl (fun s i => if e.mask.getLsbD i then s.storeAs a (key + i) 1 (e.data.toNat / 256 ^ i % 256) else s) s
  else s.storeMasked key e.mask e.data

/-- The stores that stand for a drained entry at a pad that is away, by their places in it: one of 8 bytes, or one for each byte of its
mask (log 41). -/
def drainPieces (e : BufEntry) : List (Nat × Nat × Nat) :=
  if e.mask == 0xFF#8 then [(0, 8, e.data.toNat)]
  else ((List.range 8).filter fun i => e.mask.getLsbD i).map fun i => (i, 1, e.data.toNat / 256 ^ i % 256)

/-- Park several stores of a tile at a pad that is away, or none where they do not all fit; with poison, where they have it. -/
def parkPads (s : State) (a gang rank off : Nat) (poison : Bool) : List (Nat × Nat × Nat) → Option State
  | [] => some s
  | (i, n, v) :: t =>
    (s.parkPad a gang rank (skidRecord 1 (16 * sizeCode n) (off + i) rank (s.tile a).vtn 0 v)
      (.padStore (off + i) n (BitVec.ofNat 64 v) poison)).bind
      fun s => parkPads (if poison && (s.tile a).mark == .original then s.poisonLast (s.tile a).handle gang else s) a gang rank off poison t

/-- Add terms to a tile's digest. -/
def addTerms (s : State) (a : Nat) (d : Vector (BitVec 32) 4) : State :=
  s.modTile a fun t => { t with digest := Vector.zipWith (· + ·) t.digest d }

/-- Perform one entry of a drained buffer, with its digest terms (R366); none while it has to wait. -/
def drainOne (s : State) (a th : Nat) (e : BufEntry) : Option State :=
  (match s.resolve a th e.addr Use.store with
    | .ok (.mem key) => some (s.storeMaskedAs a key e)
    | .ok (.absent g r o) => s.parkPads a g r o false (drainPieces e)
    | .ok .gone => some (s.countFault (s.tile a).handle (s.threadFault a th 0x03 e.addr))
    | .ok .void => some s
    | .ok .pod => match s.podEnd a e.addr with
      | .waits => none
      | .lost => some (s.podLost a th e.addr)
      | .fails cause => some ((s.podPast a e.addr).countFault (s.tile a).handle (s.threadFault a th cause e.addr))
      | .answered _ => some ((s.podPast a e.addr).podWrote a e.addr 8 e.data.toNat)
    | .ok (.window _) | .ok (.mcr _) | .error _ => none).map fun (s : State) => s.addTerms a e.terms

/-- A turn of a draining thread: the next entry of its buffer, in order; at the turn after the last its held trap is taken, or it issues
again (R230, R233, R445). -/
def drainThread (s : State) (a th : Nat) : State :=
  let t := s.thread a th
  match t.drain with
  | e :: rest => match s.drainOne a th e with
    | some s => s.modThread a th fun t => { t with drain := rest }
    | none => s
  | [] => match t.dueTrap with
    | some f => (s.modThread a th fun t => { t with dueTrap := none, park := none }).takeTrap a th f.1 false t.pc f.2
    | none => s.modThread a th fun t => { t with park := none }

/-- A thread that has stopped speculating, its buffer still to drain: it is parked on the drain, so that a load that another module has not
answered issues again after it. With nothing to drain and no trap held it goes on. -/
def commitThread (t : Thread) (sp : Spec) : Thread :=
  let t := { t with spec := none, drain := sp.buf, dueTrap := sp.held, rollback := false }
  if sp.buf.isEmpty && sp.held.isNone then { t with park := if t.park == some .speculating then none else t.park }
  else { t with park := some .draining, relaxed := [], popped := [], held := [], claims := [] }

/-- A thread stops speculating at its barrier's completion: its watches go, and its buffer is to drain. -/
def commit (s : State) (a th : Nat) : State :=
  match (s.thread a th).spec with
  | none => s
  | some sp => (s.freeWatches fun w => w.agent == a && w.thread == th).modThread a th fun t => commitThread t sp

/-! ### Completion (R217, R219, R223) -/

/-- The threads of a tile in an arrival mask. -/
def threadsIn (m : BitVec 4) : List Nat := [0, 1, 2, 3].filter fun th => m.getLsbD th

/-- The contributions of a completion, by rank and thread. -/
def contributions (s : State) (d : BarDone) : List (Nat × Word) :=
  d.members.flatMap fun m =>
    let t := s.tile m.1
    ((threadsIn m.2).filter fun th => (vget t.barWait th {}).kind == 2#2).map fun th =>
      (if isCore m.1 then 0 else rankOf t.vtn, vget t.contrib th 0)

/-- Every arrived thread waits at the barrier or speculates past it, so that its completion can be delivered. -/
def deliverable (s : State) (d : BarDone) : Bool :=
  d.members.all fun m => (threadsIn m.2).all fun th =>
    let t := s.thread m.1 th
    t.park == some (.barrier d.group.ident) || t.spec.isSome || !t.live

/-- Release one arrived thread: with a BARR result, by going on, or by its commit and drain. -/
def release (s : State) (d : BarDone) (cs : List (Nat × Word)) (a th : Nat) : State :=
  let w := vget (s.tile a).barWait th {}
  let s := s.modTile a fun t => { t with barWait := vset t.barWait th {} }
  let t := s.thread a th
  if !t.live then s
  else if t.spec.isSome then s
  else
    let s := if w.kind == 2#2 then
        match barrNode w.op d.group.level cs with
        | some r => (s.raise a th r.2).writeG a th w.dest r.1 0
        | none => s
      else s
    s.finishThread a th

/-- The tile's phase advances, its arrivals are taken, and its marks for the identifier are cleared (R217, R225). -/
def advancePhase (s : State) (b : Nat) (m : Nat × BitVec 4) : State :=
  s.modTile m.1 fun t => { t with
    phase := vset t.phase b (vget t.phase b 0 + 1)
    arrived := vset t.arrived b (vget t.arrived b 0 &&& ~~~m.2)
    specUsed := t.specUsed &&& ~~~(0xF#16 <<< (4 * b)) }

/-- The phases of the saved ranks that belong to a completed group (R217, R235). -/
def advanceSaved (s : State) (d : BarGroup) : State :=
  let up (r : SavedRank) : SavedRank :=
    let c := vget r.cfg d.ident 0
    if barMember c && barLevel d.ident c == d.level && r.rank / 4 ^ d.level == d.index
    then { r with phases := vset r.phases d.ident (vget r.phases d.ident 0 + 1) } else r
  { s with gangs := mapIf (fun g => g.handle == d.handle && g.index + 65536 * g.mark.no == d.gang) (fun g => { g with saved := g.saved.map up }) s.gangs }

/-- The arrived threads of a completion. -/
def arrivedOf (d : BarDone) : List (Nat × Nat) := d.members.flatMap fun m => (threadsIn m.2).map fun th => (m.1, th)

/-- Deliver a decided completion: rollbacks on their way come first; then results and commits (R183, R231-R233). The drains follow, an entry
at a turn. -/
def deliver (s : State) (d : BarDone) : State :=
  let s := { s with decided := s.decided.filter fun x => x.group != d.group }
  let ts := arrivedOf d
  let s := ts.foldl (fun s p => if (s.thread p.1 p.2).rollback then s.rollBack p.1 p.2 else s) s
  let cs := s.contributions d
  let s := d.members.foldl (fun s m => s.advancePhase d.group.ident m) (s.advanceSaved d.group)
  let spec := ts.filter fun p => (s.thread p.1 p.2).spec.isSome
  let s := ts.foldl (fun s p => s.release d cs p.1 p.2) s
  let s := spec.foldl (fun s p => s.commit p.1 p.2) s
  d.members.foldl (fun s m => s.decideGroup m.1 d.group.ident) s

end State

/-! ### Shapes -/

/-- An arrival is sent after every access of the thread and every posted operation to its own gang (R182). -/
def beforeArrival : Op Unit := do
  let s ← get
  Op.await (s.fenceClear s.cur.1 s.cur.2 1) (.fence 1)

/-- BAR and BARR rules (R229): held while speculating, after every outstanding relaxed access (R182). -/
def barRules : Op.Rules := { held := true, drained := true }

/-! ### Meanings -/

/-- BAR (R219): a thread that takes no part completes at once. -/
def execBar (c : Chain) (b : BitVec 2) (s : State) : Host.Outcome State Fault Refusal :=
  if s.participates s.cur.1 s.cur.2 b.toNat then
    issue barRules c s do
      beforeArrival
      parkFor c (.barrier b.toNat) fun s => s.arrive s.cur.1 s.cur.2 b.toNat { kind := 1, ident := b } 0
  else issue { held := true } c s (Op.retire c)

/-- The checkpoint of R226: the registers as they stand, and where the thread goes on. -/
def checkpoint (s : State) (c : Chain) (b : Nat) : Spec :=
  let t := s.me
  { bar := b, barsPc := t.pc, pc := Op.next s c, g := t.g, v := t.v, q := t.q, fst := t.fst, srcnt := t.srcnt,
    loop0 := t.loop0, loop1 := t.loop1, ldepth := t.ldepth }

/-- BARS (R225): arrives as BAR does; it speculates where it may, else it waits. Without its feature it acts as BAR (R423). -/
def execBars (c : Chain) (b : BitVec 2) (s : State) : Host.Outcome State Fault Refusal :=
  if s.participates s.cur.1 s.cur.2 b.toNat then
    issue barRules c s do
      beforeArrival
      let s ← get
      let a := s.cur.1
      let th := s.cur.2
      let s' := s.arrive a th b.toNat { kind := 1, ident := b } 0
      if th != 0 && s.feature 2 && s.specUnused a th b.toNat && !s'.isDecided a th b.toNat then do
        set (s'.modMe fun t => { t with spec := some (checkpoint s c b.toNat) })
        Op.retire c
      else parkFor c (.barrier b.toNat) fun s => s.arrive a th b.toNat { kind := 1, ident := b } 0
  else issue { held := true } c s (Op.retire c)

/-- BARCFG (R221): waits for its own tile's arrivals, then evaluates the old and the new group. -/
def execBarcfg (c : Chain) (b : BitVec 2) (x : RegNum) (s : State) : Host.Outcome State Fault Refusal :=
  issue { held := true } c s do
    Op.need [.g x] []
    let s ← get
    let a := s.cur.1
    Op.await (vget s.myTile.arrived b.toNat 0 == 0#4) (.barcfg b.toNat)
    let v ← Op.readG x
    let s ← get
    let old := s.membersOf a b.toNat
    let s := s.modMyTile fun t => { t with barCfg := vset t.barCfg b.toNat (State.barWritten v) }
    let s := match old.filter (· != a) with
      | o :: _ => s.decideGroup o b.toNat
      | [] => s
    set (s.decideGroup a b.toNat)
    Op.retire c

/-- BARQ (R222): reads the state of its own tile; executes while speculating. -/
def execBarq (c : Chain) (x : RegNum) (b : BitVec 2) (s : State) : Host.Outcome State Fault Refusal :=
  issue {} c s do
    Op.need [] [.g x]
    let s ← get
    let t := s.myTile
    let i := b.toNat
    let arrived := vget t.arrived i 0
    let waiting := State.threadsIn arrived |>.any fun th => !s.isDecided s.cur.1 th i
    let past := match s.me.spec with
      | some sp => sp.bar == i
      | none => false
    Op.writeG x ((vget t.phase i 0).setWidth 64 ||| (if waiting then 4 else 0) ||| (if past then 8 else 0)
      ||| ((vget t.barCfg i 0).setWidth 64 <<< 8))
    Op.retire c

/-- BARR (R223): arrives with its contribution; a thread that takes no part gets its value back. -/
def execBarr (c : Chain) (x : RegNum) (b : BitVec 2) (op : BarrOp) (s : State) : Host.Outcome State Fault Refusal :=
  if s.participates s.cur.1 s.cur.2 b.toNat then
    issue barRules c s do
      Op.need [.g x] [.g x]
      beforeArrival
      let v ← Op.readG x
      parkClaim c (.barrier b.toNat) x fun s => s.arrive s.cur.1 s.cur.2 b.toNat { kind := 2, ident := b, op := op, dest := x } v
  else
    issue { held := true } c s do
      Op.need [.g x] [.g x]
      let v ← Op.readG x
      Op.writeG x v
      Op.retire c

/-! ### Events -/

/-- BARRIER_COMPLETE (R219): a decided completion is delivered to its group. -/
def execBarrierComplete (handle : Word) (gang ident level group : Nat) (s : State) : Host.Outcome State Fault Refusal :=
  match s.decided.find? fun d => d.group == ⟨handle, gang, ident, level, group⟩ with
  | some d => if s.deliverable d then .next (s.deliver d) else .next s
  | none => .next s

/-- SPEC_ROLLBACK (R232): a rollback on its way reaches its thread; one that finds it no longer speculating is discarded. -/
def execSpecRollback (agent thread : Nat) (s : State) : Host.Outcome State Fault Refusal :=
  if (s.thread agent thread).rollback then .next (s.rollBack agent thread) else .next s

end Sys2Proof.Machine
end

