-- ==== Sys2Proof/Machine/Message.lean ====
section
/-! DEFINITION. Messages, counters, inboxes, links and triggers (R238-R264, R457, R458), the event queue they report to (R329),
and the start of a thread (R341, R342). -/

namespace Sys2Proof.Machine

namespace State

/-! ### Slots of the copy engine (R319) -/

def copy? (s : State) (a slot : Nat) : Option CopyCmd := vget (s.tile a).copies slot none
def modCopy (s : State) (a slot : Nat) (f : CopyCmd → CopyCmd) : State :=
  s.modTile a fun t => { t with copies := vset t.copies slot ((vget t.copies slot none).map f) }
def freeCopy (s : State) (a slot : Nat) : State := s.modTile a fun t => { t with copies := vset t.copies slot none }

/-- The slot that holds a command number. -/
def slotOf (s : State) (a : Nat) (n : BitVec 32) : Option (Nat × CopyCmd) :=
  ([0, 1, 2, 3].filterMap fun i => (s.copy? a i).map fun c => (i, c)).find? fun p => p.2.number == n

/-! ### The event queue (R262, R329) -/

/-- An event enters the tile's queue; a command that has waited for it with its completion leaves its slot (R324). -/
def eventIn (s : State) (a : Nat) (e : EventRec) : State :=
  let s := (s.modTile a fun t => { t with events := t.events ++ [e] }).wakeSleepers a
  if e.lo.extractLsb' 0 8 == 1#8 then
    match s.slotOf a (e.lo.extractLsb' 32 32) with
    | some (i, c) => if c.phase == .closing then s.freeCopy a i else s
    | none => s
  else s

/-- An event enters the tile's queue; one that finds it full is held by its reporter, behind those held before. -/
def enterEvent (s : State) (a : Nat) (e : EventRec) : State :=
  let t := s.tile a
  if t.events.length < 16 && t.eventWait.isEmpty then s.eventIn a e else s.modTile a fun t => { t with eventWait := t.eventWait ++ [e] }

/-- Held events enter as entries are popped. -/
def admitEvents (s : State) (a : Nat) : State :=
  let t := s.tile a
  match t.eventWait with
  | e :: rest => if t.events.length < 16 then (s.modTile a fun t => { t with eventWait := rest }).eventIn a e else s
  | [] => s

/-- An engine-fault event: source 0 copy command, 1 trigger action, 2 other posted operation. -/
def faultEvent (cause : BitVec 8) (source slot : Nat) (command : BitVec 32) (addr : Word) : EventRec :=
  { lo := BitVec.ofNat 64 (2 + cause.toNat * 2 ^ 8 + source * 2 ^ 16 + slot * 2 ^ 24 + command.toNat * 2 ^ 32), hi := addr }

/-! ### Starting a thread (R341, R342) -/

/-- The state in which a thread starts; a service core's threads are supervisor threads (R378). -/
def startThread (s : State) (a th : Nat) (pc arg g4 : Word) : State :=
  let stack := match s.grid? (s.tile a).handle with
    | some g => g.desc.stack
    | none => 0
  let sp : Word := if stack = 0 then 0 else 0x6000#64 - BitVec.ofNat 64 (th * stack)
  let g0 : Vector Word 32 := Vector.replicate 32 0
  s.modThread a th fun t =>
    { live := true, pc := pc, g := vset (vset (vset g0 2 sp) 3 arg) 4 g4, tst := if isCore a then 1 else 0,
      tvec := s.vdTvec (s.vdOf a), seedSeq := t.seedSeq, relaxed := t.relaxed }

/-- SPAWN on a tile: its status, and the thread started (R341). -/
def spawnOn (s : State) (a : Nat) (e w : Word) : Nat × State :=
  let t := (w.extractLsb' 0 2).toNat
  if t = 0 then (2, s)
  else if tagOf e ≠ 4 || e.getLsbD 0 then (3, s)
  else if (s.thread a t).live then (1, s)
  else (0, s.startThread a t e w 0)

/-! ### Counters and triggers (R241, R250-R254) -/

namespace Trig
def thr (t : Trigger) : Nat := (t.cfg.extractLsb' 0 32).toNat
def ctr (t : Trigger) : Nat := (t.cfg.extractLsb' 32 4).toNat
def dctr (t : Trigger) : Nat := (t.cfg.extractLsb' 36 4).toNat
def kind (t : Trigger) : Nat := (t.cfg.extractLsb' 40 3).toNat
def armed (t : Trigger) : Bool := t.cfg.getLsbD 47
def step (t : Trigger) : Nat := (t.cfg.extractLsb' 48 16).toNat
/-- ARMED cleared. -/
def disarm (t : Trigger) : Trigger := { t with cfg := t.cfg &&& ~~~(1#64 <<< 47) }
/-- After a firing: THR advanced, or the slot no longer armed. -/
def advance (t : Trigger) : Trigger :=
  if step t = 0 || 2 ^ 32 ≤ thr t + step t then disarm t
  else { t with cfg := (t.cfg &&& ~~~0xFFFFFFFF#64) ||| BitVec.ofNat 64 (thr t + step t) }
end Trig

/-- The next slot that an evaluation fires, from its place on. -/
def nextFire (t : Tile) (e : TrigEval) (v : BitVec 32) : Option Nat :=
  (List.range 8).find? fun z =>
    let g := vget t.trig z {}
    (e.z ≤ z && (e.only.isNone || e.only == some z)) && Trig.armed g && Trig.ctr g == e.ctr && Trig.thr g ≤ v.toNat

/-- Pass the evaluations that fire nothing; each reads its counter when its turn comes (R252). -/
def settleEvals (s : State) (a : Nat) : Nat → State
  | 0 => s
  | n + 1 =>
    let t := s.tile a
    match t.evalQ with
    | [] => s
    | e :: rest =>
      let v := e.value.getD (vget t.c e.ctr 0)
      match nextFire t e v with
      | none => settleEvals (s.modTile a fun t => { t with evalQ := rest }) a n
      | some z => s.modTile a fun t => { t with evalQ := { e with value := some v, z := z } :: rest }

/-- Once nothing that fired is left, a replay's actions have been issued. -/
def endReplay (s : State) (a : Nat) : State := if (s.tile a).evalQ.isEmpty then s.modTile a fun t => { t with replaying := false } else s

/-- Queue an evaluation and pass what fires nothing. -/
def evaluate (s : State) (a : Nat) (e : TrigEval) : State :=
  let s := s.modTile a fun t => { t with evalQ := t.evalQ ++ [e] }
  s.settleEvals a ((s.tile a).evalQ.length + 1)

/-- WAITCs that an update satisfies complete (R199). -/
def releaseWaitc (s : State) (a k : Nat) : State :=
  let v := vget (s.tile a).c k 0
  [0, 1, 2, 3].foldl (fun s th => match (s.thread a th).park with
    | some (.counter j n) => if j = k && n.toNat ≤ v.toNat then s.finishThread a th else s
    | _ => s) s

/-- An update of a counter: the value, the WAITCs and SLEEPs it releases, its trigger evaluation (R241). -/
def setCounter (s : State) (a k : Nat) (v : BitVec 32) : State :=
  let s := s.modTile a fun t => { t with c := vset t.c k v }
  ((s.releaseWaitc a k).wakeSleepers a).evaluate a { ctr := k }

def addCounter (s : State) (a k : Nat) (n : BitVec 32) : State := s.setCounter a k (vget (s.tile a).c k 0 + n)

/-! ### Translation of a destination (R257, R258) -/

/-- The entry of a gang in a tile's residency cache, read from the table where it is missing. -/
def cachedEntry (s : State) (a : Nat) (g : Grid) (gang : Nat) : ResEntry × State :=
  match (s.tile a).resCache.find? fun e => e.handle == g.handle && e.gang == gang with
  | some e => (e, s)
  | none =>
    let w := s.residency g gang
    let e : ResEntry := { handle := g.handle, gang := gang, entry := w, skip := s.skipList w }
    (e, if s.hasTile a then s.modTile a fun t => { t with resCache := e :: t.resCache.take 63 } else s)

/-- Drop a tile's cached entry of a gang. -/
def dropEntry (s : State) (a : Nat) (h : Word) (gang : Nat) : State :=
  if !s.hasTile a then s
  else s.modTile a fun t => { t with resCache := t.resCache.filter fun e => !(e.handle == h && e.gang == gang) }

/-- Where a tile's interface sends an operation. -/
inductive Route where
  | site (b : Nat) (gen : BitVec 16)
  | absent
  | gone
  /-- A gang of another module (R346). -/
  | away
deriving DecidableEq, Repr, Inhabited

/-- Translate a destination virtual tile. -/
def route (s : State) (a : Nat) (h : Word) (mark : RunMark) (v : BitVec 32) : Route × State :=
  if mark != .original then
    (match (s.gangs.find? fun g => g.handle == h && g.index == gangOf v && g.mark == mark).bind fun g => g.sites[rankOf v]? with
      | some b => .site b 0
      | none => .absent, s)
  else match s.grid? h with
    | none => (.gone, s)
    | some g =>
      if gangOf v < g.lo || g.hi ≤ gangOf v then (if s.inPod (s.ownerOf g (gangOf v)) then .away else .gone, s)
      else
        let r := s.cachedEntry a g (gangOf v)
        let e := r.1.entry
        if resRet e || resNst e then (.gone, r.2)
        else if resRes e && !resMove e then (.site (siteOfRank (resBase e) (rankOf v) r.1.skip) (resGen e), r.2)
        else (.absent, r.2)

/-- A site holds the tile a message is for, and takes it (R258). -/
def accepts (s : State) (m : Msg) : Bool :=
  match m.site with
  | none => false
  | some b => let t := s.tile b; s.hasTile b && t.handle == m.handle && t.vtn == m.dest && t.mark == m.mark && !t.sealed

/-! ### Posting -/

/-- A free outbound entry (R239). -/
def outboundFree (s : State) (a : Nat) : Bool := (s.tile a).outb.length < 16

/-- Hand a message to the network, with an outbound entry where it takes one. -/
def postMsg (s : State) (m : Msg) (entry : Bool) : State :=
  let m := { m with id := s.nextMsg, at_ := s.cyc m.agent }
  let s := { s with net := s.net ++ [m], nextMsg := s.nextMsg + 1 }
  if entry then s.modTile m.agent fun t => { t with outb := t.outb ++ [m.id] } else s

/-- A message of a tile to a virtual tile. -/
def sendTo (s : State) (a th : Nat) (kind : MsgKind) (dest : BitVec 32) (slot : Option Nat) : State :=
  let t := s.tile a
  let r := s.route a t.handle t.mark dest
  let site := match r.1 with
    | .site b g => (some b, g)
    | .absent | .gone | .away => (none, 0)
  r.2.postMsg { id := 0, kind := kind, agent := a, thread := th, vtn := t.vtn, handle := t.handle, vd := s.vdOf a, dest := dest,
                site := site.1, gen := site.2, slot := slot, mark := t.mark, sup := (s.thread a th).sup } true

/-- PUT or PUTV of a tile: its digest terms at hand-over; a re-run's to another gang goes no further (R366, R368). -/
def postPut (s : State) (a th : Nat) (cx : Bool) (addr : Word) (ctr : Nat) (size v : Nat) (slot : Option Nat) : State :=
  let dest : BitVec 32 := addr.extractLsb' 16 32
  let off := fieldOf addr 0 16
  let s := s.digest a cx addr size v
  let t := s.tile a
  if t.mark != .original && gangOf dest != gangOf t.vtn then s
  else s.sendTo a th (if size = 8 then .put off ctr (BitVec.ofNat 64 v) else .putv off ctr (BitVec.ofNat 128 v)) dest slot

/-! ### Failing after hand-over (R262) -/

/-- The tile that issued a message still stands where it stood. -/
def issuerHere (s : State) (m : Msg) : Bool :=
  let t := s.tile m.agent
  isCore m.agent || (s.hasTile m.agent && t.handle == m.handle && t.vtn == m.vtn && t.mark == m.mark)

/-- The tile that issued a message is saved, and will come back. -/
def issuerSaved (s : State) (m : Msg) : Bool :=
  s.gangs.any fun g => g.handle == m.handle && g.index == gangOf m.vtn && g.mark == m.mark
    && (g.phase == .resident || g.phase == .stopping || g.phase == .swappedOut) && !g.ended && !g.retiredRanks.contains (rankOf m.vtn)

/-- An event for the tile that issued a message; one for a tile that is saved is held until it is back (R262, R329). -/
def reportTo (s : State) (m : Msg) (e : EventRec) : State :=
  if s.issuerHere m then s.enterEvent m.agent e
  else if s.issuerSaved m then { s with heldReports := s.heldReports ++ [⟨m.handle, m.vtn, m.mark, e⟩] } else s

/-- Report a failed posted operation or action: an event at its tile, and a count in its grid. The rule names neither source nor thread for
a NOTE (DESIGN CHOICE, log 93): one that lies outside the grid is reported as its POST, by the thread or slot of that, and one that is
discarded on its way with source 2 and thread 0xFF, whoever posted. -/
def failMsg (s : State) (m : Msg) (cause : BitVec 8) (addr : Word) : State :=
  let src := match m.slot with
    | some z => if z < 8 then (1, z) else (2, 0)
    | none => (2, 0)
  let s := s.reportTo m (faultEvent cause src.1 src.2 0 addr)
  if m.mark != .original then s
  else s.countFault m.handle { vtn := m.vtn, thread := if m.slot.isSome then 0xFF else BitVec.ofNat 8 m.thread, cause := cause,
                               module := BitVec.ofNat 16 s.moduleNo, value := addr }

/-- The message with a number. -/
def msg? (s : State) (id : Nat) : Option Msg := s.net.find? fun m => m.id == id
def modMsg (s : State) (id : Nat) (f : Msg → Msg) : State := { s with net := mapIf (fun m => m.id == id) f s.net }
def dropMsg (s : State) (id : Nat) : State := { s with net := s.net.filter fun m => m.id != id }

/-- A message that holds no outbound entry: a response, a NOTE, a handle, or one that is parked. -/
def entryless (m : Msg) : Bool :=
  m.slot == some 9 || m.parked || match m.kind with
    | .getResp _ _ _ _ | .handle _ _ => true
    | _ => false

/-- A message has landed, been parked or been discarded: its acknowledgement is on its way to its outbound entry, where it has one
(R239). What its tile on another module sent behind it can go on (R185). -/
def ackMsg (s : State) (m : Msg) : State :=
  if podAgent 0 ≤ m.agent then (s.dropMsg m.id).podPump (m.agent - podAgent 0)
  else if entryless m || !((s.tile m.agent).outb.contains m.id) then s.dropMsg m.id
  else s.modMsg m.id fun m => { m with phase := .acked, hold := none }

/-- The remote-pad address a message acts on, or the virtual tile number where it names no address. -/
def msgAddr (m : Msg) : Word :=
  let pad (off : Nat) : Word := 0x1000000000000000#64 ||| (m.dest.setWidth 64 <<< 16) ||| BitVec.ofNat 64 off
  match m.kind with
  | .put off _ _ | .putv off _ _ | .getReq off _ _ | .getResp off _ _ _ | .handle off _ | .padStore off _ _ _ | .padFull off _ _
  | .padClear off => pad off
  | .send _ | .cinc _ _ => m.dest.setWidth 64
  | .post d _ | .launch d => d

/-- A message keeps its place among those of its sender to one destination. -/
def ordered (m : Msg) : Bool :=
  m.slot != some 9 && match m.kind with
    | .getResp _ _ _ _ | .handle _ _ | .post _ _ | .launch _ | .padStore _ _ _ _ | .padFull _ _ _ | .padClear _ => false
    | .put _ _ _ | .putv _ _ _ | .getReq _ _ _ | .send _ | .cinc _ _ => true

/-- Two messages are of one tile, of one run. -/
def sameSender (x m : Msg) : Bool := x.agent == m.agent && x.vtn == m.vtn && x.handle == m.handle && x.mark == m.mark && x.tile == m.tile

/-- The module of another range to which a message goes (R346). -/
def msgModule (s : State) (m : Msg) : Option Nat :=
  if !ordered m || m.mark != .original then none
  else (s.grid? m.handle).bind fun g =>
    if gangOf m.dest < g.lo || g.hi ≤ gangOf m.dest then some (s.ownerOf g (gangOf m.dest)) else none

/-- The module to which a store of pod space, or of a pad elsewhere, goes (R174, R185). -/
def storeModule (s : State) (a : Nat) (r : Relaxed) : Option Nat :=
  if !r.store then none
  else if tagOf r.addr == 5 then some (fieldOf r.addr 50 6)
  else if s.isFar a r.addr then some (s.podModule a r.addr) else none

/-- A relaxed store of a tile to a module, issued before a cycle, is still outstanding. -/
def storeBefore (s : State) (a m : Nat) (at_ : Word) : Bool := [0, 1, 2, 3].any fun th =>
  (s.thread a th).relaxed.any fun x => x.fault.isNone && s.storeModule a x == some m && decide (x.at_.toNat < at_.toNat)

/-- A posted operation of a tile to a module, issued no later than a cycle, has not landed. -/
def postBefore (s : State) (a m : Nat) (at_ : Word) : Bool := s.net.any fun x =>
  x.agent == a && x.phase == .flight && s.msgModule x == some m && decide (x.at_.toNat ≤ at_.toNat)

/-- A message to another module lands there after what its tile sent to that module before, whatever the tiles there (R185). -/
def inPodTurn (s : State) (m : Msg) : Bool :=
  match s.msgModule m with
  | none => true
  | some k => !(s.net.any fun x => sameSender x m && x.phase == .flight && decide (x.id < m.id) && s.msgModule x == some k)
    && !s.storeBefore m.agent k m.at_

/-- Messages of one tile to one destination land in issue order (R176), the parked ones first; one that waits for room in a skid queue or
an overflow ring holds back the later ones to its gang (R259). Those of one tile to another module all do (R185). -/
def inTurn (s : State) (m : Msg) : Bool :=
  if podAgent 0 ≤ m.agent then !s.arrivedBefore (m.agent - podAgent 0) m.tile m.id
  else !ordered m || (s.inPodTurn m && !(s.net.any fun x => ordered x && sameSender x m
    && x.phase == .flight && ((x.parked && !m.parked) || (decide (x.id < m.id) && x.parked == m.parked))
    && (x.dest == m.dest || (gangOf x.dest == gangOf m.dest && x.hold == some (.ringFull (gangOf x.dest))))))

/-! ### Landing -/

/-- A SEND record that stays in a ring for a rank (R259, R457). -/
def sendRecord (v sender : BitVec 32) (w : Word) : BitVec 256 := skidRecord 7 0 0 (rankOf v) sender 0 w.toNat

/-- A SEND's word lands at a tile: in the inbox, in the overflow ring, or as a continuation; none where its ring is full (R246). -/
def landWord (s : State) (b : Nat) (sender : BitVec 32) (w : Word) : Option State :=
  let t := s.tile b
  if s.hasContinuation b then s.skidAppend t.handle (gangOf t.vtn) (sendRecord t.vtn sender w) true
  else if s.inboxUsed b < 64 && (s.outside b).isNone then
    some ((s.modTile b fun t => { t with inbox := t.inbox ++ [w] }).wakeSleepers b)
  else if !s.hasRings b then none
  else s.ringAppend (s.ovfHdr t.handle (gangOf t.vtn)) (sendRecord t.vtn sender w)

/-- The response of a GET, sent to its requester (R244). -/
def respond (s : State) (h : Word) (mark : RunMark) (requester target : BitVec 32) (off ctr : Nat) (w : Word) (poison : Bool) : State :=
  let r := s.route 0 h mark requester
  let site := match r.1 with
    | .site b g => (some b, g)
    | .absent | .gone | .away => (none, 0)
  s.postMsg { id := 0, kind := .getResp off ctr w poison, agent := 0, thread := 0, vtn := target, handle := h, vd := 0,
              dest := requester, site := site.1, gen := site.2, mark := mark } false

/-- Write a PUT's data at a tile, then increment its counter (R243). -/
def landPut (s : State) (b off ctr n v : Nat) : State := (s.store (tileKey b off) n v).addCounter b ctr 1

/-- What a message does at its tile; none while it has to wait. -/
def land (s : State) (b : Nat) (m : Msg) : Option State :=
  match m.kind with
  | .put off ctr w => some (s.landPut b off ctr 8 w.toNat)
  | .putv off ctr w => some (s.landPut b off ctr 16 w.toNat)
  | .getReq off loc ctr =>
    some (s.respond m.handle m.mark m.vtn m.dest loc ctr (s.read64 (tileKey b off)) (s.isPoisoned (tileKey b off)))
  | .getResp off ctr w p =>
    let s := if p then s.storePoisoned (tileKey b off) w else s.store (tileKey b off) 8 w.toNat
    some (s.addCounter b ctr 1)
  | .send w => s.landWord b m.vtn w
  | .cinc ctr n => some (s.addCounter b ctr n)
  | .handle off v => some (s.store (tileKey b off) 8 v.toNat)
  | .padStore off n w p =>
    let s := s.store (tileKey b off) n w.toNat
    some ((if p then s.setPoison (tileKey b off) true else s).feRescan (tileKey b off))
  | .padFull off n w => some (((s.store (tileKey b off) n w.toNat).markWords (tileKey b off) n true).feRescan (tileKey b off))
  | .padClear off => some ((s.setFull (tileKey b off) false).feRescan (tileKey b off))
  | .post _ _ | .launch _ => none

/-- The skid record that stands for a message whose gang is absent (R259). -/
def recordOf (m : Msg) : BitVec 256 :=
  let r := rankOf m.dest
  match m.kind with
  | .put off ctr w => skidRecord 4 ctr off r m.vtn 0 w.toNat
  | .putv off ctr w => skidRecord 5 ctr off r m.vtn 0 w.toNat
  | .getReq off loc ctr => skidRecord 6 ctr off r m.vtn loc 0
  | .getResp off ctr w _ => skidRecord 4 ctr off r m.vtn 0 w.toNat
  | .send w => skidRecord 7 0 0 r m.vtn 0 w.toNat
  | .cinc ctr n => skidRecord 8 ctr 0 r m.vtn n.toNat 0
  | .handle off v => skidRecord 1 48 off r m.vtn 0 v.toNat
  | .post _ _ | .launch _ | .padStore _ _ _ _ | .padFull _ _ _ | .padClear _ => 0

/-- A message for a tile of a re-run that cannot take it gives up its outbound entry and waits for the tile (R18, R368). -/
def parkMsg (s : State) (m : Msg) : State := if m.parked then s else (s.ackMsg m).parkAway m

/-- A message lands where it was sent, if its site takes it and it is its turn. -/
def landMsg (s : State) (id : Nat) (p : MsgKind → Bool) : State :=
  match s.msg? id with
  | none => s
  | some m =>
    if m.phase != .flight || !p m.kind || !s.inTurn m then s
    else if (s.route m.agent m.handle m.mark m.dest).1 == .away && m.site.isNone then
      -- a tile of another module takes it, once a port that leads there is up; a GET is answered from there (R418; log 1)
      match s.grid? m.handle with
      | none => s
      | some g =>
      let module := s.ownerOf g (gangOf m.dest)
      if !s.podUp module then s
      else
      let s := s.flitThrough module
      match m.kind with
      | .getReq _ loc ctr =>
        let s := { s with free := s.free + 1 }
        (s.respond m.handle m.mark m.vtn m.dest loc ctr (Config.podData s.free) false).ackMsg m
      | _ => s.ackMsg m
    else if !s.accepts m then s
    else match m.site.bind fun b => s.land b m with
      | some s => s.ackMsg m
      | none =>
        if m.mark != .original then s.parkMsg m else s.modMsg m.id fun m => { m with hold := some (.ringFull (gangOf m.dest)) }

/-- A refused or absent destination: translate again, then resend, park or discard (R143, R258, R259). -/
def refuseMsg (s : State) (m : Msg) : State :=
  let s := s.dropEntry m.agent m.handle (gangOf m.dest)
  let r := s.route m.agent m.handle m.mark m.dest
  match r.1 with
  | .site b g =>
    -- a re-run's tile that is sealed, or stands on no site, takes it when it is back
    if m.mark != .original && !s.accepts { m with site := some b } then r.2.parkMsg m
    else r.2.modMsg m.id fun m => { m with site := some b, gen := g, hold := none }
  | .away => r.2.modMsg m.id fun m => { m with site := none, hold := none }
  | .gone =>
    let s := r.2
    (match m.kind with
      | .getResp _ _ _ _ | .handle _ _ => s
      | _ => s.failMsg m 0x03 (msgAddr m)).ackMsg m
  | .absent =>
    if m.mark != .original then r.2.parkMsg m
    else match r.2.skidAppend m.handle (gangOf m.dest) (recordOf m) with
    | some s =>
      (match m.kind with
        | .getResp _ _ _ true => s.poisonLast m.handle (gangOf m.dest)
        | _ => s).ackMsg m
    | none => r.2.modMsg m.id fun m => { m with hold := some (.ringFull (gangOf m.dest)) }

/-! ### Replay of a skid queue (R261, R457) -/

/-- A field of a skid record. -/
def recField (r : BitVec 256) (off n : Nat) : Nat := r.toNat / 256 ^ off % 256 ^ n

/-- The record of a link word for a virtual tile (R259). -/
def linkRecord (v : BitVec 32) (below : Bool) (w : Word) : BitVec 256 :=
  skidRecord 9 (if below then 0 else 1) 0 (rankOf v) (if below then v - 1 else v + 1) 0 w.toNat

/-- A link word enters the FIFO that its tile pops. -/
def refillLink (s : State) (b : Nat) (below : Bool) (w : FifoWord) : State :=
  s.modTile b fun t => if below then { t with lp := t.lp ++ [w] } else { t with ln := t.ln ++ [w] }

/-- The record at a slot lands at its tile; false where it stays as a continuation. -/
def replayOne (s : State) (b slot : Nat) (r : BitVec 256) : State × Bool :=
  let t := s.tile b
  let sub := recField r 1 1
  let off := recField r 2 2
  let sender := BitVec.ofNat 32 (recField r 8 4)
  let w12 := recField r 12 4
  let d := recField r 16 16
  let key := tileKey b off
  let n := 2 ^ (sub / 16 % 4)
  match recKind r with
  | 1 =>
    let s' := s.store key n (d % 256 ^ n)
    ((if s.isPoisoned (slot + 16) then s'.setPoison key true else s').feRescan key, true)
  | 2 => (((s.store key n (d % 256 ^ n)).markWords key n true).feRescan key, true)
  | 3 => ((s.setFull key false).feRescan key, true)
  | 4 =>
    -- a parked GET response keeps its poison in the record (R244)
    if s.isPoisoned (slot + 16) then ((s.storePoisoned key (BitVec.ofNat 64 d)).addCounter b (sub % 16) 1, true)
    else (s.landPut b off (sub % 16) 8 (d % 2 ^ 64), true)
  | 5 => (s.landPut b off (sub % 16) 16 d, true)
  | 6 => (s.respond t.handle t.mark sender t.vtn w12 (sub % 16) (s.read64 key) (s.isPoisoned key), true)
  | 7 =>
    let w := BitVec.ofNat 64 d
    if s.inboxUsed b < 64 && (s.ringOldest (s.ovfHdr t.handle (gangOf t.vtn)) (rankOf t.vtn) (fun _ => true)).isNone then
      ((s.modTile b fun t => { t with inbox := t.inbox ++ [w] }).wakeSleepers b, true)
    else match s.ringAppend (s.ovfHdr t.handle (gangOf t.vtn)) (sendRecord t.vtn sender w) with
      | some s => (s, true)
      | none => (s, false)
  | 8 => (s.addCounter b (sub % 16) (BitVec.ofNat 32 w12), true)
  | 9 => ({ s with sentWords := s.sentWords.filter (· != slot) }.refillLink b (sub % 2 == 0) ⟨BitVec.ofNat 64 d, s.sentWords.contains slot⟩, true)
  | _ => (s, true)

/-- Replay the records of a tile's rank in order; once a SEND stays, every later SEND of the rank stays too (R457). -/
def replayList (s : State) (b hdr : Nat) (stay : Bool) : List Nat → State
  | [] => s
  | i :: rest =>
    let r := s.ringRecord hdr i
    if recRank r != rankOf (s.tile b).vtn || recKind r = 0 then replayList s b hdr stay rest
    else if stay && recKind r = 7 then replayList s b hdr stay rest
    else
      let res := s.replayOne b (s.ringSlot hdr i) r
      if res.2 then replayList (res.1.consume hdr i) b hdr stay rest else replayList res.1 b hdr true rest

/-- What is parked for a tile of a re-run lands, as far as the tile takes it. -/
def replayParked (s : State) (b : Nat) : State :=
  let t := s.tile b
  let mine (m : Msg) : Bool := m.parked && m.handle == t.handle && m.mark == t.mark && m.dest == t.vtn
  (s.net.filter mine).foldl (fun s m =>
    if s.inTurn m then match s.land b m with
      | some s => s.dropMsg m.id
      | none => s.modMsg m.id fun m => { m with site := some b }
    else s.modMsg m.id fun m => { m with site := some b }) s

/-- A restored tile replays the skid queue's records for its rank, before any thread of it resumes, and then issues the actions that
fired (R261). A re-run's tile takes what is parked for it. -/
def replaySkid (s : State) (b : Nat) : State :=
  let t := s.tile b
  let s := match s.grid? t.handle with
    | none => s
    | some g =>
      if t.mark != RunMark.original then s.replayParked b
      else
        let hdr := resSkidPa (s.residency g (gangOf t.vtn))
        s.replayList b hdr false (s.ringLive hdr)
  s.modTile b fun t => { t with replaying := !t.evalQ.isEmpty }

/-! ### POST (R256) -/

/-- The NOTE of a descriptor: a counter of a virtual tile of the issuer's grid, one more. -/
def postNote (s : State) (m : Msg) (desc : Word) (note : Word) : State :=
  if isCore m.agent || !note.getLsbD 63 then s
  else
    let v : BitVec 32 := note.setWidth 32
    match s.grid? m.handle with
    | none => s
    | some g =>
      if g.desc.gcnt ≤ gangOf v || g.desc.gsz ≤ rankOf v then s.failMsg m 0x03 desc
      else
        let r := s.route m.agent m.handle m.mark v
        let site := match r.1 with
          | .site b g => (some b, g)
          | .absent | .gone | .away => (none, 0)
        s.postMsg { m with kind := .cinc (note.extractLsb' 32 4).toNat 1, dest := v, site := site.1, gen := site.2, slot := some 9 } false

/-- A message's request for a translation (R152, R256). -/
def askerOf (s : State) (m : Msg) : Asker :=
  let space := match s.grid? m.handle with
    | some g => g.desc.space
    | none => 0
  { station := entryStation m.agent, vd := m.vd, space := if isCore m.agent then 0 else space, vtn := m.vtn, thread := m.thread, sup := m.sup }

/-- A POST's record goes to the slot it has taken, then DOOR counts it, then NOTE acts (R256). `key` is where its descriptor stands. -/
def writePost (s : State) (m : Msg) (desc : Word) (rec : BitVec 256) (key : Nat) (tail : Word) (stop : State → Word → Stop → State) : State :=
  let q := s.askerOf m
  let slot := s.read64 key + BitVec.ofNat 64 (32 * (tail.toNat % max 1 (s.readN (key + 8) 4)))
  if tagOf slot ≠ 4 || fieldOf slot 56 4 ≠ 0 then (s.failMsg m 0x03 slot).ackMsg m
  else match s.translateAt q slot { write := true, plain := false, kind := .engineWrite } with
    | .error e => stop s slot e
    | .ok dst =>
      let s := (s.usedBy q slot).store dst 32 rec.toNat
      let s := s.store (key + 32) 8 (s.read64 (key + 32) + 1).toNat
      (s.postNote m desc (s.read64 (key + 40))).ackMsg m

/-- Append a POST's record to the ring of its queue: the descriptor and the ring translate as a store. TAIL moves first, and the POST
holds its slot from then on, also where the record has to wait or fails (R256; log 44). -/
def appendPost (s : State) (m : Msg) (desc : Word) (rec : BitVec 256) : State :=
  let q := s.askerOf m
  let u : Use := { read := true, write := true, plain := false, kind := .engineWrite }
  let stop (s : State) (addr : Word) (e : Stop) : State := match e with
    | .trap cause _ => (s.failMsg m cause addr).ackMsg m
    | .park p => s.modMsg m.id fun m => { m with hold := some p }
    | .parkIn p s' => s'.modMsg m.id fun m => { m with hold := some p }
    | .done _ | .fault _ => s
  match m.hold with
  | some (.pageFault addr) => (s.failMsg m 0x05 addr).ackMsg m
  | _ =>
  if !s.spaceValid q.vd q.space then (s.failMsg m 0x03 desc).ackMsg m
  else match s.translateAt q desc u with
    | .error e => stop s desc e
    | .ok key =>
      let s := s.usedBy q desc
      match m.taken with
      | some tail => s.writePost m desc rec key tail stop
      | none =>
        let tail := s.read64 (key + 16)
        if max 1 (s.readN (key + 8) 4) ≤ (tail - s.read64 (key + 24)).toNat then s.modMsg m.id fun m => { m with hold := some .posted }
        else
          let s := (s.store (key + 16) 8 (tail + 1).toNat).modMsg m.id fun m => { m with taken := some tail, hold := none }
          s.writePost m desc rec key tail stop

/-- POSTs of one thread to one queue take their slots in issue order, and one that waits for space holds back the later ones; one that has
its slot holds back none. -/
def postTurn (s : State) (m : Msg) : Bool :=
  !(s.net.any fun x => x.id < m.id && x.agent == m.agent && x.thread == m.thread && x.slot == m.slot && x.phase == .flight && x.taken.isNone
    && match x.kind, m.kind with
      | .post d _, .post d' _ => d == d' || x.hold == some .posted
      | _, _ => false)

/-! ### Trigger actions (R252, R254) -/

/-- The record of a POST action. -/
def actionRecord (t : Tile) (z : Nat) (g : Trigger) : BitVec 256 :=
  record256 [(0, 8, g.d2.toNat), (8, 8, g.d3.toNat), (16, 4, t.vtn.toNat), (20, 1, z), (24, 4, Trig.thr g)]

/-- Whether the action of a slot can be issued now. -/
def actionReady (s : State) (a : Nat) (g : Trigger) : Bool :=
  match Trig.kind g with
  | 0 | 1 | 2 | 3 => s.outboundFree a
  | _ => true

/-- Issue the action of a slot. -/
def fireAction (s : State) (a z : Nat) (g : Trigger) : State :=
  let t := s.tile a
  match Trig.kind g with
  | 0 => s.postPut a 0 false g.d1 (Trig.dctr g) 16 (g.d2.toNat + g.d3.toNat * 2 ^ 64) (some z)
  | 1 =>
    if t.mark != .original then s
    else s.postMsg { id := 0, kind := .post g.d1 (actionRecord t z g), agent := a, thread := 0, vtn := t.vtn, handle := t.handle,
                     vd := s.vdOf a, slot := some z, mark := t.mark, sup := isCore a } true
  | 2 =>
    let at_ : Option Nat := if g.d2.getLsbD 63 then none else some (g.d2.extractLsb' 0 16).toNat
    if t.mark != .original then
      match at_ with
      | some off => s.store (tileKey a off) 8 (2 ^ 63)
      | none => s
    else s.postMsg { id := 0, kind := .launch g.d1, agent := a, thread := 0, vtn := t.vtn, handle := t.handle, vd := s.vdOf a,
                     slot := some z, store := at_, mark := t.mark, sup := isCore a } true
  | 3 =>
    let r := s.spawnOn a g.d1 g.d2
    if r.1 = 0 then r.2
    else s.failMsg { id := 0, kind := .cinc 0 0, agent := a, thread := 0, vtn := t.vtn, handle := t.handle, vd := s.vdOf a,
                     slot := some z, mark := t.mark } 0x01 g.d1
  | _ => s

/-- One firing: the action, then the slot's THR or ARMED, and the evaluations that fire nothing (R252). -/
def fireNext (s : State) (a : Nat) : State :=
  let t := s.tile a
  match t.evalQ with
  | [] => s
  | e :: _ =>
    match nextFire t e (e.value.getD (vget t.c e.ctr 0)) with
    | none => (s.settleEvals a (t.evalQ.length + 1)).endReplay a
    | some z =>
      let g := vget t.trig z {}
      if s.actionReady a g then
        let s := s.fireAction a z g
        let s := s.modTile a fun t => { t with trig := vset t.trig z (Trig.advance (vget t.trig z {})) }
        (s.settleEvals a ((s.tile a).evalQ.length + 1)).endReplay a
      else s

end State

/-! ### Checks at issue (R240, R251) -/

/-- A remote-pad address of the issuer's grid (R142). -/
def remotePad (s : State) (addr : Word) : Bool := s.addressOk s.cur.1 s.cur.2 addr 8 { read := true, plain := false } && State.tagOf addr == 1

/-- A virtual tile number of the issuer's grid. -/
def tileNumber (s : State) (w : Word) : Bool := w.extractLsb' 32 32 == 0#32 && s.inGrid s.cur.1 (w.setWidth 32)

/-- A local address whose range of `n` bytes lies in the pad. -/
def inPad (w : Word) (n : Nat) : Bool := State.tagOf w == 0 && State.fieldOf w 16 44 == 0 && State.fieldOf w 0 16 + n ≤ 0x6000

def aligned (w : Word) (n : Nat) : Bool := w.toNat % n == 0

/-- Rules of a posted operation (R176, R239). -/
def postRules : Op.Rules := { held := true, drained := true }

/-- A posted operation waits for an outbound entry before it issues (R239). -/
def outbound : Op Unit := do
  let s ← get
  Op.await (s.outboundFree s.cur.1) .outbound

/-! ### Meanings -/

/-- PUT (R243). -/
def execPut (c : Chain) (x y : RegNum) (k : BitVec 4) (s : State) : Host.Outcome State Fault Refusal :=
  issue postRules c s do
    Op.need [.g y, .g x] []
    outbound
    let addr ← Op.readG y
    let v ← Op.readG x
    Op.require (remotePad s addr) 0x03 addr
    Op.require (aligned addr 8) 0x04 addr
    modify fun s => s.postPut s.cur.1 s.cur.2 s.me.cx addr k.toNat 8 v.toNat none
    Op.retire c

/-- PUTV (R243). -/
def execPutv (c : Chain) (x y : RegNum) (k : BitVec 4) (s : State) : Host.Outcome State Fault Refusal :=
  issue { held := true, drained := true, compute := true } c s do
    Op.need [.g y, .v x] []
    outbound
    let addr ← Op.readG y
    let v ← Op.readV x
    Op.require (remotePad s addr) 0x03 addr
    Op.require (aligned addr 16) 0x04 addr
    modify fun s => s.postPut s.cur.1 s.cur.2 s.me.cx addr k.toNat 16 v.toNat none
    Op.retire c

/-- GET (R244). A re-run's GET of another gang is discarded (R368). -/
def execGet (c : Chain) (x y : RegNum) (k : BitVec 4) (s : State) : Host.Outcome State Fault Refusal :=
  issue postRules c s do
    Op.need [.g y, .g x] []
    outbound
    let addr ← Op.readG y
    let loc ← Op.readG x
    Op.require (remotePad s addr) 0x03 addr
    Op.require (inPad loc 1) 0x03 loc
    Op.require (aligned addr 8) 0x04 addr
    Op.require (aligned loc 8) 0x04 loc
    modify fun s =>
      let dest : BitVec 32 := addr.extractLsb' 16 32
      if s.myTile.mark != .original && State.gangOf dest != State.gangOf s.myTile.vtn then s
      else s.sendTo s.cur.1 s.cur.2 (.getReq (State.fieldOf addr 0 16) (State.fieldOf loc 0 16) k.toNat) dest none
    Op.retire c

/-- Post to a virtual tile; a re-run's to another gang is discarded (R368). -/
def postTile (kind : MsgKind) (v : Word) : Op Unit := modify fun s =>
  let dest : BitVec 32 := v.setWidth 32
  if s.myTile.mark != .original && State.gangOf dest != State.gangOf s.myTile.vtn then s
  else s.sendTo s.cur.1 s.cur.2 kind dest none

/-- SEND (R246). -/
def execSend (c : Chain) (x y : RegNum) (s : State) : Host.Outcome State Fault Refusal :=
  issue postRules c s do
    Op.need [.g y, .g x] []
    outbound
    let v ← Op.readG y
    let w ← Op.readG x
    Op.require (tileNumber s v) 0x03 v
    postTile (.send w) v
    Op.retire c

/-- An update of a local counter by an instruction may fire a trigger: an armed slot watches the counter. What the thread has done
before then comes before the action, so that its relaxed accesses are performed first (R178; DEDUCED, log 81). -/
def localRules (s : State) (k : BitVec 4) : Op.Rules :=
  { held := true, drained := s.myTile.trig.any fun g => State.Trig.armed g && State.Trig.ctr g == k.toNat }

/-- CSET (R242). -/
def execCset (c : Chain) (k : BitVec 4) (x : RegNum) (s : State) : Host.Outcome State Fault Refusal :=
  issue (localRules s k) c s do
    Op.need [.g x] []
    let v ← Op.readG x
    modify fun s => s.setCounter s.cur.1 k.toNat (v.setWidth 32)
    Op.retire c

/-- CINC (R242): local with Y = 0, else posted to the virtual tile G(Y). -/
def execCinc (c : Chain) (k : BitVec 4) (x y : RegNum) (s : State) : Host.Outcome State Fault Refusal :=
  if y == 0 then
    issue (localRules s k) c s do
      Op.need [.g x] []
      let v ← Op.readG x
      modify fun s => s.addCounter s.cur.1 k.toNat (v.setWidth 32)
      Op.retire c
  else
    issue postRules c s do
      Op.need [.g y, .g x] []
      outbound
      let v ← Op.readG y
      let n ← Op.readG x
      Op.require (tileNumber s v) 0x03 v
      postTile (.cinc k.toNat (n.setWidth 32)) v
      Op.retire c

/-- CRD (R242). -/
def execCrd (c : Chain) (x : RegNum) (k : BitVec 4) (s : State) : Host.Outcome State Fault Refusal :=
  issue { held := true } c s do
    Op.need [] [.g x]
    let s ← get
    Op.writeG x ((vget s.myTile.c k.toNat 0).setWidth 64)
    Op.retire c

/-- POST (R256): the record is copied at issue. A re-run's is not performed (R368). -/
def execPost (c : Chain) (x y : RegNum) (s : State) : Host.Outcome State Fault Refusal :=
  issue postRules c s do
    Op.need [.g y, .g x] []
    outbound
    let d ← Op.readG y
    let p ← Op.readG x
    Op.require (inPad p 32) 0x03 p
    Op.require (aligned p 32) 0x04 p
    Op.require (State.tagOf d == 4) 0x03 d
    Op.require (aligned d 64) 0x04 d
    modify fun s =>
      let t := s.myTile
      if t.mark != .original then s
      else s.postMsg { id := 0, kind := .post d (BitVec.ofNat 256 (s.readN (tileKey s.cur.1 (State.fieldOf p 0 16)) 32)),
                       agent := s.cur.1, thread := s.cur.2, vtn := t.vtn, handle := t.handle, vd := s.vdOf s.cur.1,
                       mark := t.mark, sup := s.me.sup } true
    Op.retire c

/-- The checks of ARM on its action doublewords (R252): cause and address of the first that fails. -/
def armFault (s : State) (kind : Nat) (d1 d2 : Word) : Option (BitVec 8 × Word) :=
  match kind with
  | 0 => if !remotePad s d1 then some (0x03, d1) else if !aligned d1 16 then some (0x04, d1) else none
  | 1 => if State.tagOf d1 != 4 then some (0x03, d1) else if !aligned d1 64 then some (0x04, d1) else none
  | 2 =>
    if State.tagOf d1 != 4 then some (0x03, d1) else if !aligned d1 128 then some (0x04, d1)
    else if d2.getLsbD 63 then none
    else if d2.extractLsb' 16 47 != 0#47 || 0x6000 < (d2.extractLsb' 0 16).toNat + 8 then some (0x03, d2)
    else if !aligned d2 8 then some (0x04, d2) else none
  | _ => none

/-- ARM (R251): the slot replaced whole, then evaluated once. -/
def execArm (c : Chain) (slot : BitVec 3) (x y : RegNum) (s : State) : Host.Outcome State Fault Refusal :=
  issue postRules c s do
    Op.need [.g y, .g x] []
    let p ← Op.readG y
    let cfg ← Op.readG x
    Op.require (inPad p 24) 0x03 p
    Op.require (aligned p 8) 0x04 p
    let s ← get
    let key := tileKey s.cur.1 (State.fieldOf p 0 16)
    let g : Trigger := { cfg := (cfg &&& ~~~(0xF#64 <<< 43)) ||| (1#64 <<< 47), d1 := s.read64 key, d2 := s.read64 (key + 8),
                         d3 := s.read64 (key + 16) }
    match armFault s (State.Trig.kind g) g.d1 g.d2 with
    | some f => Op.trap f.1 f.2
    | none => pure ()
    modify fun s =>
      (s.modMyTile fun t => { t with trig := vset t.trig slot.toNat g }).evaluate s.cur.1
        { ctr := State.Trig.ctr g, z := slot.toNat, only := some slot.toNat }
    Op.retire c

/-- DISARM (R253). -/
def execDisarm (c : Chain) (slot : BitVec 3) (s : State) : Host.Outcome State Fault Refusal :=
  issue { held := true } c s do
    modify fun s => s.modMyTile fun t => { t with trig := vset t.trig slot.toNat (State.Trig.disarm (vget t.trig slot.toNat {})) }
    Op.retire c

/-! ### Events -/

/-- PUT_LAND (R243). -/
def execPutLand (msg : Nat) (s : State) : Host.Outcome State Fault Refusal :=
  .next (s.landMsg msg fun k => match k with
    | .put _ _ _ | .putv _ _ _ | .handle _ _ => true
    | _ => false)

/-- GET_REQUEST_SERVE (R244). -/
def execGetRequestServe (msg : Nat) (s : State) : Host.Outcome State Fault Refusal :=
  .next (s.landMsg msg fun k => match k with
    | .getReq _ _ _ => true
    | _ => false)

/-- GET_RESPONSE (R244). -/
def execGetResponse (msg : Nat) (s : State) : Host.Outcome State Fault Refusal :=
  .next (s.landMsg msg fun k => match k with
    | .getResp _ _ _ _ => true
    | _ => false)

/-- SEND_LAND (R246). -/
def execSendLand (msg : Nat) (s : State) : Host.Outcome State Fault Refusal :=
  .next (s.landMsg msg fun k => match k with
    | .send _ => true
    | _ => false)

/-- CINC_LAND (R242). -/
def execCincLand (msg : Nat) (s : State) : Host.Outcome State Fault Refusal :=
  .next (s.landMsg msg fun k => match k with
    | .cinc _ _ => true
    | _ => false)

/-- INBOX_REFILL (R246, R458): the tile's oldest word outside its inbox moves in. -/
def execInboxRefill (agent : Nat) (s : State) : Host.Outcome State Fault Refusal :=
  match s.outside agent with
  | none => .next s
  | some (hdr, i) =>
    if s.inboxUsed agent < 64 then
      let w := BitVec.ofNat 64 (State.recField (s.ringRecord hdr i) 16 8)
      .next (((s.consume hdr i).modTile agent fun t => { t with inbox := t.inbox ++ [w] }).wakeSleepers agent)
    else .next s

/-- POST_APPEND (R256). -/
def execPostAppend (msg : Nat) (s : State) : Host.Outcome State Fault Refusal :=
  match s.msg? msg with
  | none => .next s
  | some m =>
    if m.phase != .flight || !s.postTurn m then .next s
    else match m.kind with
      | .post d r => .next (s.appendPost m d r)
      | _ => .next s

/-- MESSAGE_REFUSED (R258): a site refuses, or no site was found. -/
def execMessageRefused (msg : Nat) (s : State) : Host.Outcome State Fault Refusal :=
  match s.msg? msg with
  | none => .next s
  | some m =>
    if m.phase != .flight || !s.inTurn m || s.accepts m then .next s
    else match m.kind with
      | .post _ _ | .launch _ => .next s
      | _ => .next (s.refuseMsg m)

/-- OUTBOUND_ACK (R239): an acknowledgement frees its entry; that of a LAUNCH is free once its place in its queue is fixed. -/
def execOutboundAck (agent msg : Nat) (s : State) : Host.Outcome State Fault Refusal :=
  match s.msg? msg with
  | none => .next s
  | some m =>
    let free (s : State) : State := s.modTile agent fun t => { t with outb := t.outb.filter (· != msg) }
    let placed : Bool := match m.kind with
      | .launch _ => m.hold == some .posted
      | _ => false
    if !(s.tile agent).outb.contains msg then .next s
    else if m.phase == .acked then .next (free (s.dropMsg msg))
    else if placed then .next (free s)
    else .next s

/-- TRIGGER_ACTION (R252): the tile issues its next fired action. -/
def execTriggerAction (agent : Nat) (s : State) : Host.Outcome State Fault Refusal := .next (s.fireNext agent)

/-- LINK_WORD_ARRIVE (R248): a word on a chain link enters its FIFO; words of one link arrive in order. One for a tile that is sealed, or
off the wafer, joins its gang's skid queue as a link record (R249, R263); a re-run's waits on its link. -/
def execLinkWordArrive (index : Nat) (s : State) : Host.Outcome State Fault Refusal :=
  match s.links[index]? with
  | none => .next s
  | some l =>
    let same (x : LinkWord) : Bool := x.handle == l.handle && x.gang == l.gang && x.rank == l.rank && x.fromBelow == l.fromBelow
    let off (s : State) : State := { s with links := s.links.eraseIdx index }
    if (s.links.take index).any same then .next s
    else
      let vtn := BitVec.ofNat 32 (l.gang % 65536 * 65536 + l.rank)
      let stands (b : Nat) : Bool := (s.tile b).handle == l.handle && (s.tile b).vtn == vtn && (s.tile b).mark.no == l.gang / 65536
      match s.gangs.find? fun g => g.handle == l.handle && g.index + 65536 * g.mark.no == l.gang with
      | none => .next (off s)
      | some g => match (g.sites[l.rank]?).filter stands with
        | some b =>
          if !(s.tile b).sealed then .next ((off s).refillLink b l.fromBelow ⟨l.word, l.sent⟩)
          -- a tile at rest takes its flying words with it when it stops
          else if (s.site b).atRest || 65536 ≤ l.gang then .next s
          else .next (match s.skidAppend l.handle l.gang (State.linkRecord vtn l.fromBelow l.word) with
            | some s => off s
            | none => s)
        | none =>
          if g.phase == .retired || g.phase == .neverStarted || g.retiredRanks.contains l.rank then .next (off s)
          else if l.gang < 65536 then
            .next (match s.skidAppend l.handle l.gang (State.linkRecord vtn l.fromBelow l.word) with
              | some s => off s
              | none => s)
          else .next s

end Sys2Proof.Machine
end

