-- ==== Sys2Proof/Machine/Sfu.lean ====
section
/-! DEFINITION. The special functions of VSFU (R285): exact cases, then an enclosure of the exact value narrowed until both of its
ends round alike. -/

namespace Sys2Proof.Machine

/-! ### Fixed-point series: integers counted in steps of 2^-p -/

/-- The rest of the exponential series from one term on. -/
def expTail (p r : Nat) : Nat → Nat → Nat → Nat
  | 0, _, _ => 0
  | n + 1, k, t => if t = 0 then 0 else t + expTail p r n (k + 1) (t * r / 2 ^ p / (k + 1))

/-- e^r for a small r. -/
def expFix (p r : Nat) : Nat := expTail p r (p + 16) 0 (2 ^ p)

/-- The rest of the series of atanh (`alt` false) or atan (`alt` true). -/
def atanTail (p z2 : Nat) (alt : Bool) : Nat → Nat → Nat → Int
  | 0, _, _ => 0
  | n + 1, k, t =>
    if t = 0 then 0
    else (if alt && k % 2 == 1 then -((t / (2 * k + 1) : Nat) : Int) else ((t / (2 * k + 1) : Nat) : Int))
      + atanTail p z2 alt n (k + 1) (t * z2 / 2 ^ p)

/-- atanh or atan of num/den. -/
def atanFix (p : Nat) (alt : Bool) (num den : Nat) : Int :=
  let z := num * 2 ^ p / den
  atanTail p (z * z / 2 ^ p) alt (p + 16) 0 z

/-- ln of num/den between 1 and 2. -/
def lnFix (p num den : Nat) : Int := 2 * atanFix p false (num - den) (num + den)

def ln2Fix (p : Nat) : Int := lnFix p 2 1

/-- The circle number by Machin's formula. -/
def piFix (p : Nat) : Int := 16 * atanFix p true 1 5 - 4 * atanFix p true 1 239

/-- The rest of the series of sine or cosine. -/
def sinTail (p r2 : Nat) : Nat → Nat → Nat → Int
  | 0, _, _ => 0
  | n + 1, k, t => if t = 0 then 0 else (t : Int) - sinTail p r2 n (k + 2) (t * r2 / 2 ^ p / ((k + 1) * (k + 2)))

/-- sin r and cos r for a small r. -/
def sinFix (p : Nat) (r : Int) : Int :=
  let v := sinTail p (r.natAbs * r.natAbs / 2 ^ p) (p + 16) 1 r.natAbs
  if r < 0 then -v else v
def cosFix (p : Nat) (r : Int) : Int := sinTail p (r.natAbs * r.natAbs / 2 ^ p) (p + 16) 0 (2 ^ p)

/-- A finite magnitude in steps of 2^-p, rounded down. -/
def fixOf (num : Nat) (exp : Int) (p : Nat) : Nat :=
  if 0 ≤ exp + p then num * 2 ^ (exp + p).toNat else num / 2 ^ (-(exp + p)).toNat

/-- e^y for a y of any sign, above -5,000. -/
def expAny (p : Nat) (y : Int) : Nat :=
  let l := ln2Fix p
  let k := y / l
  let e := expFix p (y - k * l).toNat
  if 0 ≤ k then e * 2 ^ k.toNat else e / 2 ^ (-k).toNat

/-- Sine or cosine after an exact reduction of the argument. -/
def circleFix (p num : Nat) (exp : Int) (neg cos : Bool) : Int :=
  let lead := exp + Nat.log2 num
  let q := p + lead.toNat + 16
  let x : Int := (fixOf num exp q : Nat)
  let pi := piFix q
  let k := (4 * x + pi) / (2 * pi)
  let r := (2 * x - k * pi) / 2 / ((2 ^ (q - p) : Nat) : Int)
  let s := sinFix p r
  let c := cosFix p r
  if cos then match (k % 4).toNat with | 0 => c | 1 => -s | 2 => -c | _ => s
  else
    let v := match (k % 4).toNat with | 0 => s | 1 => c | 2 => -s | _ => -c
    if neg then -v else v

/-- Approximation of a function at a finite non-zero argument: a value in steps of 2^(shift - p), within `sfuErr`. -/
def sfuFix (fn : Sfu) (p : Nat) (neg : Bool) (num : Nat) (exp : Int) : Int × Int :=
  let x : Int := (fixOf num exp p : Nat)
  match fn with
  | .exp2 =>
    let y := if neg then -x else x
    let n := y / ((2 ^ p : Nat) : Int)
    let f := (y % ((2 ^ p : Nat) : Int)).toNat
    ((expFix p (f * (ln2Fix p).toNat / 2 ^ p) : Nat), n)
  | .log2 =>
    let e := Nat.log2 num
    (((exp + e) * (2 ^ p : Nat)) + lnFix p num (2 ^ e) * (2 ^ p : Nat) / ln2Fix p, 0)
  | .sin => (circleFix p num exp neg false, 0)
  | .cos => (circleFix p num exp neg true, 0)
  | .tanh =>
    let w : Int := (expAny p (-2 * x) : Nat)
    let one : Int := (2 ^ p : Nat)
    let v := (one - w) * one / (one + w)
    (if neg then -v else v, 0)
  | .sigm =>
    let w : Int := (expAny p (-x) : Nat)
    let one : Int := (2 ^ p : Nat)
    (if neg then w * one / (one + w) else one * one / (one + w), 0)
  | .rcp | .rsqrt => (0, 0)

/-- A bound of the error of `sfuFix`, in its steps. -/
def sfuErr (p : Nat) : Nat := 2 ^ 16 * (4096 + 64 * p)

/-- Both ends of the enclosure of one precision, rounded. -/
def sfuEnds (f : Fp) (fn : Sfu) (mode draw : Nat) (neg : Bool) (num : Nat) (exp : Int) (p : Nat) : (Nat × BitVec 5) × (Nat × BitVec 5) :=
  let v := sfuFix fn p neg num exp
  let a := v.1.natAbs
  let e := sfuErr p
  let s := decide (v.1 < 0)
  (f.deliver none mode draw s { num := max 1 (a - e), exp := v.2 - p, sticky := true },
   f.deliver none mode draw s { num := a + e - 1, exp := v.2 - p, sticky := true })

/-- The enclosure of a precision leaves one rounding. -/
def sfuSure (f : Fp) (fn : Sfu) (mode draw : Nat) (neg : Bool) (num : Nat) (exp : Int) (p : Nat) : Bool :=
  let r := sfuEnds f fn mode draw neg num exp p
  decide (sfuErr p < (sfuFix fn p neg num exp).1.natAbs) && r.1 == r.2

/-- Narrow the enclosure until it leaves one rounding, with twice the bits each time. The value is irrational, and how near to a rounding
boundary one of a finite operand can come is bounded: 160 x 2^8192 bits lie far beyond that bound, so that the search never comes to
its last arm (DEDUCED, log 14). -/
def sfuSearch (f : Fp) (fn : Sfu) (mode draw : Nat) (neg : Bool) (num : Nat) (exp : Int) : Nat → Nat → Nat × BitVec 5
  | 0, p => (sfuEnds f fn mode draw neg num exp p).1
  | n + 1, p =>
    if sfuSure f fn mode draw neg num exp p then (sfuEnds f fn mode draw neg num exp p).1
    else sfuSearch f fn mode draw neg num exp n (2 * p)

/-- The odd part of a number and the power of two taken out. -/
def oddPart : Nat → Nat → Nat × Nat
  | 0, m => (m, 0)
  | n + 1, m => if m % 2 = 0 ∧ m ≠ 0 then let r := oddPart n (m / 2); (r.1, r.2 + 1) else (m, 0)

/-- 1/sqrt of a magnitude, with enough bits for any rounding. -/
def Mag.rsqrt (m : Nat) (e : Int) : Mag :=
  let m' := if e % 2 = 0 then m else 2 * m
  let e' := if e % 2 = 0 then e else e - 1
  let k := 200 + Nat.log2 m'
  let n := 2 ^ (2 * k) / m'
  let r := isqrtBits n (Nat.log2 n / 2 + 1) 0
  { num := r, exp := -(k : Int) - e' / 2, sticky := r * r * m' != 2 ^ (2 * k) }

/-- VSFU of one lane: bits and flags (R285). -/
def sfuLane (f : Fp) (fn : Sfu) (mode draw a : Nat) : Nat × BitVec 5 :=
  let one := f.bias * 2 ^ f.fbits
  let invalid : Nat × BitVec 5 := (f.canon, flagNV)
  let tiny : Mag := { num := 1, exp := -5000, sticky := true }
  let search (neg : Bool) (num : Nat) (exp : Int) : Nat × BitVec 5 := sfuSearch f fn mode draw neg num exp 8192 160
  match f.decode a with
  | .nan s => (f.canon, if s then flagNV else 0)
  | .inf neg => match fn, neg with
    | .exp2, false | .log2, false => (f.infBits, 0)
    | .exp2, true | .rcp, false | .rsqrt, false | .sigm, true => (0, 0)
    | .rcp, true => (f.signBit, 0)
    | .tanh, n => ((if n then f.signBit else 0) + one, 0)
    | .sigm, false => (one, 0)
    | .log2, true | .rsqrt, true | .sin, _ | .cos, _ => invalid
  | .fin neg num exp =>
    if num = 0 then
      let s := if neg then f.signBit else 0
      match fn with
      | .exp2 | .cos => (one, 0)
      | .log2 => (f.signBit + f.infBits, flagDZ)
      | .rcp | .rsqrt => (s + f.infBits, flagDZ)
      | .sin | .tanh => (s, 0)
      | .sigm => ((f.bias - 1) * 2 ^ f.fbits, 0)
    else
      let big := decide (12 < exp + Nat.log2 num)
      let op := oddPart (Nat.log2 num) num
      match fn with
      | .rcp => (f.deliver none mode draw neg (Mag.quot 1 0 num exp))
      | .rsqrt => if neg then invalid else (f.deliver none mode draw false (Mag.rsqrt num exp))
      | .exp2 =>
        if big then (f.deliver none mode draw false (if neg then tiny else { num := 1, exp := 5000 }))
        else if 0 ≤ exp + op.2 then
          let n : Int := (fixOf num exp 0 : Nat)
          (f.deliver none mode draw false { num := 1, exp := if neg then -n else n })
        else search neg num exp
      | .log2 =>
        if neg then invalid
        else if op.1 = 1 then (f.roundTo none mode draw (.ofInt (exp + op.2)))
        else search neg num exp
      | .sin | .cos => search neg num exp
      | .tanh =>
        if big then (f.deliver none mode draw neg { num := 2 ^ 5000 - 1, exp := -5000, sticky := true })
        else search neg num exp
      | .sigm =>
        if big then
          (f.deliver none mode draw false (if neg then tiny else { num := 2 ^ 5000 - 1, exp := -5000, sticky := true }))
        else search neg num exp

end Sys2Proof.Machine
end

