-- ==== Sys2Proof/Machine/Vector.lean ====
section
/-! DEFINITION. Vector instructions (R265-R286). -/

namespace Sys2Proof.Machine

/-! ### Lanes (R266) -/

/-- Bytes of a lane. -/
def laneBytes (t : VTy) : Nat := 16 / t.lanes
/-- Bits of a lane. -/
def laneBits (t : VTy) : Nat := 8 * laneBytes t
/-- The format of a floating-point type. -/
def fpOf : VTy → Fp
  | .bf16 => .bf16 | .f16 => .fp16 | .f32 => .fp32 | .f64 => .fp64
  | .i8 | .i16 | .i32 | .i64 => .fp64

/-- Bits [8w*l + 8w - 1 : 8w*l] of a register. -/
def getLane (v : VReg) (bits l : Nat) : Nat := v.toNat / 2 ^ (bits * l) % 2 ^ bits

/-- A register with one lane replaced. -/
def setLane (v : VReg) (bits l x : Nat) : VReg :=
  let m : VReg := BitVec.ofNat 128 ((2 ^ bits - 1) * 2 ^ (bits * l))
  (v &&& ~~~m) ||| (BitVec.ofNat 128 (x * 2 ^ (bits * l)) &&& m)

/-- A lane's result: bits, flags, and whether a free value was taken. -/
structure LaneRes where
  bits  : Nat
  flags : BitVec 5 := 0
deriving DecidableEq, Repr, Inhabited

/-- The predicate of a major 0xC instruction as a mask (R267). -/
def vmask (s : State) (c : Chain) : BitVec 16 :=
  let p := s.readQ s.cur.1 s.cur.2 c.pred.toNat
  if c.sense then ~~~p else p

/-- Lane l of a width is active. -/
def laneActive (m : BitVec 16) (bytes l : Nat) : Bool := m.getLsbD (bytes * l)

/-- Lane by lane over active lanes, with the OR of their flags. -/
def mapLanes (t : VTy) (m : BitVec 16) (d : VReg) (f : Nat → LaneRes) : VReg × BitVec 5 :=
  (List.range t.lanes).foldl (fun r l =>
    if laneActive m (laneBytes t) l then let x := f l; (setLane r.1 (laneBits t) l x.bits, r.2 ||| x.flags) else r) (d, 0)

/-- Signed value of a lane. -/
def laneInt (t : VTy) (v : Nat) : Int := State.signedOf (laneBits t) v
/-- The low bits of an integer as a lane. -/
def intLane (t : VTy) (i : Int) : Nat := (i % (2 ^ laneBits t : Nat)).toNat

namespace Op

/-- An instruction with a rounding code executes: under code 6 it steps SRCNT (R82, R270). -/
def coded (c : Chain) (float : Bool) : Op Unit :=
  modify fun s => if float then s.stepSrcnt (s.roundCode c) else s

/-- Add flags to the thread's FST. -/
def flags (fl : BitVec 5) : Op Unit := modify fun s => s.raise s.cur.1 s.cur.2 fl

/-- The register a destination keeps its inactive lanes from; zero for a handle (R267, R273). -/
def oldV (x : RegNum) : Op VReg := do
  let s ← get
  pure (if x.toNat < 32 then vget s.me.v x.toNat 0 else 0)

/-- Write the result and flags of a vector instruction of a latency, and complete it (R271). -/
def finishV (c : Chain) (x : RegNum) (float : Bool) (r : VReg × BitVec 5) (lat : Nat := 1) : Op Unit := do
  writeV x r.1 lat
  flags r.2
  coded c float
  retire c

end Op

/-! ### Lane functions -/

/-- VADD, VSUB, VMUL on one lane (R273). -/
def laneAdd (t : VTy) (mode draw a b : Nat) : LaneRes :=
  if t.isFloat then let r := (fpOf t).addBits mode draw a b; ⟨r.1, r.2⟩ else ⟨(a + b) % 2 ^ laneBits t, 0⟩
def laneSub (t : VTy) (mode draw a b : Nat) : LaneRes :=
  if t.isFloat then
    let f := fpOf t
    let v := FVal.add mode (f.decode a) (f.decode b).neg
    let r := f.roundTo none mode draw v.1
    ⟨r.1, v.2 ||| r.2⟩
  else ⟨(a + (2 ^ laneBits t - b)) % 2 ^ laneBits t, 0⟩
def laneMul (t : VTy) (mode draw a b : Nat) : LaneRes :=
  if t.isFloat then let r := (fpOf t).mulBits mode draw a b; ⟨r.1, r.2⟩ else ⟨a * b % 2 ^ laneBits t, 0⟩
/-- c + a * b (R273). -/
def laneFma (t : VTy) (mode draw a b c : Nat) : LaneRes :=
  if t.isFloat then let r := (fpOf t).fmaBits mode draw a b c; ⟨r.1, r.2⟩ else ⟨(c + a * b) % 2 ^ laneBits t, 0⟩
def laneMin (t : VTy) (a b : Nat) : LaneRes :=
  if t.isFloat then let r := (fpOf t).fmin a b; ⟨r.1, r.2⟩ else ⟨if laneInt t a ≤ laneInt t b then a else b, 0⟩
def laneMax (t : VTy) (a b : Nat) : LaneRes :=
  if t.isFloat then let r := (fpOf t).fmax a b; ⟨r.1, r.2⟩ else ⟨if laneInt t b ≤ laneInt t a then a else b, 0⟩

/-- VADDMIN on one lane: min(c, a + b) with the sum exact (R274). -/
def laneAddMin (t : VTy) (mode draw a b c : Nat) : LaneRes :=
  if t.isFloat then
    let f := fpOf t
    let x := f.decode a
    let y := f.decode b
    let z := f.decode c
    let sum := FVal.add mode x y
    let fl : BitVec 5 := sum.2 ||| (if z.isSnan then flagNV else 0)
    let round : LaneRes := let r := f.roundTo none mode draw sum.1; ⟨r.1, fl ||| r.2⟩
    -- -0 counts below +0
    let keep := z.lt sum.1 || (z.eq sum.1 && (z.isNeg || !sum.1.isNeg))
    if sum.1.isNan then (if z.isNan then ⟨f.canon, fl⟩ else ⟨c, fl⟩)
    else if z.isNan then round
    else if keep then ⟨c, fl⟩ else round
  else
    let r := min (laneInt t c) (laneInt t a + laneInt t b)
    let low : Int := -((2 ^ (laneBits t - 1) : Nat) : Int)
    ⟨intLane t (max r low), 0⟩

def laneDiv (t : VTy) (mode draw a b : Nat) : LaneRes := let r := (fpOf t).divBits mode draw a b; ⟨r.1, r.2⟩
def laneSqrt (t : VTy) (mode draw a : Nat) : LaneRes := let r := (fpOf t).sqrtBits mode draw a; ⟨r.1, r.2⟩

/-- Shifts by k mod the lane width (R276). -/
def laneShl (t : VTy) (a k : Nat) : LaneRes := ⟨a * 2 ^ (k % laneBits t) % 2 ^ laneBits t, 0⟩
def laneShr (t : VTy) (a k : Nat) : LaneRes := ⟨a / 2 ^ (k % laneBits t), 0⟩
def laneSar (t : VTy) (a k : Nat) : LaneRes := ⟨intLane t (laneInt t a / (2 ^ (k % laneBits t) : Nat)), 0⟩

/-- A signalling operand's flag for a compare (R277). -/
def cmpFlags (t : VTy) (a b : Nat) : BitVec 5 :=
  if t.isFloat && (((fpOf t).decode a).isSnan || ((fpOf t).decode b).isSnan) then flagNV else 0
def laneEq (t : VTy) (a b : Nat) : Bool := if t.isFloat then FVal.eq ((fpOf t).decode a) ((fpOf t).decode b) else a == b
def laneLt (t : VTy) (a b : Nat) : Bool :=
  if t.isFloat then FVal.lt ((fpOf t).decode a) ((fpOf t).decode b) else decide (laneInt t a < laneInt t b)

/-! ### Shapes -/

/-- Two sources, lane by lane. -/
def vec3 (c : Chain) (t : VTy) (x y z : RegNum) (f : (mode draw a b : Nat) → LaneRes) (lat : Nat := 1) : Op Unit := do
  Op.need [.v y, .v z] [.v x]
  let a ← Op.readV y
  let b ← Op.readV z
  let old ← Op.oldV x
  let s ← get
  let n := laneBits t
  let mode := s.roundCode c
  Op.finishV c x t.isFloat (mapLanes t (vmask s c) old fun l => f mode (if mode = 6 then s.draw l else 0) (getLane a n l) (getLane b n l)) lat

/-- Two sources and the destination read last (R269). -/
def vec4 (c : Chain) (t : VTy) (x y z : RegNum) (f : (mode draw a b d : Nat) → LaneRes) : Op Unit := do
  Op.need [.v y, .v z, .v x] [.v x]
  let a ← Op.readV y
  let b ← Op.readV z
  let d ← Op.readV x
  let s ← get
  let n := laneBits t
  let mode := s.roundCode c
  Op.finishV c x t.isFloat
    (mapLanes t (vmask s c) d fun l => f mode (if mode = 6 then s.draw l else 0) (getLane a n l) (getLane b n l) (getLane d n l))

/-- One source, lane by lane. -/
def vec2 (c : Chain) (t : VTy) (x y : RegNum) (f : (mode draw a : Nat) → LaneRes) (lat : Nat := 1) : Op Unit := do
  Op.need [.v y] [.v x]
  let a ← Op.readV y
  let old ← Op.oldV x
  let s ← get
  let mode := s.roundCode c
  Op.finishV c x t.isFloat (mapLanes t (vmask s c) old fun l => f mode (if mode = 6 then s.draw l else 0) (getLane a (laneBits t) l)) lat

/-- A bitwise operation on active lanes. -/
def vecBits (c : Chain) (t : VTy) (x y z : RegNum) (f : Nat → Nat → Nat) : Op Unit := vec3 c t x y z fun _ _ a b => ⟨f a b, 0⟩

/-- A compare: all bits of each active lane of a predicate (R277). -/
def vecCmp (c : Chain) (t : VTy) (q : BitVec 3) (y z : RegNum) (p : Nat → Nat → Bool) : Op Unit := do
  Op.need [.v y, .v z] []
  let a ← Op.readV y
  let b ← Op.readV z
  let old ← Op.readQ q
  let s ← get
  let m := vmask s c
  let n := laneBits t
  let w := laneBytes t
  let r := (List.range t.lanes).foldl (fun (r : BitVec 16 × BitVec 5) l =>
    if laneActive m w l then
      let u := getLane a n l
      let v := getLane b n l
      let field : BitVec 16 := BitVec.ofNat 16 ((2 ^ w - 1) * 2 ^ (w * l))
      (if p u v then r.1 ||| field else r.1 &&& ~~~field, r.2 ||| cmpFlags t u v)
    else r) (old, 0)
  Op.writeQ q r.1
  Op.flags r.2
  Op.coded c t.isFloat
  Op.retire c

/-- Lanes chosen by lane number, written where active. -/
def vecMove (c : Chain) (t : VTy) (x y z : RegNum) (f : VReg → VReg → Nat → Nat) : Op Unit := do
  Op.need [.v y, .v z] [.v x]
  let a ← Op.readV y
  let b ← Op.readV z
  let old ← Op.oldV x
  let s ← get
  Op.finishV c x t.isFloat (mapLanes t (vmask s c) old fun l => ⟨f a b l, 0⟩)

/-- Common rules of major 0xC: compute threads only, predicated by lane (R265, R267). -/
def vecRules : Op.Rules := { compute := true, guarded := false }

/-! ### Reduction (R282) -/

/-- Node(j, i): present lanes added in the fixed tree. A node with one present side passes it on unchanged, a NaN with its payload too and
without NV: R282 states it, where R67 and R68 would have a canonical NaN (DEDUCED, log 70). -/
def redNode (t : VTy) (mode : Nat) (draw : Nat → Nat) (lane : Nat → Option Nat) : Nat → Nat → Option LaneRes
  | 0, i => (lane i).map fun v => ⟨v, 0⟩
  | j + 1, i =>
    match redNode t mode draw lane j (2 * i), redNode t mode draw lane j (2 * i + 1) with
    | none, r => r
    | l, none => l
    | some l, some r =>
      let s := laneAdd t mode (if mode = 6 then draw (2 ^ (j + 1) * i + 2 ^ j) else 0) l.bits r.bits
      some ⟨s.bits, s.flags ||| l.flags ||| r.flags⟩

/-! ### Conversions (R77, R283, R284) -/

/-- One element of VCVT. -/
def cvtLane (src dst : VTy) (sat : Bool) (mode draw v : Nat) : LaneRes :=
  if src.isFloat then
    let x := (fpOf src).decode v
    let nv : BitVec 5 := if x.isSnan then flagNV else 0
    if dst.isFloat then
      if src == dst && !x.isNan then ⟨v, 0⟩
      else let r := (fpOf dst).roundTo (some sat) mode draw x; ⟨r.1, nv ||| r.2⟩
    else let r := toIntBits (laneBits dst) sat mode draw x; ⟨r.1, r.2⟩
  else
    let i := laneInt src v
    if dst.isFloat then let r := (fpOf dst).roundTo (some sat) mode draw (.ofInt i); ⟨r.1, r.2⟩
    else
      let hi : Int := (2 ^ (laneBits dst - 1) - 1 : Nat)
      let lo : Int := -((2 ^ (laneBits dst - 1) : Nat) : Int)
      ⟨intLane dst (if sat then max lo (min hi i) else i), 0⟩

/-- A matrix element format's encoding, and whether the conversion narrows. -/
def qfmtOf : QFmt → Fp × Bool
  | .e4m3 => (.e4m3, true) | .e5m2 => (.e5m2, true) | .e2m1 => (.e2m1, true)
  | .we4m3 => (.e4m3, false) | .we5m2 => (.e5m2, false) | .we2m1 => (.e2m1, false)

/-- One element between a wide type and a matrix format. -/
def cvtqLane (f g : Fp) (sat : Bool) (mode draw v : Nat) : LaneRes :=
  let x := f.decode v
  let nv : BitVec 5 := if x.isSnan then flagNV else 0
  let r := g.roundTo (some sat) mode draw x
  ⟨r.1, nv ||| r.2⟩

/-! ### Meanings -/

/-- VADD (R273). -/
def execVadd (c : Chain) (t : VTy) (x y z : RegNum) (s : State) : Host.Outcome State Fault Refusal :=
  issue vecRules c s (vec3 c t x y z (laneAdd t))
/-- VSUB (R273). -/
def execVsub (c : Chain) (t : VTy) (x y z : RegNum) (s : State) : Host.Outcome State Fault Refusal :=
  issue vecRules c s (vec3 c t x y z (laneSub t))
/-- VMUL (R273). -/
def execVmul (c : Chain) (t : VTy) (x y z : RegNum) (s : State) : Host.Outcome State Fault Refusal :=
  issue vecRules c s (vec3 c t x y z (laneMul t))
/-- VFMA (R273). -/
def execVfma (c : Chain) (t : VTy) (x y z : RegNum) (s : State) : Host.Outcome State Fault Refusal :=
  issue vecRules c s (vec4 c t x y z (laneFma t))
/-- VMIN (R273). -/
def execVmin (c : Chain) (t : VTy) (x y z : RegNum) (s : State) : Host.Outcome State Fault Refusal :=
  issue vecRules c s (vec3 c t x y z fun _ _ => laneMin t)
/-- VMAX (R273). -/
def execVmax (c : Chain) (t : VTy) (x y z : RegNum) (s : State) : Host.Outcome State Fault Refusal :=
  issue vecRules c s (vec3 c t x y z fun _ _ => laneMax t)
/-- VADDMIN (R274). -/
def execVaddmin (c : Chain) (t : VTy) (x y z : RegNum) (s : State) : Host.Outcome State Fault Refusal :=
  issue vecRules c s (vec4 c t x y z (laneAddMin t))
/-- VDIV (R275). -/
def execVdiv (c : Chain) (t : VTy) (x y z : RegNum) (s : State) : Host.Outcome State Fault Refusal :=
  issue vecRules c s (vec3 c t x y z (laneDiv t) 8)
/-- VSQRT (R275). -/
def execVsqrt (c : Chain) (t : VTy) (x y : RegNum) (s : State) : Host.Outcome State Fault Refusal :=
  issue vecRules c s (vec2 c t x y (laneSqrt t) 8)
/-- VAND (R276). -/
def execVand (c : Chain) (t : VTy) (x y z : RegNum) (s : State) : Host.Outcome State Fault Refusal :=
  issue vecRules c s (vecBits c t x y z (· &&& ·))
/-- VOR (R276). -/
def execVor (c : Chain) (t : VTy) (x y z : RegNum) (s : State) : Host.Outcome State Fault Refusal :=
  issue vecRules c s (vecBits c t x y z (· ||| ·))
/-- VXOR (R276). -/
def execVxor (c : Chain) (t : VTy) (x y z : RegNum) (s : State) : Host.Outcome State Fault Refusal :=
  issue vecRules c s (vecBits c t x y z (· ^^^ ·))
/-- VSHL (R276). -/
def execVshl (c : Chain) (t : VTy) (x y z : RegNum) (s : State) : Host.Outcome State Fault Refusal :=
  issue vecRules c s (vec3 c t x y z fun _ _ => laneShl t)
/-- VSHR (R276). -/
def execVshr (c : Chain) (t : VTy) (x y z : RegNum) (s : State) : Host.Outcome State Fault Refusal :=
  issue vecRules c s (vec3 c t x y z fun _ _ => laneShr t)
/-- VSAR (R276). -/
def execVsar (c : Chain) (t : VTy) (x y z : RegNum) (s : State) : Host.Outcome State Fault Refusal :=
  issue vecRules c s (vec3 c t x y z fun _ _ => laneSar t)
/-- VCEQ (R277). -/
def execVceq (c : Chain) (t : VTy) (q : BitVec 3) (y z : RegNum) (s : State) : Host.Outcome State Fault Refusal :=
  issue vecRules c s (vecCmp c t q y z (laneEq t))
/-- VCLT (R277). -/
def execVclt (c : Chain) (t : VTy) (q : BitVec 3) (y z : RegNum) (s : State) : Host.Outcome State Fault Refusal :=
  issue vecRules c s (vecCmp c t q y z (laneLt t))
/-- VCLE (R277). -/
def execVcle (c : Chain) (t : VTy) (q : BitVec 3) (y z : RegNum) (s : State) : Host.Outcome State Fault Refusal :=
  issue vecRules c s (vecCmp c t q y z fun a b => laneLt t a b || laneEq t a b)

/-- VSEL writes every lane: Y's where the mask is set, Z's elsewhere (R278). -/
def execVsel (c : Chain) (t : VTy) (x y z : RegNum) (s : State) : Host.Outcome State Fault Refusal :=
  issue vecRules c s do
    Op.need [.v y, .v z] [.v x]
    let a ← Op.readV y
    let b ← Op.readV z
    let s ← get
    Op.finishV c x t.isFloat (mapLanes t (vmask s c) b fun l => ⟨getLane a (laneBits t) l, 0⟩)

/-- VSLU (R279). -/
def execVslu (c : Chain) (t : VTy) (x y z : RegNum) (s : State) : Host.Outcome State Fault Refusal :=
  issue vecRules c s (vecMove c t x y z fun a b l =>
    if l = 0 then getLane b (laneBits t) (t.lanes - 1) else getLane a (laneBits t) (l - 1))
/-- VSLD (R279). -/
def execVsld (c : Chain) (t : VTy) (x y z : RegNum) (s : State) : Host.Outcome State Fault Refusal :=
  issue vecRules c s (vecMove c t x y z fun a b l =>
    if l + 1 = t.lanes then getLane b (laneBits t) 0 else getLane a (laneBits t) (l + 1))
/-- VPERM (R280). -/
def execVperm (c : Chain) (t : VTy) (x y z : RegNum) (s : State) : Host.Outcome State Fault Refusal :=
  issue vecRules c s (vecMove c t x y z fun a b l =>
    let i := getLane b (laneBits t) l
    if i < t.lanes then getLane a (laneBits t) i else 0)

/-- VBCST (R281). -/
def execVbcst (c : Chain) (t : VTy) (x y : RegNum) (s : State) : Host.Outcome State Fault Refusal :=
  issue vecRules c s do
    Op.need [.g y] [.v x]
    let a ← Op.readG y
    let old ← Op.oldV x
    let s ← get
    Op.finishV c x t.isFloat (mapLanes t (vmask s c) old fun _ => ⟨a.toNat % 2 ^ laneBits t, 0⟩)

/-- VEXT (R281): nothing is written where the lane is inactive. -/
def execVext (c : Chain) (t : VTy) (x y lane : RegNum) (s : State) : Host.Outcome State Fault Refusal :=
  issue vecRules c s do
    Op.need [.v y] [.g x]
    let a ← Op.readV y
    let s ← get
    let v := getLane a (laneBits t) lane.toNat
    if laneActive (vmask s c) (laneBytes t) lane.toNat then
      Op.writeG x (if t.isFloat then BitVec.ofNat 64 v else sext (laneBits t) (BitVec.ofNat 64 v))
    Op.coded c t.isFloat
    Op.retire c

/-- VINS (R281): Y, then the destination's own lanes. -/
def execVins (c : Chain) (t : VTy) (x y lane : RegNum) (s : State) : Host.Outcome State Fault Refusal :=
  issue vecRules c s do
    Op.need [.g y, .v x] [.v x]
    let a ← Op.readG y
    let old ← Op.readV x
    let s ← get
    let r := if laneActive (vmask s c) (laneBytes t) lane.toNat then setLane old (laneBits t) lane.toNat (a.toNat % 2 ^ laneBits t) else old
    Op.finishV c x t.isFloat (r, 0)

/-- VREDADD (R282): the sum in lane 0, zero elsewhere, whatever the mask. -/
def execVredadd (c : Chain) (t : VTy) (x y : RegNum) (s : State) : Host.Outcome State Fault Refusal :=
  issue vecRules c s do
    Op.need [.v y] [.v x]
    let a ← Op.readV y
    let s ← get
    let m := vmask s c
    let mode := s.roundCode c
    let lane (i : Nat) : Option Nat := if laneActive m (laneBytes t) i then some (getLane a (laneBits t) i) else none
    let r := (redNode t mode s.draw lane (Nat.log2 t.lanes) 0).getD ⟨0, 0⟩
    Op.finishV c x t.isFloat (BitVec.ofNat 128 r.bits, r.flags) 4

/-- VCVT (R283): elements of the wider type's count; the bytes above them are zero. -/
def execVcvt (c : Chain) (t : VTy) (x y : RegNum) (src : VTy) (s : State) : Host.Outcome State Fault Refusal :=
  issue vecRules c s do
    Op.need [.v y] [.v x]
    let a ← Op.readV y
    let old ← Op.oldV x
    let s ← get
    let m := vmask s c
    let mode := s.roundCode c
    let n := min t.lanes src.lanes
    let w := 16 / n
    let base : VReg := BitVec.ofNat 128 (old.toNat % 2 ^ (laneBits t * n))
    let r := (List.range n).foldl (fun (r : VReg × BitVec 5) l =>
      if laneActive m w l then
        let e := cvtLane src t s.me.sat mode (if mode = 6 then s.draw l else 0) (getLane a (laneBits src) l)
        (setLane r.1 (laneBits t) l e.bits, r.2 ||| e.flags)
      else r) (base, 0)
    Op.finishV c x true r

/-- VCVTQ (R284): packed elements from the bottom of the register; bytes no element covers are zero. -/
def execVcvtq (c : Chain) (t : VTy) (x y : RegNum) (f : QFmt) (s : State) : Host.Outcome State Fault Refusal :=
  issue vecRules c s do
    Op.need [.v y] [.v x]
    let a ← Op.readV y
    let old ← Op.oldV x
    let s ← get
    let m := vmask s c
    let mode := s.roundCode c
    let g := (qfmtOf f).1
    let narrow := (qfmtOf f).2
    let eb := g.width
    let from_ := if narrow then laneBits t else eb
    let to_ := if narrow then eb else laneBits t
    let keep := (eb * t.lanes + 7) / 8 * 8
    let base : VReg := if narrow then BitVec.ofNat 128 (old.toNat % 2 ^ keep) else old
    let conv (draw v : Nat) : LaneRes := if narrow then cvtqLane (fpOf t) g s.me.sat mode draw v else cvtqLane g (fpOf t) s.me.sat mode draw v
    let r := (List.range t.lanes).foldl (fun (r : VReg × BitVec 5) l =>
      if laneActive m (laneBytes t) l then
        let e := conv (if mode = 6 then s.draw l else 0) (getLane a from_ l)
        (setLane r.1 to_ l e.bits, r.2 ||| e.flags)
      else r) (base, 0)
    Op.finishV c x true r

/-- VSFU (R285). -/
def execVsfu (c : Chain) (t : VTy) (x y : RegNum) (fn : Sfu) (s : State) : Host.Outcome State Fault Refusal :=
  issue vecRules c s do
    Op.need [.v y] [.v x]
    let a ← Op.readV y
    let old ← Op.oldV x
    let s ← get
    let mode := s.roundCode c
    Op.finishV c x true (mapLanes t (vmask s c) old fun l =>
      let r := sfuLane (fpOf t) fn mode (if mode = 6 then s.draw l else 0) (getLane a (laneBits t) l)
      ⟨r.1, r.2⟩) 4

/-- VPEG (R286): no rounding code, no flag. -/
def execVpeg (c : Chain) (x y z : RegNum) (s : State) : Host.Outcome State Fault Refusal :=
  issue vecRules c s do
    Op.need [.v y, .g z] [.v x]
    let a ← Op.readV y
    let k ← Op.readG z
    let old ← Op.oldV x
    let s ← get
    Op.finishV c x false (mapLanes .i32 (vmask s c) old fun l => ⟨(peg k (BitVec.ofNat 32 (getLane a 32 l))).toNat, 0⟩) 2

end Sys2Proof.Machine
end

