-- ==== Sys2Proof/Machine/Matrix.lean ====
section
/-! DEFINITION. Matrix instructions: the tile registers, the accumulators, MMA and the transfers (R287-R310). -/

namespace Sys2Proof.Machine

/-! ### Matrix state (R287-R289), at the offsets of the tile image -/

def rowsKey (a m : Nat) : Nat := tileKey a (0x6400 + 4096 * m)
def scaleKey (a m : Nat) : Nat := tileKey a (0xA400 + 256 * m)
def accKey (a acc : Nat) : Nat := tileKey a (0xA800 + 256 * acc)

def cfgFmt (v : Word) : Nat := (v.extractLsb' 0 3).toNat
def cfgRows (v : Word) : Nat := (v.extractLsb' 4 4).toNat
def cfgLen16 (v : Word) : Nat := (v.extractLsb' 8 6).toNat
def cfgSc (v : Word) : Bool := v.getLsbD 16
/-- A configuration with its reserved bits cleared (R293). -/
def cfgClear (v : Word) : Word := v &&& 0x13FF7#64
/-- Well-formed (R288). -/
def cfgOk (v : Word) : Bool :=
  cfgFmt v ≤ 5 && 1 ≤ cfgRows v && cfgRows v ≤ 8 && 1 ≤ cfgLen16 v && cfgLen16 v ≤ 32 && !(cfgFmt v == 3 && cfgSc v)
/-- Bytes of a row. -/
def cfgL (v : Word) : Nat := 16 * cfgLen16 v
/-- Elements of a row (R289). -/
def cfgK (v : Word) : Nat := match cfgFmt v with | 2 => 2 * cfgL v | 4 | 5 => cfgL v / 2 | _ => cfgL v
/-- Format of the elements. -/
def cfgFp (v : Word) : Fp := match cfgFmt v with | 0 => .e4m3 | 1 => .e5m2 | 2 => .e2m1 | 4 => .bf16 | _ => .fp16

namespace State

def mcfg (s : State) (a m : Nat) : Word := vget (s.tile a).mcfg m 0x2080

/-- Element k of row i of a tile register, as bits. -/
def element (s : State) (a m i k : Nat) : Nat :=
  let row := rowsKey a m + 512 * i
  match cfgFmt (s.mcfg a m) with
  | 2 => s.readN (row + k / 2) 1 / 16 ^ (k % 2) % 16
  | 4 | 5 => s.readN (row + 2 * k) 2
  | _ => s.readN (row + k) 1

/-! ### MMA (R295, R296) -/

/-- The legal operand pairs (R295). -/
def pairOk (a b : Word) : Bool :=
  cfgLen16 a == cfgLen16 b && match cfgFmt a, cfgFmt b with
  | 0, 0 | 0, 1 | 1, 0 | 1, 1 => true
  | 2, 2 | 3, 3 | 4, 4 | 5, 5 => true
  | _, _ => false

/-- The exact sum of the products of one block, with NV (R296). -/
def blockSum (l : List (FVal × FVal)) : FVal × BitVec 5 :=
  let ps := l.map fun p => (FVal.mul p.1 p.2).1
  let nv := l.any fun p => (FVal.mul p.1 p.2).2 == flagNV
  let both := ps.contains (.inf false) && ps.contains (.inf true)
  let sum := match ps with
    | [] => FVal.fin false 0 0
    | p :: t => t.foldl (fun r q => (FVal.add 1 r q).1) p
  (sum, if nv || both then flagNV else 0)

/-- A value times 2^(e - 127) for an E8M0 scale; 0xFF is NaN (R65). -/
def scaled (v : FVal) (e : Nat) : FVal :=
  if e = 255 then .nan false
  else match v with
    | .fin n m x => .fin n m (x + e - 127)
    | w => w

/-- The scale of row i, block b: 1 when SC = 0. -/
def scaleOf (s : State) (a m i b : Nat) : Nat := if cfgSc (s.mcfg a m) then s.readN (scaleKey a m + 32 * i + b) 1 else 127

/-- The blocks of one element from `b` on: c rounded after each. -/
def mmaBlocks (s : State) (a ma mb i j : Nat) : Nat → Nat → Nat × BitVec 5 → Nat × BitVec 5
  | 0, _, c => c
  | n + 1, b, c =>
    let k0 := 32 * b
    let k1 := min (k0 + 32) (cfgK (s.mcfg a ma))
    let fa := cfgFp (s.mcfg a ma)
    let fb := cfgFp (s.mcfg a mb)
    let l := (List.range (k1 - k0)).map fun k => (fa.decode (s.element a ma i (k0 + k)), fb.decode (s.element a mb j (k0 + k)))
    let p := blockSum l
    let q := scaled (scaled p.1 (s.scaleOf a ma i b)) (s.scaleOf a mb j b)
    let r := Fp.fp32.roundTo none 1 0 q
    let t := Fp.fp32.addBits 1 0 r.1 c.1
    mmaBlocks s a ma mb i j n (b + 1) (t.1, c.2 ||| p.2 ||| r.2 ||| t.2)

/-- One element of the result: bits and flags. -/
def mmaElement (s : State) (a acc ma mb i j : Nat) : Nat × BitVec 5 :=
  let old := s.readN (accKey a acc + 32 * i + 4 * j) 4
  let kk := cfgK (s.mcfg a ma)
  if cfgFmt (s.mcfg a ma) == 3 then
    let sum := (List.range kk).foldl
      (fun (r : Int) k => r + signedOf 8 (s.element a ma i k) * signedOf 8 (s.element a mb j k)) (signedOf 32 old)
    ((sum % (2 ^ 32 : Nat)).toNat, 0)
  else s.mmaBlocks a ma mb i j ((kk + 31) / 32) 0 (old, 0)

/-- The MMA of a tile completes: its elements, its flags, and its thread (R295, R297). -/
def mmaFinish (s : State) (a : Nat) (j : MmaJob) : State :=
  let acc := j.acc.toNat
  let ma := j.a.toNat
  let mb := j.b.toNat
  let cells := (List.range (cfgRows (s.mcfg a ma))).flatMap fun i => (List.range (cfgRows (s.mcfg a mb))).map fun k => (i, k)
  let news := cells.map fun c => (accKey a acc + 32 * c.1 + 4 * c.2, s.mmaElement a acc ma mb c.1 c.2)
  let s1 := news.foldl (fun s n => s.pokeN n.1 4 n.2.1) s
  let fl := news.foldl (fun f n => f ||| n.2.2) 0
  ((s1.raise a j.thread fl).modTile a fun t => { t with mma := none }).finishThread a j.thread

/-! ### The parts in use (R306): rows m, scales 4 + m, configurations 8 + m, accumulators 12 + acc -/

structure Parts where
  reads  : List Nat := []
  writes : List Nat := []
deriving DecidableEq, Repr, Inhabited

def mmaParts (acc ma mb : Nat) : Parts :=
  { reads := [8 + ma, ma, 4 + ma, 8 + mb, mb, 4 + mb, 12 + acc], writes := [12 + acc] }

def xferParts (k : XferKind) (r : Nat) : Parts :=
  match k with
  | .mld | .mldl _ => { reads := [8 + r], writes := [r] }
  | .mst | .mpass _ => { reads := [8 + r, r] }
  | .mscl => { reads := [8 + r], writes := [4 + r] }
  | .mwra => { writes := [12 + r] }
  | .mrda => { reads := [12 + r] }

/-- Two instructions touch a part that one of them writes. -/
def Parts.clash (p q : Parts) : Bool :=
  p.writes.any (fun x => q.reads.contains x || q.writes.contains x) || p.reads.any fun x => q.writes.contains x

/-- No instruction in progress on the tile touches these parts. -/
def partsFree (s : State) (a : Nat) (p : Parts) : Bool :=
  let t := s.tile a
  !(match t.mma with | some j => Parts.clash p (mmaParts j.acc.toNat j.a.toNat j.b.toNat) | none => false)
  && !(match t.xfer with | some j => Parts.clash p (xferParts j.kind j.reg.toNat) | none => false)

/-! ### Transfers (R298-R305) -/

/-- Bytes a transfer moves. -/
def xferBytes (s : State) (a : Nat) (k : XferKind) (r : Nat) : Nat :=
  let v := s.mcfg a r
  match k with
  | .mld | .mst | .mldl _ | .mpass _ => cfgRows v * cfgL v
  | .mscl => 32 * cfgRows v
  | .mrda | .mwra => 256

/-- Key in the tile of byte `n` of a transfer. -/
def xferKey (s : State) (a : Nat) (k : XferKind) (r n : Nat) : Nat :=
  let l := cfgL (s.mcfg a r)
  match k with
  | .mld | .mst | .mldl _ | .mpass _ => rowsKey a r + 512 * (n / l) + n % l
  | .mscl => scaleKey a r + n
  | .mrda | .mwra => accKey a r + n

/-- The address faults of R298. -/
def spanFault (s : State) (a th : Nat) (addr : Word) (bytes : Nat) : Option (BitVec 8 × Word) :=
  let ok := match tagOf addr with
    | 0 => fieldOf addr 16 44 == 0 && decide (fieldOf addr 0 16 + bytes ≤ 0x6000)
    | 2 => s.addressOk a th addr 8 { read := true } && decide (fieldOf addr 0 20 + bytes ≤ 2 ^ 20)
    | _ => false
  if !ok then some (0x03, addr) else if addr.toNat % 16 != 0 then some (0x04, addr) else none

/-- The transfer's job ends, and its thread goes on. -/
def xferEnd (s : State) (a : Nat) (j : XferJob) : State :=
  let s := s.modTile a fun t => { t with xfer := none }
  let s := match j.kind with
    | .mldl _ | .mpass _ => s.modThread a j.thread fun t => { t with mprogAddr := 0, mprogBytes := 0 }
    | .mld | .mst | .mscl | .mrda | .mwra => s
  s.finishThread a j.thread

/-- Count a doubleword as moved. -/
def xferMoved (s : State) (a : Nat) (j : XferJob) : State := s.modTile a fun t => { t with xfer := some { j with done := j.done + 8 } }

/-- Take a trap of a transfer at its chain; what it moved before stays (R300). -/
def xferTrap (s : State) (a : Nat) (j : XferJob) (cause : BitVec 8) (v : Word) : State :=
  (s.modTile a fun t => { t with xfer := none }).takeTrap a j.thread cause false (s.thread a j.thread).pc v

/-- Move the next doubleword of a memory transfer: in at its register, out at its home. -/
def xferMemory (s : State) (a : Nat) (j : XferJob) (out : Bool) : State :=
  let addr := j.addr + BitVec.ofNat 64 j.done
  let key := s.xferKey a j.kind j.reg.toNat j.done
  match s.resolve a j.thread addr (if out then Use.store else Use.load) with
  | .ok (.mem home) =>
    if out then
      let v := s.readN key 8
      (((s.usePage a addr).digest a (s.thread a j.thread).cx addr 8 v).storeAs a home 8 v).xferMoved a j
    else if s.poisonedAs a home 8 then (s.usePage a addr).xferTrap a j 0x0A addr
    else ((s.usePage a addr).pokeN key 8 (s.viewN a home 8)).xferMoved a j
  | .error (.trap cause _) => s.xferTrap a j cause addr
  | _ => s

/-- Which way a link word goes: the side it is popped from, and whether it goes on. -/
def linkSide : Link → Dir × Bool
  | .ln => (.up, false) | .lnf => (.up, true) | .lp => (.down, false) | .lpf => (.down, true)

def otherDir : Dir → Dir
  | .up => .down
  | .down => .up

/-- Move the next doubleword of a transfer, if it can move now. -/
def xferStep (s : State) (a : Nat) (j : XferJob) : State :=
  let key := s.xferKey a j.kind j.reg.toNat j.done
  match j.kind with
  | .mld | .mscl | .mwra => s.xferMemory a j false
  | .mst | .mrda => s.xferMemory a j true
  | .mldl l =>
    let side := linkSide l
    let words := match side.1 with | .up => (s.tile a).ln | .down => (s.tile a).lp
    match words with
    | [] => s
    | w :: _ =>
      let sends := side.2 && !w.sent
      if sends && !s.linkRoom a (otherDir side.1) then s
      else
        let s := s.modTile a fun t => match side.1 with | .up => t.popLn | .down => t.popLp
        let s := if sends then s.linkPush a (otherDir side.1) w.word else s
        (s.pokeN key 8 w.word.toNat).xferMoved a j
  | .mpass d => if s.linkRoom a d then (s.linkPush a d (s.read64 key)).xferMoved a j else s

/-- Move doublewords until the transfer ends, traps or has to wait. -/
def xferRun (s : State) (a : Nat) : Nat → State
  | 0 => s
  | n + 1 => match (s.tile a).xfer with
    | none => s
    | some j => if j.total ≤ j.done then s.xferEnd a j else xferRun (s.xferStep a j) a n

/-- Stop a thread's matrix instruction: an MMA is abandoned, a link transfer stops at a word, any other transfer completes
(R308). The thread then stands at its chain, or after it. -/
def stopMatrix (s : State) (a th : Nat) : State :=
  let t := s.tile a
  let s := match t.mma with
    | some j => if j.thread = th then
        (s.modTile a fun t => { t with mma := none }).modThread a th fun t => { t with park := none }
      else s
    | none => s
  match t.xfer with
  | none => s
  | some j =>
    if j.thread ≠ th then s
    else match j.kind with
      | .mldl _ | .mpass _ =>
        (s.modTile a fun t => { t with xfer := none }).modThread a th fun t =>
          { t with park := none, mprogAddr := t.pc, mprogBytes := BitVec.ofNat 32 j.done }
      | .mld | .mst | .mscl | .mrda | .mwra => s.xferRun a ((j.total - j.done) / 8 + 1)

end State

/-! ### Shapes -/

/-- Every matrix instruction is for compute threads, and waits while its thread speculates, MFCFG apart (R291, R309). -/
def matrixRules : Op.Rules := { compute := true, held := true }

/-- An instruction that completes at once waits until no other touches its parts (R306). -/
def partsReady (p : State.Parts) : Op Unit := do
  let s ← get
  Op.await (s.partsFree s.cur.1 p) .matrix

/-- A transfer waits for the transfer path and its parts (R306). -/
def pathReady (k : XferKind) (r : BitVec 2) : Op Unit := do
  let s ← get
  Op.await (s.myTile.xfer.isNone && s.partsFree s.cur.1 (State.xferParts k r.toNat)) .matrix

/-- Begin a transfer; its thread is kept until it completes (R292). -/
def beginXfer (c : Chain) (k : XferKind) (r : BitVec 2) (addr : Word) (start : Nat) : Op Unit :=
  parkFor c .matrixOwn fun s => s.modMyTile fun t =>
    { t with xfer := some { thread := s.cur.2, kind := k, reg := r, addr := addr, total := s.xferBytes s.cur.1 k r.toNat, done := start } }

/-- MLD, MST, MSCL, MRDA and MWRA (R298). -/
def memoryXfer (c : Chain) (k : XferKind) (r : BitVec 2) (y : RegNum) : Op Unit := do
  Op.need [.g y] []
  pathReady k r
  let addr ← Op.readG y
  let s ← get
  match s.spanFault s.cur.1 s.cur.2 addr (s.xferBytes s.cur.1 k r.toNat) with
  | some f => Op.trap f.1 f.2
  | none => beginXfer c k r addr 0

/-- Where a link transfer starts: from its progress record if it was stopped at this chain (R305). -/
def resumeAt (s : State) : Nat := if s.me.mprogAddr == s.me.pc && s.me.mprogAddr != 0 then s.me.mprogBytes.toNat else 0

/-! ### Meanings -/

/-- MTCFG (R293). -/
def execMtcfg (c : Chain) (m : BitVec 2) (y : RegNum) (s : State) : Host.Outcome State Fault Refusal :=
  issue matrixRules c s do
    Op.need [.g y] []
    partsReady { writes := [8 + m.toNat] }
    let v ← Op.readG y
    Op.require (cfgOk (cfgClear v)) 0x01 (c.word.setWidth 64)
    modify fun s => s.modMyTile fun t => { t with mcfg := vset t.mcfg m.toNat (cfgClear v) }
    Op.retire c

/-- MFCFG (R294): executes while speculating. -/
def execMfcfg (c : Chain) (x : RegNum) (m : BitVec 2) (s : State) : Host.Outcome State Fault Refusal :=
  issue { compute := true } c s do
    Op.need [] [.g x]
    partsReady { reads := [8 + m.toNat] }
    let s ← get
    Op.writeG x (s.mcfg s.cur.1 m.toNat)
    Op.retire c

/-- MLD (R298). -/
def execMld (c : Chain) (m : BitVec 2) (y : RegNum) (s : State) : Host.Outcome State Fault Refusal :=
  issue { matrixRules with drained := true } c s (memoryXfer c .mld m y)
/-- MST (R298). -/
def execMst (c : Chain) (m : BitVec 2) (y : RegNum) (s : State) : Host.Outcome State Fault Refusal :=
  issue { matrixRules with drained := true } c s (memoryXfer c .mst m y)
/-- MSCL (R298). -/
def execMscl (c : Chain) (m : BitVec 2) (y : RegNum) (s : State) : Host.Outcome State Fault Refusal :=
  issue { matrixRules with drained := true } c s (memoryXfer c .mscl m y)
/-- MRDA (R298). -/
def execMrda (c : Chain) (acc : BitVec 2) (y : RegNum) (s : State) : Host.Outcome State Fault Refusal :=
  issue { matrixRules with drained := true } c s (memoryXfer c .mrda acc y)
/-- MWRA (R298). -/
def execMwra (c : Chain) (acc : BitVec 2) (y : RegNum) (s : State) : Host.Outcome State Fault Refusal :=
  issue { matrixRules with drained := true } c s (memoryXfer c .mwra acc y)

/-- MLDL (R302): a pop at the end of the chain faults at issue. -/
def execMldl (c : Chain) (m : BitVec 2) (link : Link) (s : State) : Host.Outcome State Fault Refusal :=
  issue matrixRules c s do
    pathReady (.mldl link) m
    let side := State.linkSide link
    Op.require (s.linkPeer s.cur.1 side.1).isSome 0x03 (match side.1 with | .up => 40 | .down => 41)
    beginXfer c (.mldl link) m 0 (resumeAt s)

/-- MPASS (R303). -/
def execMpass (c : Chain) (m : BitVec 2) (dir : Dir) (s : State) : Host.Outcome State Fault Refusal :=
  issue matrixRules c s do
    pathReady (.mpass dir) m
    Op.require (s.linkPeer s.cur.1 dir).isSome 0x03 (match dir with | .up => 40 | .down => 41)
    beginXfer c (.mpass dir) m 0 (resumeAt s)

/-- MZERO (R301). -/
def execMzero (c : Chain) (acc : BitVec 2) (s : State) : Host.Outcome State Fault Refusal :=
  issue matrixRules c s do
    partsReady { writes := [12 + acc.toNat] }
    modify fun s => { s with mem := Mem.clear s.mem (accKey s.cur.1 acc.toNat) 256 }
    Op.retire c

/-- MMA (R295): checked at issue, written at completion (R297). -/
def execMma (c : Chain) (acc m n : BitVec 2) (s : State) : Host.Outcome State Fault Refusal :=
  issue matrixRules c s do
    Op.await (s.myTile.mma.isNone && s.partsFree s.cur.1 (State.mmaParts acc.toNat m.toNat n.toNat)) .matrix
    Op.require (State.pairOk (s.mcfg s.cur.1 m.toNat) (s.mcfg s.cur.1 n.toNat)) 0x01 (c.word.setWidth 64)
    parkFor c .matrixOwn fun s => s.modMyTile fun t => { t with mma := some { thread := s.cur.2, acc := acc, a := m, b := n } }

/-! ### Events -/

/-- MMA_COMPLETE (R297). -/
def execMmaComplete (agent : Nat) (s : State) : Host.Outcome State Fault Refusal :=
  match (s.tile agent).mma with
  | some j => .next (s.mmaFinish agent j)
  | none => .next s

/-- MATRIX_TRANSFER_COMPLETE (R299): the last doubleword has moved. -/
def execMatrixTransferComplete (agent : Nat) (s : State) : Host.Outcome State Fault Refusal :=
  match (s.tile agent).xfer with
  | some j => if j.total ≤ j.done then .next (s.xferEnd agent j) else .next s
  | none => .next s

end Sys2Proof.Machine
end

