-- ==== Sys2Proof/Machine/Engine.lean ====
section
/-! DEFINITION. Stream handles, the copy engine and the event queue's instructions (R311-R331). -/

namespace Sys2Proof.Machine

namespace State

/-- Element size of a handle in bytes. -/
def handleSize (s : State) (a h : Nat) : Nat := (vget (s.tile a).streams h {}).esz

/-! ### Budgets (R327, R428) -/

/-- Available bandwidth of a stack in 1/256. -/
def stackFraction (s : State) (stack : Nat) : Nat :=
  match (Tab.get? s.stackStep stack).getD 0 with
  | 0 => 256
  | 1 => 192
  | _ => 128

/-- The stacks whose channels a station owns (R10). -/
def stacksOf (station : Nat) : List Nat := (List.range 24).filter fun k => 12 * station < 32 * k + 32 && 32 * k < 12 * station + 12

/-- A VD's copy budget at a station in the present window; the least fraction of the station's stacks scales it. -/
def budgetAt (s : State) (station vd : Nat) : Nat :=
  s.vdBudget vd * ((stacksOf station).map s.stackFraction).foldl min 256 / 256

def budgetSpent (s : State) (station vd : Nat) : Nat := (Tab.get? s.budgetUsed (station * 256 + vd)).getD 0

/-- A VD has no budget left at a station in this window. -/
def budgetOut (s : State) (station vd : Nat) : Bool := decide (s.budgetAt station vd ≤ s.budgetSpent station vd)

/-- The grid priority of a tile's commands; a service core has no grid, and comes last (DESIGN CHOICE, log 83). -/
def copyPri (s : State) (a : Nat) : Nat := ((s.grid? (s.tile a).handle).map fun g => g.desc.pri + 1).getD 0

/-- Every command of the module in a slot, with its agent. -/
def allCopies (s : State) : List (Nat × CopyCmd) := s.tiles.flatMap fun p => p.2.copies.toList.filterMap fun c => c.map fun c => (p.1, c)

/-- The commands of a tile go on: it runs, or it stops and has not come to rest (R331). -/
def copyGoes (s : State) (a : Nat) : Bool := isCore a || match s.siteState a with
  | .running => true
  | .stopping => !(s.site a).atRest
  | .free | .loaded | .stopped | .quarantined | .defective => false

/-- Channels of a station in use (R326). -/
def channelsUsed (s : State) (station : Nat) : Nat :=
  (s.allCopies.map fun p => (p.2.beats.filter fun b => b.active && b.station == station).length).sum

/-- Some waiting beat at a station takes a free channel before one of command `c`: its VD has budget, and its grid a higher priority or
the command is older (R327). -/
def beatBefore (s : State) (a : Nat) (c : CopyCmd) (station : Nat) : Bool :=
  s.allCopies.any fun p => p.2.phase == .running && (p.2.beats.any fun b => !b.active && b.station == station)
    && s.copyGoes p.1 && s.siteState p.1 != .stopping && !s.budgetOut station (s.vdOf p.1)
    && (decide (s.copyPri a < s.copyPri p.1) || (s.copyPri a == s.copyPri p.1 && decide (p.2.age < c.age)))

/-- An access of `n` bytes of a rim leg: it belongs to a beat in progress, or starts its beat, which charges its bytes; else the beat
waits for its channel or for budget (R326, R327). -/
def moveBeat (s : State) (a slot : Nat) (write : Bool) (addr : Word) (key n : Nat) : Except State State :=
  match s.copy? a slot with
  | none => .ok s
  | some c =>
    let page := addr.toNat / 4096
    let mine (b : CopyBeat) : Bool := b.write == write && b.page == page
    let rest (l : List CopyBeat) : List CopyBeat := l.filter fun b => !b.active || 0 < b.left
    if c.beats.any fun b => mine b && b.active then
      .ok (s.modCopy a slot fun c => { c with beats := rest (mapIf (fun b => mine b && b.active) (fun b => { b with left := b.left - n }) c.beats) })
    else
      let st := stationOf key
      let vd := s.vdOf a
      let all := c.beatBytes (s.handleSize a c.handle) write addr n
      let others := c.beats.filter fun b => !mine b
      if s.siteState a != .stopping && decide (s.channelsUsed st < 8) && !s.budgetOut st vd && !s.beatBefore a c st then
        let s := { s with budgetUsed := Tab.set s.budgetUsed (st * 256 + vd) (s.budgetSpent st vd + all) }
        .ok (s.modCopy a slot fun c => { c with beats := rest (others ++ [⟨write, page, st, all - n, true⟩]) })
      else .error (s.modCopy a slot fun c => { c with beats := others ++ [⟨write, page, st, 0, false⟩] })

/-- A command is suspended for budget: the VD of a waiting beat has none left (R327). -/
def suspended (s : State) (a : Nat) (c : CopyCmd) : Bool :=
  c.phase == .running && c.beats.any fun b => !b.active && s.budgetOut b.station (s.vdOf a)

/-- A running command waits for its stream: for elements, or for room (R323). -/
def onStream (s : State) (a : Nat) (c : CopyCmd) : Bool :=
  let x := vget (s.tile a).streams c.handle {}
  let h := x.esz
  decide (c.units < c.unitCount h) && ((c.fromHandle && x.filled == 0 && !(c.missing h c.units).isEmpty)
    || (c.toHandle && (c.missing h c.units).isEmpty && s.freeSlots a 4 c.handle == 0))

end State

/-! ### The conditions of the start (R322, orders 1 and 2) -/

def engineRead : Use := { read := true, plain := false, engine := true, kind := .engineRead }
def engineWrite : Use := { write := true, plain := false, parks := true, engine := true, kind := .engineWrite }

namespace State

/-- Condition 1 of R137 over a range of `n` bytes. -/
def rangeOk (s : State) (a th : Nat) (addr : Word) (n : Nat) (u : Use) : Bool :=
  let last := addr + BitVec.ofNat 64 (n - 1)
  s.addressOk a th addr 1 u && s.addressOk a th last 1 u && tagOf addr == tagOf last
    && (tagOf addr != 1 || addr.extractLsb' 16 32 == last.extractLsb' 16 32)

/-- Two ranges of `n` bytes of one space overlap by address. -/
def rangesMeet (x y : Word) (n : Nat) : Bool :=
  tagOf x == tagOf y && decide (x.toNat < y.toNat + n) && decide (y.toNat < x.toNat + n)

/-- The first condition of orders 1 and 2 that a command fails: cause and address. The rule names the conditions and not the address that is
reported: of a length that does not fit a stream it is the count of bytes, of ranges that overlap SRC, and of an invalid handle its
register number; and LEN of CPYG and CPYS is held to a handle's element size in bytes, as LEN × s (DESIGN CHOICE, logs 46, 94). -/
def copyCheck (s : State) (a : Nat) (c : CopyCmd) : Option (BitVec 8 × Word) :=
  let n := c.bytes
  let h := vget (s.tile a).streams c.handle {}
  let idxBytes := 4 * c.len.toNat
  if !c.reservedClear then some (0x03, c.desc)
  else if n ≠ 0 && c.readsMemory && !c.gathers && !s.rangeOk a c.thread c.src n engineRead then some (0x03, c.src)
  else if n ≠ 0 && c.writesMemory && !c.scatters && !s.rangeOk a c.thread c.dst n engineWrite then some (0x03, c.dst)
  else if c.indexed && !(tagOf c.idx == 0 && fieldOf c.idx 16 44 == 0 && decide (fieldOf c.idx 0 16 + idxBytes ≤ 0x6000))
  then some (0x03, c.idx)
  else if c.kind == .cpy && c.readsMemory && c.writesMemory && rangesMeet c.src c.dst n then some (0x03, c.src)
  else if c.indexed && c.idx.toNat % 4 ≠ 0 then some (0x04, c.idx)
  else if c.indexed && c.readsMemory && c.src.toNat % c.size ≠ 0 then some (0x04, c.src)
  else if c.indexed && c.writesMemory && c.dst.toNat % c.size ≠ 0 then some (0x04, c.dst)
  else if (c.fromHandle || c.toHandle) && h.valid && n % h.esz ≠ 0 then some (0x04, BitVec.ofNat 64 n)
  else if (c.fromHandle || c.toHandle) && !h.valid then some (0x0C, BitVec.ofNat 64 (48 + c.handle))
  else none

/-- Set or clear the claims of a command on its handle (R323). -/
def setClaims (s : State) (a : Nat) (c : CopyCmd) (b : Bool) : State :=
  if c.fromHandle || c.toHandle then
    s.modTile a fun t => { t with streams := vset t.streams c.handle (let h := vget t.streams c.handle {};
      { h with ccl := if c.fromHandle then b else h.ccl, pcl := if c.toHandle then b else h.pcl }) }
  else s

/-- A side the command would claim is claimed already. -/
def claimBlocked (s : State) (a : Nat) (c : CopyCmd) : Bool :=
  let h := vget (s.tile a).streams c.handle {}
  (c.fromHandle && h.ccl) || (c.toHandle && h.pcl)

/-- A command meets a fault: it moves nothing further and gives up its claims (R322). -/
def failCopy (s : State) (a slot : Nat) (c : CopyCmd) (cause : BitVec 8) (addr : Word) : State :=
  let s := if c.phase == .running then s.setClaims a c false else s
  s.modCopy a slot fun c => { c with phase := .failing, cause := cause, faultAddr := addr, holds := [], beats := [] }

end State

/-! ### One access of a unit of work (R321) -/

namespace CopyUnit

/-- The index of element `e`: a pad word, which may be poisoned. -/
def index (a : Nat) (c : CopyCmd) (e : Nat) : Op Nat := do
  let s ← get
  let addr := c.idx + BitVec.ofNat 64 (4 * e)
  let key := tileKey a (State.fieldOf addr 0 16)
  Op.require (!s.isPoisoned key) 0x0A addr
  pure (s.readN key 4)

/-- The address of byte `b` on the side of base `x`, through the index vector where the side is indexed. -/
def byteAddr (a : Nat) (c : CopyCmd) (x : Word) (through : Bool) (u : Use) (b : Nat) : Op Word := do
  if through then do
    let i ← index a c (b / c.size)
    let el := x + BitVec.ofNat 64 (c.size * i)
    let s ← get
    Op.require (s.addressOk a c.thread el c.size u) 0x03 el
    pure (el + BitVec.ofNat 64 (b % c.size))
  else pure (x + BitVec.ofNat 64 b)

/-- An access of a rim leg runs in its beat. -/
def beat (a slot : Nat) (write : Bool) (addr : Word) (key n : Nat) : Op Unit := do
  match regionOf key with
  | .vault _ | .tile _ | .mcr => pure ()
  | .rim => do
    let s ← get
    match s.moveBeat a slot write addr key n with
    | .ok s => set s
    | .error s => throw (.parkIn .budget s)

/-- Bytes of a command that have been read. -/
def latch (a slot lo n v : Nat) (bad : Nat → Bool) : Op Unit := modify fun s => s.modCopy a slot fun c =>
  { c with latched := c.latched ++ (List.range n).map fun i => ⟨lo + i, BitVec.ofNat 8 (v / 256 ^ i), bad i⟩ }

/-- Read `n` bytes of one doubleword of memory, with their poison. -/
def readMemory (a slot : Nat) (c : CopyCmd) (addr : Word) (n : Nat) : Op (Nat × Bool) := do
  let s ← get
  match ← (fun s => match s.resolve a c.thread addr engineRead with
    | .ok t => .ok (t, s)
    | .error e => .error e : Op Target) with
  | .mem key => do
    beat a slot false addr key n
    modify fun s => s.usePage a addr
    pure (s.viewN a key n, s.poisonedDword a (State.dwordOf key))
  | .void => pure (0, false)
  | .pod => match s.podEnd a addr with
    | .waits => Op.park (.pod addr)
    | .lost => do
      set (s.podLost a c.thread addr)
      pure ((Config.openValue s.free).toNat % 256 ^ n, false)
    | .fails cause => throw (.done ((s.podPast a addr).failCopy a slot c cause addr))
    | .answered bad => do
      modify fun s => s.podPast a addr
      pure (s.podView a addr n, bad)
  | .gone | .absent _ _ _ | .window _ | .mcr _ => Op.trap 0x03 addr

/-- Pop the next element of the source handle (R313, R323). -/
def popElement (a slot : Nat) (c : CopyCmd) (h : Nat) : Op Unit := do
  let s ← get
  let st := vget (s.tile a).streams c.handle {}
  Op.await (decide (1 ≤ st.filled)) (.stream c.handle false 1)
  let key := tileKey a (st.slot st.rd)
  let r := s.streamPop a c.handle
  set (r.2.modCopy a slot fun c => { c with got := c.got + h })
  latch a slot c.got h r.1 fun i => s.isPoisoned (key + i / 8 * 8)

/-- Read what a unit lacks next: an element of the handle, a gathered element, or what one doubleword of the source holds of the unit. -/
def readNext (a slot : Nat) (c : CopyCmd) (h u b : Nat) : Op Unit := do
  if c.fromHandle then popElement a slot c h
  else if c.gathers then do
    let addr ← byteAddr a c c.src true engineRead c.got
    let r ← readMemory a slot c addr c.size
    modify fun s => s.modCopy a slot fun c => { c with got := c.got + c.size }
    latch a slot c.got c.size r.1 fun _ => r.2
  else do
    let lo := max (c.unitRange h u).1 (b - (c.src.toNat + b) % 8)
    let hi := min (c.unitRange h u).2 (b + 8 - (c.src.toNat + b) % 8)
    let r ← readMemory a slot c (c.src + BitVec.ofNat 64 lo) (hi - lo)
    latch a slot lo (hi - lo) r.1 fun _ => r.2

/-- The entry of one doubleword of the destination for bytes from an address on. -/
def entryOf (addr : Word) (l : List CopyByte) : BufEntry :=
  let k := addr.toNat % 8
  { addr := addr &&& ~~~7#64
    data := BitVec.ofNat 64 ((l.foldr (fun x r => x.byte.toNat + 256 * r) 0) * 256 ^ k)
    mask := BitVec.ofNat 8 ((2 ^ l.length - 1) * 2 ^ k) }

/-- The words an entry covers, with the bytes of each. -/
def words (e : BufEntry) : List (Nat × Nat × BitVec 32) :=
  [0, 1].filterMap fun i =>
    let m := e.mask.toNat / 16 ^ i % 16
    if m = 0 then none else some (e.addr.toNat + 4 * i, m, e.data.extractLsb' (32 * i) 32)

/-- The digest terms of an entry: one for each word that the command has not written before (R364-R366). -/
def terms (seen : List Nat) (e : BufEntry) : Vector (BitVec 32) 4 :=
  ((words e).filter fun w => !seen.contains w.1).foldl (fun d w => State.addTerm d w.1 w.2.1 w.2.2) (Vector.replicate 4 0)

/-- Write one entry of `n` bytes at an address; a poisoned source makes its doubleword poisoned (R168). -/
def writeEntry (a slot : Nat) (c : CopyCmd) (poison : Bool) (addr : Word) (n : Nat) (e : BufEntry) : Op Unit := do
  let s ← get
  match s.resolve a c.thread addr engineWrite with
  | .error e => throw e
  | .ok (.mem key) => do
    beat a slot true addr key n
    modify fun s =>
      let dk := State.dwordOf key
      let s := (s.usePage a addr).storeMaskedAs a dk e
      if poison then s.poisonAs a dk else s
  | .ok (.absent g r off) =>
    match s.parkPads a g r (off / 8 * 8) poison (State.drainPieces e) with
    | some s => set s
    | none => Op.park (.ringFull g)
  | .ok .void => pure ()
  | .ok .pod => match s.podEnd a addr with
    | .waits => Op.park (.pod addr)
    | .lost => set (s.podLost a c.thread addr)
    | .fails cause => throw (.done ((s.podPast a addr).failCopy a slot c cause addr))
    | .answered _ => set ((s.podPast a addr).podWrote a addr n (e.data.toNat / 256 ^ (addr.toNat % 8)))
  | .ok .gone | .ok (.window _) | .ok (.mcr _) => Op.trap 0x03 addr

/-- Push an element on the destination handle; a poisoned source doubleword makes its slot's poisoned (R313, R321). -/
def pushElement (a : Nat) (c : CopyCmd) (l : List CopyByte) : Op Unit := do
  let s ← get
  let st := vget (s.tile a).streams c.handle {}
  Op.await (decide (1 ≤ s.freeSlots a 4 c.handle)) (.stream c.handle true 1)
  let key := tileKey a (st.slot st.wr)
  let bad := ((List.range l.length).filter fun i => ((l.map CopyByte.poison).getD i false)).map fun i => State.dwordOf (key + i)
  let s := s.streamPush a c.handle (l.foldr (fun x r => x.byte.toNat + 256 * r) 0)
  set { s with poison := bad.foldl NSet.insert s.poison }

/-- Write a unit whose bytes have all been read, and advance the command. -/
def writeUnit (a slot : Nat) (c : CopyCmd) (h u : Nat) : Op Unit := do
  let (lo, hi) := c.unitRange h u
  let l := (List.range (hi - lo)).map fun i => c.byteAt (lo + i)
  if c.toHandle then pushElement a c l
  else do
    let addr ← byteAddr a c c.dst c.scatters engineWrite lo
    let e := entryOf addr l
    writeEntry a slot c (l.any CopyByte.poison) addr (hi - lo) e
    modify fun s =>
      let s := if c.cx || s.ownPad a addr then s else s.addTerms a (terms c.seen e)
      s.modCopy a slot fun c => { c with seen := if c.scatters then c.seen ++ (words e).map (·.1) else c.seen }
  modify fun s => s.modCopy a slot fun c => { c with latched := c.latched.filter fun x => !(lo ≤ x.at_ && x.at_ < hi), ahead := u :: c.ahead }

/-- The next access of a unit: a read, while it lacks bytes, else its write (R181, R321). -/
def run (a slot : Nat) (c : CopyCmd) (h u : Nat) (last : Bool) : Op Unit := do
  let lack := c.missing h u
  match if last then lack.getLast? else lack.head? with
  | some b => readNext a slot c h u b
  | none => writeUnit a slot c h u

/-- It is the turn of a unit's next access: elements are gathered, popped and scattered in order, and a stream leg moves in order. -/
def turn (c : CopyCmd) (h u : Nat) : Bool :=
  c.phase == .running && decide (u < c.unitCount h) && decide (c.units ≤ u) && !c.ahead.contains u &&
    match (c.missing h u).head? with
    | some b => if c.fromHandle then u == c.units else if c.gathers then decide (c.got ≤ b && b < c.got + c.size) else true
    | none => !c.ordered || u == c.units

end CopyUnit

namespace State

/-- Advance a command's prefix over the units finished beyond it. -/
def advancePrefix (u : Nat) (ahead : List Nat) : Nat → Nat × List Nat
  | 0 => (u, ahead)
  | n + 1 => if ahead.contains u then advancePrefix (u + 1) (ahead.filter (· != u)) n else (u, ahead)

/-- A wait at a station, or its end by a fault, that is not over. -/
def holdStands (s : State) : Park → Bool
  | .walk st vd sp addr _ => s.walks.any (joinsWalk st vd sp addr)
  | .rimFault st vd sp addr _ => s.rimFaultAt st vd sp addr
  | .pageFault _ => true
  | _ => false

/-- What accesses of a command still wait for, and one more. -/
def holdCopy (s : State) (a slot : Nat) (p : List Park) : State :=
  s.modCopy a slot fun c => { c with holds := (c.holds.filter fun k => s.holdStands k && !p.contains k) ++ p }

/-- The beat of an access that waits for something else leaves its place in the queue for a channel. -/
def leaveQueue (s : State) (a slot : Nat) : State := s.modCopy a slot fun c => { c with beats := c.beats.filter fun b => b.active }

/-- Perform the next access of a unit of a running command, if it is its turn (R321). -/
def copyStep (s : State) (a slot u : Nat) (last : Bool) : Except Fault State :=
  match s.copy? a slot with
  | none => .ok s
  | some c =>
    let h := s.handleSize a c.handle
    if !s.copyGoes a || !CopyUnit.turn c h u then .ok s
    else match c.holds.findSome? fun p => match p with | .pageFault addr => some addr | _ => none with
      | some addr => .ok (s.failCopy a slot c 0x05 addr)
      | none => match CopyUnit.run a slot c h u last s with
        | .ok (_, s') =>
          .ok ((s'.modCopy a slot fun c =>
            let p := advancePrefix c.units c.ahead (c.ahead.length + 1)
            { c with units := p.1, ahead := p.2 }).holdCopy a slot [])
        | .error (.trap cause addr) => .ok (s.failCopy a slot c cause addr)
        | .error (.park p) => .ok ((s.leaveQueue a slot).holdCopy a slot [p])
        | .error (.parkIn .budget s') => .ok (s'.holdCopy a slot [.budget])
        | .error (.parkIn p s') => .ok (((s.keepRequests s').leaveQueue a slot).holdCopy a slot [p])
        | .error (.done s') => .ok s'
        | .error (.fault f) => .error f

/-- The completion steps of R324: the counter, the event, the slot, which is kept until the event has entered (R329). -/
def finishCopy (s : State) (a slot : Nat) (c : CopyCmd) : State :=
  let s := if c.phase == .running then s.setClaims a c false else s
  let s := if c.fin.getLsbD 4 then s.addCounter a (c.fin.extractLsb' 0 4).toNat 1 else s
  if c.fin.getLsbD 5 then
    (s.modCopy a slot fun c => { c with phase := .closing, holds := [] }).enterEvent a
      { lo := BitVec.ofNat 64 (1 + c.number.toNat * 2 ^ 32), hi := BitVec.ofNat 64 (c.before + c.bytes) }
  else s.freeCopy a slot

/-- Report a command's fault: an engine-fault event and a count in the grid (R322). -/
def reportCopy (s : State) (a slot : Nat) (c : CopyCmd) : State :=
  let s := s.enterEvent a (faultEvent c.cause 0 0 c.number c.faultAddr)
  let s := if (s.tile a).mark == .original then
      s.countFault (s.tile a).handle { vtn := (s.tile a).vtn, thread := 0xFF, cause := c.cause, module := BitVec.ofNat 16 s.moduleNo,
                                       value := c.faultAddr }
    else s
  s.modCopy a slot fun c => { c with phase := .faulted }

/-- An event is popped; a fault event of a copy command frees its slot (R325), and a held report may enter. -/
def popEvent (s : State) (a : Nat) (e : EventRec) : State :=
  let s := s.modTile a fun t => { t with events := t.events.tail }
  let n : BitVec 32 := e.lo.extractLsb' 32 32
  let s := if e.lo.extractLsb' 0 8 == 2#8 && e.lo.extractLsb' 16 8 == 0#8 then
      match s.slotOf a n with
      | some (i, c) => if c.phase == .faulted then s.freeCopy a i else s
      | none => s
    else s
  s.admitEvents a

/-! ### Stopping a command for a save (R331) -/

/-- No beat of a command is in progress, and none of its elements, but one that waits: it stops at a boundary (R331). -/
def copyStopped (c : CopyCmd) (h : Nat) : Bool :=
  !(c.phase == .running && c.holds.isEmpty && ((c.beats.any fun b => b.active) || c.done h != c.whole h || (c.fromHandle && c.got != c.done h)))

/-- A command as its saved form describes it: advanced past its prefix, in whole elements (R331). What a command with a destination handle
has pushed of an element beyond that stays with it. -/
def rebased (c : CopyCmd) (h : Nat) : CopyCmd :=
  let p := c.done h
  let q := c.whole h
  let units := if c.toHandle then (p - q) / max 1 h else 0
  let faulted := c.phase == .faulted || c.phase == .failing
  { c with
    src := if faulted then c.faultAddr else if c.gathers then c.src else c.src + BitVec.ofNat 64 q
    dst := if c.scatters then c.dst else c.dst + BitVec.ofNat 64 q
    idx := BitVec.ofNat 64 ((fieldOf c.idx 0 16 + if c.indexed then 4 * (q / c.size) else 0) % 65536)
    len := c.len - BitVec.ofNat 32 (if c.indexed then q / c.size else q)
    fin := if c.phase == .closing then c.fin &&& 0xEF else c.fin
    resv := if c.phase == .waiting then c.resv else 0
    desc := if c.phase == .waiting then c.desc else 0
    units := units
    ahead := c.ahead.map fun u => u + units - c.units
    got := c.got - q
    latched := c.latched.map fun x => { x with at_ := x.at_ - q }
    before := c.before + q }

/-- A command that has stopped for a save stands as its saved form. What it has written beyond its prefix is repeated without further terms,
what it has read of memory is read again, and elements that it has popped and not wholly written stand in their slots again. -/
def settleCopy (s : State) (a slot : Nat) : State :=
  match s.copy? a slot with
  | none => s
  | some c =>
    if c.phase != .running then s
    else
      let h := s.handleSize a c.handle
      let q := c.whole h
      let wordsFrom (lo hi : Nat) : List Nat := (digestWords (c.dst.toNat + lo) (hi - lo) 0).map (·.1)
      let again := (c.ahead.flatMap fun u => wordsFrom (c.unitRange h u).1 (c.unitRange h u).2) ++ if c.scatters then [] else wordsFrom q (c.done h)
      let back := if c.fromHandle then (c.got - q) / h else 0
      let c := rebased { c with ahead := [], beats := [], holds := [], latched := [], seen := c.seen ++ again, got := if c.gathers || c.fromHandle then q else 0 } h
      s.modTile a fun t => { t with
        copies := vset t.copies slot (some c)
        streams := vset t.streams c.handle (let x := vget t.streams c.handle {}; { x with rd := x.rd - BitVec.ofNat 32 back }) }

end State

/-! ### Meanings -/

/-- Rules of every instruction of the page (R311). SCFG, SCLR, SQRY and the reads of events issue with relaxed accesses of their thread
outstanding: of the stream commands that R176 lists among the posted operations, SADV alone publishes what its thread has written
(DESIGN CHOICE, log 77). -/
def engineRules : Op.Rules := { held := true }

/-- Whether a configuration is valid (R315). -/
def configValid (v : Word) : Bool :=
  let h : Stream := { cfg := v }
  h.eszCode ≤ 4 && 1 ≤ h.count && h.count ≤ 24576 && h.base % h.esz == 0 && h.stride % h.esz == 0
    && h.base + (h.count - 1) * h.stride + h.esz ≤ 0x6000 && v.getLsbD 19 == false && v.extractLsb' 52 11 == 0#11

/-- SCFG (R315). -/
def execScfg (c : Chain) (h : BitVec 3) (y : RegNum) (s : State) : Host.Outcome State Fault Refusal :=
  issue engineRules c s do
    Op.need [.g y] []
    let st := vget s.myTile.streams h.toNat {}
    Op.await (!st.pcl && !st.ccl) (.claim h.toNat)
    let v ← Op.readG y
    Op.require (configValid v) 0x0C v
    let n : Stream := { cfg := v, rd := 0, wr := 0, valid := true }
    modify fun s => s.modMyTile fun t =>
      { t with streams := vset t.streams h.toNat { n with wr := if v.getLsbD 63 then BitVec.ofNat 32 n.count else 0 } }
    Op.retire c

/-- A push of a thread to a stream: an access of the pad that is on its way (R96, R313). -/
def streamPushOf (th : Nat) (p : Push) : Bool := p.thread == th && match p.to_ with
  | .stream _ => true
  | .link _ => false

/-- SADV (R316): the accesses of the thread that it waits for are the relaxed ones and its pushes on their way. -/
def execSadv (c : Chain) (h : BitVec 3) (y : RegNum) (s : State) : Host.Outcome State Fault Refusal :=
  issue { held := true, drained := true } c s do
    let s ← get
    Op.await (!(s.myTile.pushes.any (streamPushOf s.cur.2))) .drained
    Op.need [.g y] []
    let k := h.toNat
    let v ← Op.readG y
    let s ← get
    let st := vget s.myTile.streams k {}
    let n := (v.extractLsb' 0 32).toNat
    Op.require st.valid 0x0C (BitVec.ofNat 64 (48 + k))
    Op.require (v.extractLsb' 32 31 == 0#31) 0x0C v
    Op.require (decide (n ≤ st.count)) 0x0C v
    if v.getLsbD 63 then do
      Op.await (decide (n ≤ s.freeSlots s.cur.1 s.cur.2 k) && !st.pcl) (.stream k true n)
      modify fun s => s.modMyTile fun t => { t with streams := vset t.streams k { st with wr := st.wr + BitVec.ofNat 32 n } }
    else do
      Op.await (decide (n ≤ st.filled) && !st.ccl) (.stream k false n)
      modify fun s => s.modMyTile fun t => { t with streams := vset t.streams k { st with rd := st.rd + BitVec.ofNat 32 n } }
    Op.retire c

/-- SQRY (R317). -/
def execSqry (c : Chain) (x : RegNum) (h : BitVec 3) (s : State) : Host.Outcome State Fault Refusal :=
  issue engineRules c s do
    Op.need [] [.g x]
    let s ← get
    let st := vget s.myTile.streams h.toNat {}
    Op.writeG x (BitVec.ofNat 64 (st.filled % 2 ^ 16) ||| BitVec.ofNat 64 (st.room % 2 ^ 16) <<< 16
      ||| (if st.valid then 1#64 <<< 32 else 0) ||| (if st.pcl then 1#64 <<< 33 else 0) ||| (if st.ccl then 1#64 <<< 34 else 0))
    Op.retire c

/-- SCLR (R318). -/
def execSclr (c : Chain) (h : BitVec 3) (s : State) : Host.Outcome State Fault Refusal :=
  issue engineRules c s do
    let st := vget s.myTile.streams h.toNat {}
    Op.await (!st.pcl && !st.ccl) (.claim h.toNat)
    modify fun s => s.modMyTile fun t => { t with streams := vset t.streams h.toNat {} }
    Op.retire c

/-- The number after a command number: 0 is skipped (R319). -/
def numberAfter (n : BitVec 32) : BitVec 32 := if n + 1 == 0#32 then 1 else n + 1

/-- Issue a copy command: its descriptor is read now (R319, R320). The poison of a doubleword of it raises nothing: the rule lists 0x03 and
0x04 alone (DESIGN CHOICE, log 95). -/
def copyIssue (kind : CopyKind) (c : Chain) (x y : RegNum) (s : State) : Host.Outcome State Fault Refusal :=
  issue { held := true, drained := true } c s do
    Op.need [.g y] [.g x]
    let d ← Op.readG y
    Op.require (inPad d 32) 0x03 d
    Op.require (aligned d 32) 0x04 d
    let s ← get
    let a := s.cur.1
    let key := tileKey a (State.fieldOf d 0 16)
    let n := s.myTile.nextCmd
    match [0, 1, 2, 3].find? fun i => (s.copy? a i).isNone with
    | none => Op.park .copySlot
    | some slot =>
      let cmd : CopyCmd := {
        kind := kind, number := n, src := s.read64 key, dst := s.read64 (key + 8), idx := s.read64 (key + 16)
        len := BitVec.ofNat 32 (s.readN (key + 24) 4), esz := BitVec.ofNat 8 (s.readN (key + 28) 1)
        stream := BitVec.ofNat 8 (s.readN (key + 29) 1), fin := BitVec.ofNat 8 (s.readN (key + 30) 1)
        resv := BitVec.ofNat 8 (s.readN (key + 31) 1), desc := d, cx := s.me.cx, thread := s.cur.2,
        age := s.nextCopy }
      modify fun s => { s with nextCopy := s.nextCopy + 1 }.modMyTile fun t =>
        { t with copies := vset t.copies slot (some cmd), nextCmd := numberAfter n }
      Op.writeG x (n.setWidth 64)
      Op.retire c

/-- CPY (R320, R321). -/
def execCpy (c : Chain) (x y : RegNum) (s : State) : Host.Outcome State Fault Refusal := copyIssue .cpy c x y s
/-- CPYG (R320, R321). -/
def execCpyg (c : Chain) (x y : RegNum) (s : State) : Host.Outcome State Fault Refusal := copyIssue .cpyg c x y s
/-- CPYS (R320, R321). -/
def execCpys (c : Chain) (x y : RegNum) (s : State) : Host.Outcome State Fault Refusal := copyIssue .cpys c x y s
/-- CPYZ (R320, R321). -/
def execCpyz (c : Chain) (x y : RegNum) (s : State) : Host.Outcome State Fault Refusal := copyIssue .cpyz c x y s

/-- CJOIN (R325): the trap of a faulted command frees its slot. -/
def execCjoin (c : Chain) (x : RegNum) (s : State) : Host.Outcome State Fault Refusal :=
  issue engineRules c s do
    Op.need [.g x] []
    let v ← Op.readG x
    let s ← get
    match s.slotOf s.cur.1 (v.setWidth 32) with
    | none => Op.retire c
    | some (i, cmd) =>
      if cmd.phase == .faulted then throw (.done ((s.freeCopy s.cur.1 i).trapHere 0x0D cmd.faultAddr))
      else Op.park (.cjoin (v &&& 0xFFFFFFFF#64))

/-- Remove the oldest event into a register pair (R330). -/
def takeEvent (c : Chain) (x : RegNum) (e : EventRec) : Op Unit := do
  modify fun s => s.popEvent s.cur.1 e
  Op.writeG x e.lo
  Op.writeG (x + 1) e.hi
  Op.retire c

/-- EVPOP (R330): zeros where the queue is empty. -/
def execEvpop (c : Chain) (x : RegNum) (s : State) : Host.Outcome State Fault Refusal :=
  issue { held := true, control := true } c s do
    Op.need [] [.g x, .g (x + 1)]
    match s.myTile.events with
    | e :: _ => takeEvent c x e
    | [] => do
      Op.writeG x 0
      Op.writeG (x + 1) 0
      Op.retire c

/-- EVWAIT (R330). -/
def execEvwait (c : Chain) (x : RegNum) (s : State) : Host.Outcome State Fault Refusal :=
  issue { held := true, control := true } c s do
    Op.need [] [.g x, .g (x + 1)]
    match s.myTile.events with
    | e :: _ => takeEvent c x e
    | [] => Op.park .event

/-! ### Events -/

/-- COPY_START (R322, R323): a command whose side is free is checked, claims it and runs; one of length 0 completes. -/
def execCopyStart (agent slot : Nat) (s : State) : Host.Outcome State Fault Refusal :=
  match s.copy? agent slot with
  | none => .next s
  | some c =>
    if !s.copyGoes agent || c.phase != .waiting || s.claimBlocked agent c then .next s
    else match s.copyCheck agent c with
      | some f => .next (s.failCopy agent slot c f.1 f.2)
      | none =>
        if c.len == 0#32 then .next (s.finishCopy agent slot c)
        else .next ((s.setClaims agent c true).modCopy agent slot fun c => { c with phase := .running })

/-- COPY_COMPLETE (R324). -/
def execCopyComplete (agent slot : Nat) (s : State) : Host.Outcome State Fault Refusal :=
  match s.copy? agent slot with
  | none => .next s
  | some c =>
    if s.copyGoes agent && c.phase == .running && c.units == c.unitCount (s.handleSize agent c.handle) then .next (s.finishCopy agent slot c)
    else .next s

/-- COPY_FAULT (R322). -/
def execCopyFault (agent slot : Nat) (s : State) : Host.Outcome State Fault Refusal :=
  match s.copy? agent slot with
  | none => .next s
  | some c => if s.copyGoes agent && c.phase == .failing then .next (s.reportCopy agent slot c) else .next s

end Sys2Proof.Machine
end

