-- ==== Sys2Proof/Machine/Image.lean ====
section
/-! DEFINITION. The tile image (R394-R396): what is saved of a tile, byte by byte, and how a tile is made from it again; and the
synchronisation record of a saved thread (R197). -/

namespace Sys2Proof.Machine

/-! ### What a thread waits for (R197) -/

namespace State

/-- Wait kind of a general or vector operand: 3 shared register, 7 pop. -/
def popWait : OpRef → Option (BitVec 8 × BitVec 8)
  | .g n =>
    if 32 ≤ n.toNat && n.toNat < 40 then some (3, n.setWidth 8)
    else if Op.pops n then some (7, n.setWidth 8) else none
  | .v n => if isHandle n then some (7, n.setWidth 8) else none

/-- Wait kind 8 of a destination: a link or stream push. -/
def pushWait : OpRef → Option (BitVec 8 × BitVec 8)
  | .g n => if (40 ≤ n.toNat && n.toNat ≤ 43) || isHandle n then some (8, n.setWidth 8) else none
  | .v n => if isHandle n then some (8, n.setWidth 8) else none

/-- The wait part of the record of a thread parked so. -/
def waitOf (s : State) (a th : Nat) : Park → WaitRec
  | .operands reads dests =>
    match (reads.filter fun o => !s.canRead a th reads o).filterMap popWait ++ (dests.filter fun o => !s.canWrite a th o).filterMap pushWait with
    | w :: _ => { kind := w.1, reg := w.2 }
    | [] => {}
  | .fullEmpty addr => { addr := addr, kind := 1 }
  | .waitf addr => { addr := addr, kind := 2 }
  | .counter k n => { kind := 4, reg := BitVec.ofNat 8 k, thr := n }
  | .grant addr => { addr := addr, kind := 5 }
  | .ticket addr t => { addr := addr, kind := 6, ticket := t }
  | .stream h push _ => { kind := if push then 8 else 7, reg := BitVec.ofNat 8 (48 + h) }
  | .rimFault _ _ _ _ addr | .cruiseHold addr | .absent _ addr => { addr := addr, kind := 9 }
  | .rearmed w => w
  | .pod addr => match (s.thread a th).relaxed with
    | r :: _ => match r.act with
      | .fe .waitf => { addr := addr, kind := 2 }
      | .fe (.load _) | .fe .store => { addr := addr, kind := 1 }
      | .lrw | .atomic _ _ => { addr := addr, kind := 5 }
      | .clrf | .access => {}
    | [] => {}
  | .drained | .relaxedSlot | .speculating | .draining | .barrier _ | .barcfg _ | .orderTable _ _ | .walk _ _ _ _ _ | .ringFull _
  | .zeroing _ | .half _ | .fetch _ | .align _ _ _ | .outbound | .fence _ | .posted | .matrix | .matrixOwn | .copySlot | .cjoin _
  | .event | .grid _ _ | .dispatcher _ _ | .seed _ | .sleep | .claim _ | .budget | .voltage _ | .pageFault _ | .tstop _ _ | .supervisor | .stopped => {}

/-- A thread back on its tile: a wait of kind 1 to 8 is re-armed; any other thread issues its chain again (R198). -/
def rearm (t : Thread) : Thread :=
  if t.live && 1 ≤ t.wait.kind.toNat && t.wait.kind.toNat ≤ 8 then { t with park := some (.rearmed t.wait) } else t

/-- The wait kind of a thread, 0 where it waits for nothing of the table. -/
def waitKind (s : State) (a th : Nat) : BitVec 8 :=
  match (s.thread a th).park with
  | some p => (s.waitOf a th p).kind
  | none => 0

/-! ### Saving (R394, R395) -/

/-- A field of an image: offset, bytes, value. -/
abbrev ImageField := Nat × Nat × Nat

def imageSize : Nat := 49152

/-- Fields of a table of equal entries from an offset on. -/
def tableFields (off step bytes n : Nat) (f : Nat → Nat) : List ImageField := (List.range n).map fun i => (off + step * i, bytes, f i)

/-- Flags byte of a thread area (R395). -/
def flagsByte (t : Thread) : Nat := (if t.cx then 1 else 0) + (if t.cancelPending then 2 else 0) + (if t.dogPending then 4 else 0)

/-- Loop state of a thread, 56 bytes (R124). -/
def loopFields (off : Nat) (t : Thread) : List ImageField :=
  let e (o : Nat) (l : LoopEntry) : List ImageField := [(o, 8, l.start.toNat), (o + 8, 8, l.stop.toNat), (o + 16, 8, l.count.toNat)]
  e off t.loop0 ++ e (off + 24) t.loop1 ++
    [(off + 48, 2, t.ldepth.toNat), (off + 50, 2, t.loop0.depth.toNat), (off + 52, 2, t.loop1.depth.toNat),
     (off + 54, 1, (if t.loop0.valid then 1 else 0) + (if t.loop1.valid then 2 else 0))]

/-- The synchronisation record (R197). -/
def syncFields (off : Nat) (t : Thread) : List ImageField :=
  [(off, 8, t.wait.addr.toNat), (off + 8, 1, t.wait.kind.toNat), (off + 9, 1, t.wait.reg.toNat), (off + 12, 4, t.wait.thr.toNat),
   (off + 16, 8, t.sync.heldAddr.toNat), (off + 24, 1, t.sync.heldKind.toNat), (off + 25, 1, if t.sync.revoked then 1 else 0),
   (off + 32, 8, if t.wait.kind == 6#8 then t.wait.ticket.toNat else t.sync.ticket.toNat)]

/-- Record block of a thread (R395). -/
def blockFields (th : Nat) (t : Thread) : List ImageField :=
  let o := 0xB2E0 + 112 * th
  loopFields o t ++ syncFields (o + 0x38) t
    ++ (if th = 0 then [] else [(o + 0x60, 8, t.mprogAddr.toNat), (o + 0x68, 4, t.mprogBytes.toNat)])

/-- Thread area (R395). -/
def areaFields (th : Nat) (t : Thread) : List ImageField :=
  let gs (o : Nat) := tableFields o 8 8 31 fun i => (vget t.g (i + 1) 0).toNat
  let traps (o : Nat) : List ImageField := [(o, 8, t.tepc.toNat), (o + 8, 8, t.tval.toNat), (o + 16, 8, t.tvec.toNat), (o + 24, 8, t.tscratch.toNat)]
  if th = 0 then
    let o := 0xB4A0
    gs o ++ [(o + 0xF8, 8, t.pc.toNat), (o + 0x100, 8, t.tst.toNat)] ++ traps (o + 0x108)
      ++ [(o + 0x128, 2, t.tcause.toNat), (o + 0x12A, 1, flagsByte t)]
  else
    let o := 0xB5E0 + 848 * (th - 1)
    gs o ++ tableFields (o + 0xF8) 2 2 7 (fun i => (vget t.q (i + 1) 0).toNat)
      ++ [(o + 0x108, 8, t.pc.toNat), (o + 0x110, 8, t.tst.toNat)] ++ traps (o + 0x118)
      ++ [(o + 0x138, 8, t.srkey.toNat), (o + 0x140, 8, t.srcnt.toNat), (o + 0x148, 1, t.fctl.toNat), (o + 0x149, 1, t.fst.toNat),
          (o + 0x14A, 1, t.tcause.toNat % 256), (o + 0x14B, 1, flagsByte t), (o + 0x14C, 4, t.tcause.toNat / 256)]
      ++ tableFields (o + 0x150) 16 16 32 fun i => (vget t.v i 0).toNat

def copyCode : CopyKind → Nat
  | .cpy => 0 | .cpyg => 1 | .cpys => 2 | .cpyz => 3

/-- A saved command (R331). One whose counter is already increased does not increase it again. -/
def copyFields (s : State) (a slot : Nat) : List ImageField :=
  match s.copy? a slot with
  | none => []
  | some c =>
    let o := 0xB160 + 32 * slot
    let c := rebased c (s.handleSize a c.handle)
    let faulted := c.phase == .faulted || c.phase == .failing
    [(o, 8, c.src.toNat), (o + 8, 8, c.dst.toNat), (o + 16, 4, c.len.toNat), (o + 20, 2, c.idx.toNat), (o + 22, 1, c.esz.toNat),
     (o + 23, 1, c.stream.toNat), (o + 24, 1, c.fin.toNat), (o + 25, 1, copyCode c.kind + 4 + (if faulted then 8 else 0)),
     (o + 26, 1, c.cause.toNat), (o + 28, 4, c.number.toNat)]

/-- What the saved commands of a tile have no field for stays beside its image (log 82). -/
def keepRests (s : State) (a : Nat) : State :=
  let t := s.tile a
  let other (r : CopyRest) : Bool := !(r.gid == t.handle && r.vtn == t.vtn && r.mark == t.mark)
  let mine := [0, 1, 2, 3].filterMap fun i => (s.copy? a i).map fun c => CopyRest.mk t.handle t.vtn t.mark i (rebased c (s.handleSize a c.handle))
  { s with copyRest := s.copyRest.filter other ++ mine }

def barrCode : BarrOp → Nat
  | .add => 0 | .min => 1 | .max => 2 | .minu => 3 | .maxu => 4 | .fadd => 5 | .fmax => 6

def barrOf : Nat → BarrOp
  | 1 => .min | 2 => .max | 3 => .minu | 4 => .maxu | 5 => .fadd | 6 => .fmax | _ => .add

/-- Live threads of a tile, as ACTIVE gives them. -/
def activeMask (t : Tile) : Nat := (List.range 4).foldl (fun m i => if (vget t.threads i {}).live then m + 2 ^ i else m) 0

/-- Every field of an image beside the memories: header, registers, areas. -/
def imageFields (s : State) (a : Nat) : List ImageField :=
  let t := s.tile a
  let th (i : Nat) : Thread := vget t.threads i {}
  [(0x6300, 4, 1), (0x6304, 4, t.vtn.toNat), (0x6308, 8, (handleOf t.handle).toNat), (0x6310, 4, t.gsize.toNat), (0x6314, 1, activeMask t),
   (0x6315, 1, t.inbox.length), (0x6316, 1, t.events.length), (0x6318, 4, t.nextCmd.toNat), (0x631C, 1, t.vd)]
  ++ tableFields 0x6320 8 8 4 (fun i => (th i).seedSeq.toNat)
  ++ tableFields 0x6340 4 4 4 (fun i => (vget t.digest i 0).toNat)
  ++ tableFields 0xAC00 8 8 4 (fun i => (vget t.mcfg i 0).toNat)
  ++ tableFields 0xAC20 8 8 8 (fun i => (vget t.s i 0).toNat)
  ++ [(0xAC60, 1, t.sfull.toNat)]
  ++ tableFields 0xACA0 4 4 16 (fun i => (vget t.c i 0).toNat)
  ++ (List.range 8).flatMap (fun i => let z := vget t.trig i {}; let o := 0xACE0 + 32 * i
      [(o, 8, z.cfg.toNat), (o + 8, 8, z.d1.toNat), (o + 16, 8, z.d2.toNat), (o + 24, 8, z.d3.toNat)])
  ++ (List.range 8).flatMap (fun i => let h := vget t.streams i {}; let o := 0xADE0 + 32 * i
      [(o, 8, h.cfg.toNat), (o + 8, 4, h.rd.toNat), (o + 12, 4, h.wr.toNat),
       (o + 16, 8, (if h.valid then 1 else 0) + (if h.pcl then 2 else 0) + (if h.ccl then 4 else 0))])
  ++ tableFields 0xAEE0 8 8 t.inbox.length (fun i => (t.inbox.getD i 0).toNat)
  ++ (List.range 4).flatMap (fun b => let o := 0xB0E0 + 16 * b
      [(o, 2, (vget t.barCfg b 0).toNat), (o + 2, 1, (vget t.phase b 0).toNat), (o + 3, 1, (vget t.arrived b 0).toNat)])
  ++ tableFields 0xB120 8 8 4 (fun i => (vget t.contrib i 0).toNat)
  ++ (List.range 4).flatMap (fun i => let w := vget t.barWait i {}; let o := 0xB140 + 2 * i
      [(o, 1, w.kind.toNat), (o + 1, 1, w.ident.toNat + 4 * (if w.kind == 2#2 then barrCode w.op else 0))])
  ++ [(0xB148, 2, t.specUsed.toNat), (0xB14C, 4, t.rollbacks.toNat)]
  ++ (List.range 4).flatMap (s.copyFields a)
  ++ (List.range t.events.length).flatMap (fun i => let e := t.events.getD i ⟨0, 0⟩
      [(0xB1E0 + 16 * i, 8, e.lo.toNat), (0xB1E8 + 16 * i, 8, e.hi.toNat)])
  ++ (List.range 4).flatMap (fun i => if (th i).live then blockFields i (th i) ++ areaFields i (th i) else [])

/-- Full/empty bits of the pad: bit j of byte i is word 8i + j. -/
def feCells (s : State) (a : Nat) : List ImageField :=
  (s.full.filter fun w => tileKey a 0 ≤ w && w < tileKey a 0x6000).map fun w =>
    let n := (w - tileKey a 0) / 4
    (0x6000 + n / 8, 1, 2 ^ (n % 8))

/-- The image of a tile, as cells from offset 0. -/
def imageCells (s : State) (a : Nat) : List Host.Cell :=
  let base := Mem.slice s.mem (tileKey a 0) imageSize
  let withFe := (s.feCells a).foldl (fun m f => Mem.write m f.1 (Mem.read m f.1 ||| BitVec.ofNat 8 f.2.2)) base
  (s.imageFields a).foldl (fun m f => Mem.writeN m f.1 f.2.1 f.2.2) withFe

/-- Poisoned doublewords of a tile, as image offsets (R396). -/
def imagePoison (s : State) (a : Nat) : List Nat :=
  (s.poison.filter fun d => tileKey a 0 ≤ d && d < tileKey a imageSize).map fun d => d - tileKey a 0

/-- The areas and record blocks of threads that are not live, as ranges of an image: they are not written (R396). -/
def unwritten (active : Nat) : List (Nat × Nat) :=
  [0, 1, 2, 3].flatMap fun th =>
    if active / 2 ^ th % 2 = 1 then []
    else [(0xB2E0 + 112 * th, 112), if th = 0 then (0xB4A0, 320) else (0xB5E0 + 848 * (th - 1), 848)]

/-- Write an image over physical pieces of a range, its poison with it. -/
def putPieces (s : State) (l : List (Nat × Nat)) (cells : List Host.Cell) (bad : List Nat) : State :=
  let gaps := unwritten (Mem.readN cells 0x6314 1)
  let kept (off : Nat) : Bool := gaps.any fun g => decide (g.1 ≤ off) && decide (off < g.1 + g.2)
  (l.foldl (fun (r : State × Nat) k =>
    let mine (off : Nat) : Bool := decide (r.2 ≤ off) && decide (off < r.2 + k.2)
    let hits (key : Nat) : Bool := decide (k.1 ≤ key) && decide (key < k.1 + k.2) && !kept (key - k.1 + r.2)
    let z := r.1
    let z := { z with
      mem := Mem.paste (z.mem.filter fun c => !hits c.1) k.1 ((cells.filter fun (c : Host.Cell) => mine c.1).map fun (c : Host.Cell) => (c.1 - r.2, c.2))
      poison := (bad.filter mine).foldl (fun p d => NSet.insert p (k.1 + (d - r.2))) (z.poison.filter fun d => !hits d) }
    (z.rollWatchers k.1 k.2, r.2 + k.2)) (s, 0)).1

/-- Write an image at a physical address. -/
def putImage (s : State) (pa : Nat) (cells : List Host.Cell) (bad : List Nat) : State := s.putPieces [(rimKey pa, imageSize)] cells bad

/-- The image at a physical address. -/
def getImage (s : State) (pa : Nat) : List Host.Cell × List Nat :=
  (Mem.slice s.mem (rimKey pa) imageSize,
   (s.poison.filter fun d => rimKey pa ≤ d && d < rimKey pa + imageSize).map fun d => d - rimKey pa)

/-! ### Loading (R396, R400) -/

/-- A thread from an image; one whose ACTIVE bit is 0 stays halted, and one that waits is re-armed (R198). An FCTL of the image whose RM is 0
is loaded as MTS would store it (DESIGN CHOICE, log 80), and bit 0 of the PC and of a loop's start is ignored (log 71). -/
def loadThread (rd : Nat → Nat → Nat) (active th : Nat) : Thread :=
  let seq := BitVec.ofNat 64 (rd (0x6320 + 8 * th) 8)
  if active / 2 ^ th % 2 = 0 then { seedSeq := seq }
  else
    let r := 0xB2E0 + 112 * th
    let o := if th = 0 then 0xB4A0 else 0xB5E0 + 848 * (th - 1)
    let w (off : Nat) : Word := BitVec.ofNat 64 (rd off 8)
    let h (off : Nat) : BitVec 16 := BitVec.ofNat 16 (rd off 2)
    let v := rd (r + 54) 1
    let tr := if th = 0 then o + 0x108 else o + 0x118
    let flags := rd (if th = 0 then o + 0x12A else o + 0x14B) 1
    let loopAt (l d : Nat) (valid : Bool) : LoopEntry :=
      { start := pcOf (w l), stop := w (l + 8), count := w (l + 16), depth := h d, valid := valid }
    rearm
    { live := true
      pc := pcOf (w (if th = 0 then o + 0xF8 else o + 0x108))
      g := Vector.ofFn fun i => if i.val = 0 then 0 else w (o + 8 * (i.val - 1))
      v := if th = 0 then Vector.replicate 32 0 else Vector.ofFn fun i => BitVec.ofNat 128 (rd (o + 0x150 + 16 * i.val) 16)
      q := if th = 0 then Vector.replicate 8 0 else Vector.ofFn fun i => if i.val = 0 then 0 else h (o + 0xF8 + 2 * (i.val - 1))
      tst := BitVec.ofNat 4 (rd (if th = 0 then o + 0x100 else o + 0x110) 1) &&& 0b0111#4
      fctl := if th = 0 then 0x9 else fctlOf (BitVec.ofNat 64 (rd (o + 0x148) 1))
      fst := if th = 0 then 0 else BitVec.ofNat 5 (rd (o + 0x149) 1)
      srkey := if th = 0 then 0 else w (o + 0x138)
      srcnt := if th = 0 then 0 else w (o + 0x140)
      tcause := if th = 0 then BitVec.ofNat 9 (rd (o + 0x128) 2) else BitVec.ofNat 9 (rd (o + 0x14A) 1 + 256 * (rd (o + 0x14C) 1 % 2))
      tepc := w tr
      tval := w (tr + 8)
      tvec := w (tr + 16) &&& ~~~1#64
      tscratch := w (tr + 24)
      ldepth := h (r + 48)
      loop0 := loopAt r (r + 50) (v % 2 = 1)
      loop1 := loopAt (r + 24) (r + 52) (v / 2 % 2 = 1)
      cx := flags % 2 = 1
      cancelPending := flags / 2 % 2 = 1
      dogPending := flags / 4 % 2 = 1
      sync := { heldAddr := w (r + 0x48), heldKind := BitVec.ofNat 8 (rd (r + 0x50) 1), revoked := rd (r + 0x51) 1 % 2 = 1, ticket := w (r + 0x58) }
      wait := { addr := w (r + 0x38), kind := BitVec.ofNat 8 (rd (r + 0x40) 1), reg := BitVec.ofNat 8 (rd (r + 0x41) 1),
                thr := BitVec.ofNat 32 (rd (r + 0x44) 4), ticket := w (r + 0x58) }
      mprogAddr := if th = 0 then 0 else w (r + 0x60)
      mprogBytes := if th = 0 then 0 else BitVec.ofNat 32 (rd (r + 0x68) 4)
      seedSeq := seq }

/-- A saved command: it resumes where its prefix ends, or waits for its join (R331). -/
def loadCopy (rd : Nat → Nat → Nat) (slot : Nat) : Option CopyCmd :=
  let o := 0xB160 + 32 * slot
  let k := rd (o + 25) 1
  if k / 4 % 2 = 0 then none
  else
    let faulted := k / 8 % 2 = 1
    let src := BitVec.ofNat 64 (rd o 8)
    some {
      kind := match k % 4 with | 0 => .cpy | 1 => .cpyg | 2 => .cpys | _ => .cpyz
      number := BitVec.ofNat 32 (rd (o + 28) 4), src := src, dst := BitVec.ofNat 64 (rd (o + 8) 8)
      idx := BitVec.ofNat 64 (rd (o + 20) 2), len := BitVec.ofNat 32 (rd (o + 16) 4), esz := BitVec.ofNat 8 (rd (o + 22) 1)
      stream := BitVec.ofNat 8 (rd (o + 23) 1), fin := BitVec.ofNat 8 (rd (o + 24) 1), thread := 0
      phase := if faulted then .faulted else .waiting, cause := BitVec.ofNat 8 (rd (o + 26) 1), faultAddr := src }

/-- A matrix configuration as loaded: its reset value where it is not well-formed (R288, R293, R396). -/
def loadMcfg (v : Word) : Word := if cfgOk (cfgClear v) then cfgClear v else 0x2080

/-- Saved commands whose stream claims stood at the save go on running: the one that held them, or of those that name a claimed side the
oldest, where nothing tells (R323). -/
def resumeClaims (rd : Nat → Nat → Nat) (copies : Vector (Option CopyCmd) 4) : Vector (Option CopyCmd) 4 :=
  let claimed (h bit : Nat) : Bool := rd (0xADF0 + 32 * h) 1 / 2 ^ bit % 2 = 1
  let older (n : BitVec 32) (h : Nat) (p : CopyCmd → Bool) : Bool := copies.toList.any fun d => match d with
    | some d => d.handle == h && p d && (d.phase == .running || (d.phase == .waiting && d.number.toNat < n.toNat))
    | none => false
  copies.map fun d => d.map fun c =>
    let ok (p : CopyCmd → Bool) (bit : Nat) : Bool := !p c || (claimed c.handle bit && !older c.number c.handle p)
    if c.phase == .waiting && (c.fromHandle || c.toHandle) && ok CopyCmd.fromHandle 2 && ok CopyCmd.toHandle 1
    then { c with phase := .running } else c

/-- A saved command, with what stands beside its image where that belongs to it (log 82). -/
def withRest (rests : List CopyRest) (slot : Nat) (c : Option CopyCmd) : Option CopyCmd :=
  let key (c : CopyCmd) := (c.kind, c.number, c.src, c.dst, c.idx, c.len, c.esz, c.stream, c.fin)
  c.map fun c => match rests.find? fun r => r.slot == slot && key r.cmd == key c with
    | some r => r.cmd
    | none => c

/-- The tile that an image describes, with what stands beside it of its copy commands. -/
def loadTile (rd : Nat → Nat → Nat) (rests : List CopyRest) (mark : RunMark) (vd : Nat) (gid : Word) : Tile :=
  let w (off : Nat) : Word := BitVec.ofNat 64 (rd off 8)
  let copies := resumeClaims rd (Vector.ofFn fun i => withRest rests i.val (loadCopy rd i.val))
  let claim (h : Nat) (p : CopyCmd → Bool) : Bool := copies.toList.any fun c => match c with
    | some c => c.phase == .running && c.handle == h && p c
    | none => false
  { threads := Vector.ofFn fun i => loadThread rd (rd 0x6314 1) i.val
    vtn := BitVec.ofNat 32 (rd 0x6304 4)
    gsize := BitVec.ofNat 17 (rd 0x6310 4)
    handle := gid
    vd := vd
    s := Vector.ofFn fun i => w (0xAC20 + 8 * i.val)
    sfull := BitVec.ofNat 8 (rd 0xAC60 1)
    c := Vector.ofFn fun i => BitVec.ofNat 32 (rd (0xACA0 + 4 * i.val) 4)
    trig := Vector.ofFn fun i => let o := 0xACE0 + 32 * i.val; { cfg := w o, d1 := w (o + 8), d2 := w (o + 16), d3 := w (o + 24) }
    inbox := (List.range (min 64 (rd 0x6315 1))).map fun i => w (0xAEE0 + 8 * i)
    barCfg := Vector.ofFn fun i => BitVec.ofNat 16 (rd (0xB0E0 + 16 * i.val) 2)
    phase := Vector.ofFn fun i => BitVec.ofNat 2 (rd (0xB0E2 + 16 * i.val) 1)
    arrived := Vector.ofFn fun i => BitVec.ofNat 4 (rd (0xB0E3 + 16 * i.val) 1)
    contrib := Vector.ofFn fun i => w (0xB120 + 8 * i.val)
    barWait := Vector.ofFn fun i => let k := rd (0xB141 + 2 * i.val) 1
      { kind := BitVec.ofNat 2 (rd (0xB140 + 2 * i.val) 1), ident := BitVec.ofNat 2 k, op := barrOf (k / 4 % 8) }
    specUsed := BitVec.ofNat 16 (rd 0xB148 2)
    rollbacks := BitVec.ofNat 32 (rd 0xB14C 4)
    streams := Vector.ofFn fun i => let o := 0xADE0 + 32 * i.val
      { cfg := w o, rd := BitVec.ofNat 32 (rd (o + 8) 4), wr := BitVec.ofNat 32 (rd (o + 12) 4), valid := rd (o + 16) 1 % 2 = 1
        pcl := claim i.val CopyCmd.toHandle, ccl := claim i.val CopyCmd.fromHandle }
    mcfg := Vector.ofFn fun i => loadMcfg (w (0xAC00 + 8 * i.val))
    copies := copies
    nextCmd := BitVec.ofNat 32 (rd 0x6318 4)
    events := (List.range (min 16 (rd 0x6316 1))).map fun i => ⟨w (0xB1E0 + 16 * i), w (0xB1E8 + 16 * i)⟩
    digest := Vector.ofFn fun i => BitVec.ofNat 32 (rd (0x6340 + 4 * i.val) 4)
    mark := mark }

/-- Whether an offset of an image is tile-local memory: the pad, tile registers, scale areas, accumulators. -/
def imageMemory (off : Nat) : Bool := off < 0x6000 || (0x6400 ≤ off && off < 0xAC00)

/-- Put a tile on a site from an image: memory zeroed, then written, poison with it (R396, R400). -/
def installImage (s : State) (a : Nat) (cells : List Host.Cell) (bad : List Nat) (mark : RunMark) (vd : Nat) (gid : Word) : State :=
  let rd (off n : Nat) : Nat := Mem.readN cells off n
  let s := s.zeroRange (tileKey a 0) 65536
  let s := { s with
    mem := Mem.paste s.mem (tileKey a 0) (cells.filter fun c => imageMemory c.1)
    full := (List.range 6144).foldl (fun l w => if rd (0x6000 + w / 8) 1 / 2 ^ (w % 8) % 2 = 1 then NSet.insert l (tileKey a (4 * w)) else l) s.full
    poison := bad.foldl (fun l d => if imageMemory d then NSet.insert l (tileKey a d) else l) s.poison }
  let v := BitVec.ofNat 32 (rd 0x6304 4)
  let s := s.setTile a (loadTile rd (s.copyRest.filter fun r => r.gid == gid && r.vtn == v && r.mark == mark) mark vd gid)
  -- reports that had no room in the event queue come back with the tile
  let t := s.tile a
  let mine (r : HeldReport) : Bool := r.gid == gid && r.vtn == t.vtn && r.mark == mark
  -- a completion comes back with its command alone
  let stands (e : EventRec) : Bool := e.lo.extractLsb' 0 8 != 1#8 || match s.slotOf a (e.lo.extractLsb' 32 32) with
    | some (_, c) => c.phase == .closing
    | none => false
  { s with heldReports := s.heldReports.filter fun r => !mine r }.modTile a
    fun t => { t with eventWait := ((s.heldReports.filter mine).map HeldReport.event).filter stands }

end State
end Sys2Proof.Machine
end

