-- ==== Sys2Proof/Machine/Gang.lean ====
section
/-! DEFINITION. Gangs on the wafer: the swap region, placement (R17), starting (R349), stopping a tile (R392), saving and restoring
(R393), retiring (R344), and the cruise-hold of a grid's inputs (R367). -/

namespace Sys2Proof.Machine
namespace State

/-! ### Residency entries (R257) -/

/-- Replace a field of an entry. -/
def setField (e : BitVec 256) (lo n v : Nat) : BitVec 256 :=
  let m := BitVec.ofNat 256 ((2 ^ n - 1) * 2 ^ lo)
  (e &&& ~~~m) ||| (BitVec.ofNat 256 (v % 2 ^ n * 2 ^ lo))

def setRes (b : Bool) (e : BitVec 256) : BitVec 256 := setField e 16 1 (if b then 1 else 0)
def setMove (b : Bool) (e : BitVec 256) : BitVec 256 := setField e 17 1 (if b then 1 else 0)
def setRet (e : BitVec 256) : BitVec 256 := setField e 18 1 1
def setNst (e : BitVec 256) : BitVec 256 := setField e 19 1 1
/-- The generation, increased by 1. -/
def bumpGen (e : BitVec 256) : BitVec 256 := setField e 48 16 ((resGen e).toNat + 1)

/-- Write the residency entry of a gang. -/
def modEntry (s : State) (gid : Word) (i : Nat) (f : BitVec 256 → BitVec 256) : State :=
  match s.grid? gid with
  | some g => if g.complete then s else s.store (rimKey (g.table + 32 * i)) 32 (f (s.residency g i)).toNat
  | none => s

/-- The gang's entry holds RES = 1 and MOVE = 1, so its RUNNING tiles are held (R390). -/
def gangHeld (s : State) (gid : Word) (i : Nat) : Bool :=
  match s.grid? gid with
  | some g => !g.complete && resRes (s.residency g i) && resMove (s.residency g i)
  | none => false

/-- A tile's threads may not issue because its gang is being moved. -/
def tileHeld (s : State) (a : Nat) : Bool :=
  let t := s.tile a
  !isCore a && t.mark == .original && s.gangHeld t.handle (gangOf t.vtn)

/-! ### Placement (R17) -/

/-- A site that a gang may be placed on now. -/
def placeable (s : State) (a : Nat) : Bool :=
  s.siteState a == .free && !s.withheld.contains (a / 256) && !s.powerOff a && !(s.site a).pend

/-- An interval holds no site of a list: a cruise re-run shares none with the earlier runs (R368). -/
def apartFrom (avoid : List Nat) (lo len : Nat) : Bool := avoid.all fun a => a < lo || lo + len ≤ a

/-- The first `n` placeable sites of an interval, if it holds so many. -/
def takeSites (s : State) (lo len n : Nat) : Option (List Nat) :=
  let l := ((List.range len).map (lo + ·)).filter s.placeable
  if n ≤ l.length then some (l.take n) else none

/-- The aligned interval of the smallest length 4^k that holds `n` sites, at the lowest index, within [lo, hi). -/
def placeAligned (s : State) (avoid : List Nat) (lo hi n : Nat) : Option (List Nat) :=
  (List.range 9).findSome? fun k =>
    let len := 4 ^ k
    if n ≤ len then
      (List.range ((hi - lo) / len + 1)).findSome? fun j =>
        let st := alignUp lo len + j * len
        if st + len ≤ hi && apartFrom avoid st len then s.takeSites st len n else none
    else none

/-- The shortest interval that holds `n` sites, beginning at the lowest index, within [lo, hi). -/
def placeShortest (s : State) (avoid : List Nat) (lo hi n : Nat) : Option (List Nat) :=
  let l := ((List.range (hi - lo)).map (lo + ·)).filter s.placeable
  let span (r : List Nat) : Nat := r.getLast?.getD 0 - r.headD 0
  let runs := ((List.range (l.length + 1 - n)).map fun i => (l.drop i).take n).filter fun r => apartFrom avoid (r.headD 0) (span r + 1)
  if n = 0 then none
  else runs.foldl (fun best r => match best with
    | some b => if span r < span b then some r else some b
    | none => some r) none

/-- The sites of a gang of `n` tiles within a part [lo, hi) of a partition (R17). -/
def place (s : State) (avoid : List Nat) (lo hi n : Nat) : Option (List Nat) :=
  match s.placeAligned avoid lo hi n with
  | some l => some l
  | none => s.placeShortest avoid lo hi n

/-- The part of a VD's partition that a dispatcher places on: node 0 to 255 a yard, 256 to 259 a quadrant, 260 the module (R347). -/
def nodePart (s : State) (vd node : Nat) : Nat × Nat :=
  let p := s.vdPbase vd
  let e := p + s.vdPlen vd
  if node < 256 then (max p (256 * node), min e (256 * node + 256))
  else if node < 260 then (max p (16384 * (node - 256)), min e (16384 * (node - 255)))
  else (p, e)

/-- The level at which gangs of a size are placed. -/
def placesAt (node gsz : Nat) : Bool := if node < 256 then gsz ≤ 256 else if node < 260 then 256 < gsz && gsz ≤ 16384 else 16384 < gsz

/-- Skip offsets of a placement: every place of its interval that is no rank's (R258). -/
def skipsOf (sites : List Nat) : List Nat :=
  let base := sites.headD 0
  (List.range (sites.getLast?.getD base + 1 - base)).filter fun o => !sites.contains (base + o)

/-! ### Held inputs (R367) -/

/-- Hold a grid's inputs. -/
def holdInputs (s : State) (g : Grid) : State :=
  ((heldPages g).foldl (fun s va => s.setHold g.vd g.desc.space va true) s).modGrid g.handle fun g => { g with holds := true }

/-- Gang i of a grid is selected (R361, R362); without its feature CRE is 17 (R423). -/
def selected (s : State) (g : Grid) (i : Nat) : Bool :=
  s.feature 3 && decide (g.desc.cre ≤ 16) && decide ((peg g.desc.cseed (BitVec.ofNat 32 i)).toNat < 2 ^ (32 - g.desc.cre))

/-! ### Starting (R349) -/

/-- Zero a site, write the pad image, and start the control thread of one tile, which is then RUNNING (steps 2 to 5; R391). -/
def startTile (s : State) (g : Grid) (i rank a : Nat) (mark : RunMark) : State :=
  let s := s.zeroRange (tileKey a 0) 65536
  let s := { s with mem := Mem.paste s.mem (tileKey a 0) (g.image.getD []) }
  let s := s.setMcrN (0x60000 + a) 1 0
  let s := s.setTile a { vtn := BitVec.ofNat 32 (i * 65536 + rank), gsize := BitVec.ofNat 17 g.desc.gsz, handle := g.handle, vd := g.vd, mark := mark }
  let s := s.modSite a fun x => { x with state := .running, stopBy := none }
  s.startThread a 0 g.desc.entry g.desc.arg (handleOf g.handle)

/-- Start every tile of a placement. -/
def startTiles (s : State) (g : Grid) (i : Nat) (mark : RunMark) (sites : List Nat) : State :=
  (sites.zip (List.range sites.length)).foldl (fun s p => s.startTile g i p.2 p.1 mark) s

/-- Change the record of a run of a gang. -/
def modRun (s : State) (gid : Word) (i : Nat) (mark : RunMark) (f : Gang → Gang) : State :=
  { s with gangs := mapIf (fun g => g.handle == gid && g.index == i && g.mark == mark) f s.gangs }
def run? (s : State) (gid : Word) (i : Nat) (mark : RunMark) : Option Gang :=
  s.gangs.find? fun g => g.handle == gid && g.index == i && g.mark == mark

/-- Write the skip list of a placement and the entry that names it, with MOVE = 1; none where the swap region lacks room. -/
def placeEntry (s : State) (g : Grid) (i : Nat) (sites : List Nat) (res : Bool) : Option (Option SwapBlock × State) :=
  let skips := skipsOf sites
  let write (b : Option SwapBlock) (pa : Nat) (s : State) : Option SwapBlock × State :=
    let s := (skips.zip (List.range skips.length)).foldl (fun s p => s.store (rimKey (pa + 2 * p.2)) 2 p.1) s
    (b, s.modEntry g.handle i fun e =>
      bumpGen (setMove true (setRes res (setField (setField (setField e 0 16 (sites.headD 0)) 32 16 skips.length) 64 64 pa))))
  if skips.isEmpty then some (write none 0 s)
  else match s.allocSwap g.vd (2 * skips.length) with
    | some (b, s) => some (write (some b) b.base s)
    | none => none

/-- RES = 1, the second of the three writes of a start (R349 step 4; log 35). -/
def markResident (s : State) (gid : Word) (i : Nat) : State := s.modEntry gid i fun e => bumpGen (setRes true e)

/-- MOVE = 0 (R349 step 4, R393). -/
def settleEntry (s : State) (gid : Word) (i : Nat) : State := s.modEntry gid i fun e => bumpGen (setMove false e)

/-- A tile fault outstanding for a gang ends when it becomes resident (R260). -/
def clearTileFault (s : State) (gid : Word) (i : Nat) : State := { s with tileFaults := s.tileFaults.filter (· != (gid, i)) }

/-- What the thread of a bank's request waits for. -/
def bankPark : BankReq → Park
  | .resv r => match r.kind with
    | .lrw => .grant r.addr
    | .lro t | .atomic .faddo _ _ t => .ticket r.addr t
    | .atomic _ _ _ _ => .grant r.addr
  | .fe r => match r.kind with
    | .waitf => .waitf r.addr
    | .load _ | .store => .fullEmpty r.addr

/-- A run by its number in an event: the gang's index, plus 65,536 for a re-run and 131,072 for a third run. -/
def runNo (g : Gang) : Nat := g.index + 65536 * g.mark.no
def runBy (s : State) (gid : Word) (n : Nat) : Option Gang := s.gangs.find? fun g => g.handle == gid && runNo g == n

/-- The site where a rank's open pad stands. -/
def openPad (s : State) (g : Gang) (rank : Nat) : Option Nat :=
  (g.sites[rank]?).filter fun b => let t := s.tile b
    s.hasTile b && t.handle == g.handle && t.vtn == BitVec.ofNat 32 (g.index * 65536 + rank) && t.mark == g.mark && !t.sealed

/-- Re-enter the requests that were withdrawn with a pad that is back, in their former order (R205). -/
def returnRequests (s : State) (gid : Word) (n : Nat) : State :=
  match s.runBy gid n with
  | none => s
  | some g =>
    let here (r : AwayReq) : Bool := r.gid == gid && r.gang == n && (s.openPad g r.rank).isSome
    let back := s.away.filter here
    back.foldl (fun s r => match s.openPad g r.rank with
      | some b =>
        let s := s.modThread r.agent r.thread fun x => { x with park := some (bankPark r.req) }
        match r.req with
        | .resv q => s.requestGrant { q with key := tileKey b r.off }
        | .fe q => s.feRequest { q with key := tileKey b r.off }
      | none => s) { s with away := s.away.filter fun r => !here r }

/-- MOVE is 0: the pads of a gang's LOADED and RUNNING tiles serve from now on, after every parked record has landed (R173, R263, R390). -/
def openPads (s : State) (gid : Word) (i : Nat) : State :=
  match s.gang? gid i with
  | none => s
  | some g =>
    let s := g.sites.foldl (fun s b =>
      if s.siteState b == .loaded || s.siteState b == .running then s.modTile b fun t => { t with sealed := false } else s) s
    s.returnRequests gid i

/-! ### Arrivals sent again (R235) -/

/-- A thread of a tile that is back waits again at its barrier, as the instruction at its PC says. An arrival whose instruction cannot be
read without a trace is withdrawn, and sent when the thread issues it (DEDUCED, log 96). -/
def rejoinThread (s : State) (a th : Nat) : State :=
  let w := vget (s.tile a).barWait th {}
  let wait (n : Word) (f : Thread → Thread) : State :=
    s.modThread a th fun t => f { t with park := some (.barrier w.ident.toNat), parkNext := n }
  if w.kind == 0#2 || !(s.thread a th).live then s
  else if !s.hasArrived a th w.ident.toNat then s.withdrawArrival a th
  else match s.instrAt a th with
    | some (.bar _ b, n) | some (.bars _ b, n) => if b == w.ident && w.kind == 1#2 then wait n id else s.withdrawArrival a th
    | some (.barr _ x b _, n) =>
      if b == w.ident && w.kind == 2#2 then
        (wait n (Op.claim x)).modTile a fun t => { t with barWait := vset t.barWait th { w with dest := x } }
      else s.withdrawArrival a th
    | _ => s.withdrawArrival a th

/-- The arrivals of a tile that is back. -/
def rejoin (s : State) (a : Nat) : State := [0, 1, 2, 3].foldl (fun s th => s.rejoinThread a th) s

/-! ### Ranks without a site (R235, R403) -/

/-- A tile leaves its site without having retired, while its gang goes on: the barrier network keeps its participants. -/
def bench (s : State) (a : Nat) : State :=
  let t := s.tile a
  let r := rankOf t.vtn
  s.modGangOfTile a fun g =>
    if g.sites[r]? == some a && !g.retiredRanks.contains r then
      { g with saved := { rank := r, cfg := t.barCfg, live := BitVec.ofNat 4 (activeMask t) } :: g.saved.filter fun x => x.rank != r }
    else g

/-- The tile of a benched rank is back: its phases are those its groups have reached. -/
def unbench (s : State) (a : Nat) : State :=
  let r := rankOf (s.tile a).vtn
  match (s.gangOfTile a).bind fun g => g.saved.find? fun x => x.rank == r with
  | none => s
  | some x =>
    (s.modTile a fun t => { t with phase := Vector.zipWith (· + ·) t.phase x.phases }).modGangOfTile a
      fun g => { g with saved := g.saved.filter fun y => y.rank != r }

/-! ### Stopping a tile (R392) -/

/-- No reservation is held by a thread of a tile, nor on its pad (R204). -/
def noHolds (s : State) (a : Nat) : Bool :=
  !(s.holders.any fun h => h.agent == a || regionOf h.key == .tile a) && [0, 1, 2, 3].all fun th => !farHold (s.thread a th).sync

/-- A TSTOP of a thread for another tile has acted: it is stopping that tile (R397). -/
def tstopActed (s : State) (a th b : Nat) : Bool := s.siteState b == .stopping && (s.site b).stopBy == some (.tstop a th)

/-- A thread has nothing under way that a stop lets finish: relaxed accesses, a drain, a LAUNCH's handle, an access half done or at
another module's memory, a TSTOP that has acted. A fault it has deferred waits for its matrix instruction to stop. -/
def threadQuiet (s : State) (a th : Nat) : Bool :=
  let x := s.thread a th
  (x.relaxed.isEmpty || recallable x) && (x.deferred.isNone || x.park == some .matrixOwn) && x.drain.isEmpty && x.launching.isEmpty && match x.park with
    | some (.pod _) => recallable x
    | some (.half _) | some .draining => false
    | some (.tstop b _) => b == a || !s.tstopActed a th b
    | _ => true

/-- Everything that a stop lets finish has finished: threads, outbound operations, actions, and the beats of copy commands. -/
def quiet (s : State) (a : Nat) : Bool :=
  let t := s.tile a
  t.outb.isEmpty && t.evalQ.isEmpty && [0, 1, 2, 3].all (s.threadQuiet a) && t.copies.toList.all fun c => match c with
    | some c => copyStopped c (s.handleSize a c.handle)
    | none => true

/-- Decided completions that a tile takes part in can be delivered. -/
def canDeliver (s : State) (a : Nat) : Bool :=
  s.decided.all fun d => !(d.members.any fun m => m.1 == a) || s.deliverable d

/-- A fault that a stopped matrix instruction has held up is taken at its boundary (R163, R308). -/
def takeDeferred (s : State) (a th : Nat) : State :=
  match (s.thread a th).deferred with
  | none => s
  | some d => (s.modThread a th fun t => { t with deferred := none }).takeTrap a th d.cause false (s.thread a th).pc d.value

/-- Step 4 for one thread: it stands at a boundary. -/
def stopThread (s : State) (a th : Nat) : State :=
  let noWait (s : State) : State := s.modThread a th fun t => { t with wait := {} }
  match (s.thread a th).park with
  | none => noWait s
  | some .sleep | some (.align _ _ _) => noWait (s.finishThread a th)
  | some .matrixOwn => noWait ((s.stopMatrix a th).takeDeferred a th)
  | some (.tstop b x) =>
    -- a TSTOP of its own tile completes with the stop that it, or another TSTOP, has begun; one that has not acted is withdrawn (R397, R398)
    let stopped : Bool := b == a && match (s.site a).stopBy with
      | some (.tstop _ _) => true
      | some .scheduler | none => false
    noWait (if stopped then (s.writeG a th x 0 0).finishThread a th else s.withdraw a th)
  | some p =>
    let w := s.waitOf a th p
    (s.withdraw a th).modThread a th fun t => { t with wait := w }

/-- Every issued instruction of a tile has written its destination: shared registers, links and streams (R99, R105). -/
def flushTile (s : State) (a : Nat) : State := (s.settlePushes a (BitVec.allOnes 64)).modTile a fun t => settleShared t (BitVec.allOnes 64)

/-- The words on their way to a FIFO of a tile. -/
def flyingWords (s : State) (a : Nat) (below : Bool) : List FifoWord :=
  let t := s.tile a
  (s.links.filter fun l => l.handle == t.handle && l.gang == gangOf t.vtn + 65536 * t.mark.no && l.rank == rankOf t.vtn && l.fromBelow == below).map
    fun l => ⟨l.word, l.sent⟩

/-- Append the words of one FIFO as link records, in order; the slots of those that have been sent on are noted (R170, R249). -/
def skidLinks (s : State) (h : Word) (v : BitVec 32) (below : Bool) : List FifoWord → Option State
  | [] => some s
  | w :: t =>
    let hdr := s.skidHdr h (gangOf v)
    let slot := s.ringSlot hdr (s.ringTail hdr)
    (s.skidAppend h (gangOf v) (linkRecord v below w.word)).bind fun s =>
      skidLinks { s with sentWords := if w.sent then NSet.insert s.sentWords slot else NSet.erase s.sentWords slot } h v below t

/-- Every posted operation of a tile's gang has been handed over, and none follows: its stopping tiles are at rest (R249). -/
def linksReady (s : State) (a : Nat) : Bool := (s.gangAgents a).all fun b =>
  (s.tile b).outb.isEmpty && (s.tile b).evalQ.isEmpty && (s.siteState b != .stopping || (s.site b).atRest)

/-- Move a tile's link words into the skid queue, after every posted operation of its gang has been handed over (R249); a re-run has no
skid queue, and its words go back onto the links, in front. -/
def linksToSkid (s : State) (a : Nat) : Option State :=
  let t := s.tile a
  let n := gangOf t.vtn + 65536 * t.mark.no
  if !s.linksReady a then none
  else if t.mark != .original then
    let back (below : Bool) (w : FifoWord) : LinkWord := ⟨t.handle, n, rankOf t.vtn, below, w.word, w.sent⟩
    some ({ s with links := t.lp.map (back true) ++ t.ln.map (back false) ++ s.links }.modTile a fun t => { t with ln := [], lp := [] })
  else
    ((s.skidLinks t.handle t.vtn true (t.lp ++ s.flyingWords a true)).bind fun (s : State) =>
      s.skidLinks t.handle t.vtn false (t.ln ++ s.flyingWords a false)).map fun (s : State) =>
        { s with links := s.links.filter fun l => !(l.handle == t.handle && l.gang == n && l.rank == rankOf t.vtn) }.modTile a
          fun t => { t with ln := [], lp := [] }

/-- Every watcher of a tile's pad rolls back (R234). -/
def rollPadWatchers (s : State) (a : Nat) : State :=
  (s.watches.filter fun w => regionOf w.key == .tile a).foldl (fun s w => s.rollBack w.agent w.thread) s

/-- Requests of other tiles that wait at a pad are withdrawn with it, and wait for the absent gang, in their order; they raise a tile
fault (R143, R205, R260). -/
def withdrawAt (s : State) (a : Nat) : State :=
  let t := s.tile a
  let here (k b : Nat) : Bool := regionOf k == .tile a && b != a
  let away (q : BankReq) (k b th : Nat) (addr : Word) : AwayReq :=
    ⟨t.handle, gangOf t.vtn + 65536 * t.mark.no, rankOf t.vtn, k - tileKey a 0, q, b, th, addr⟩
  let l := ((s.resv ++ s.rejected).filter fun r => here r.key r.agent).map (fun r => away (.resv r) r.key r.agent r.thread r.addr)
    ++ (s.fe.filter fun r => here r.key r.agent).map fun r => away (.fe r) r.key r.agent r.thread r.addr
  let s := { s with
    resv := s.resv.filter fun r => !here r.key r.agent
    rejected := s.rejected.filter fun r => !here r.key r.agent
    fe := s.fe.filter fun r => !here r.key r.agent
    away := s.away ++ l }
  let s := l.foldl (fun s r => s.modThread r.agent r.thread fun x => { x with park := some (.absent (gangOf t.vtn) r.addr) }) s
  if l.isEmpty || t.mark != .original then s else s.raiseTileFault t.handle (gangOf t.vtn)

/-- A copy command at its boundary; a fault it has met is reported first (R331, R322). -/
def stopCopy (s : State) (a i : Nat) : State :=
  match s.copy? a i with
  | some c => (if c.phase == .failing then s.reportCopy a i c else s).settleCopy a i
  | none => s

/-- Steps 2 to 6 of R392 but for the link words, once nothing holds them up: the tile stands as it will be saved, its port sealed. -/
def restTile (s : State) (a : Nat) : Option State :=
  if !(s.noHolds a && s.quiet a && s.canDeliver a) then none
  else
    let s := (s.decided.filter fun d => d.members.any fun m => m.1 == a).foldl (fun s d => s.deliver d) s
    let s := [0, 1, 2, 3].foldl (fun s th => if (s.thread a th).spec.isSome then s.rollBack a th else s) s
    if !s.quiet a then none
    else
      let s := [0, 1, 2, 3].foldl (fun s th => if (s.thread a th).live then s.stopThread a th else s) s
      let s := [0, 1, 2, 3].foldl (fun s i => s.stopCopy a i) (s.flushTile a)
      if (s.tile a).xfer.isSome then none
      else
        let s := (s.rollPadWatchers a).withdrawAt a
        -- a PREF still pending is dropped (R135)
        let s := { s with fills := s.fills.filter fun f => f.agent != a }.modTile a fun t => { t with sealed := true }
        some (s.modSite a fun x => { x with atRest := true })

/-- A stopping tile comes to rest, unless it is there already. -/
def atRest (s : State) (a : Nat) : Option State := if (s.site a).atRest then some s else s.restTile a

/-- A tile at rest is STOPPED once its link words are recorded (R249, R392); until then it stays at rest. -/
def stopTile (s : State) (a : Nat) : State := match s.linksToSkid a with
  | some s => s.modSite a fun x => { x with state := .stopped, atRest := false }
  | none => s

/-- What a saved tile's image has no place for stays with the scheduler: reports without room in the event queue, and what its copy
commands have in hand. -/
def keepReports (s : State) (a : Nat) : State :=
  let t := s.tile a
  State.keepRests { s with heldReports := s.heldReports ++ t.eventWait.map fun e => HeldReport.mk t.handle t.vtn t.mark e } a

/-! ### Freeing sites (R371, R372, R391) -/

/-- The VD whose partition holds a site; 0 where none does. -/
def vdOfSite (s : State) (a : Nat) : Nat :=
  ((List.range 256).find? fun v => s.vdActive v && decide (s.vdPbase v ≤ a) && decide (a < s.vdPbase v + s.vdPlen v)).getD 0

/-- TSTOPs that wait for a site complete with a status (R398). -/
def finishTstop (s : State) (a : Nat) (status : Word) : State :=
  s.tiles.foldl (fun s p => [0, 1, 2, 3].foldl (fun s th => match (s.thread p.1 th).park with
    | some (.tstop b x) => if b = a && p.1 != a then (s.writeG p.1 th x status).finishThread p.1 th else s
    | _ => s) s) s

/-- A site is left by its tile: FREE, or QUARANTINED where it is marked, with the report of every quarantine (R372, R373). -/
def leaveSite (s : State) (a : Nat) : State :=
  let x := s.site a
  let s := (s.dropTile a).finishTstop a 1
  if x.pend then
    (s.modSite a fun x => { x with state := .quarantined, pend := false, stopBy := none }).addRecord .cruise
      (cruiseReport 4 (s.vdOfSite a) s.moduleNo 0 0 a x.score.toNat)
  else s.modSite a fun x => { x with state := .free, stopBy := none }

/-- A stopped tile is discarded; its image, where it has one, may come back (R400, R403). -/
def discardTile (s : State) (a : Nat) : State := (s.keepReports a).bench a

/-- A site is to leave the placement pool: at once if it is free, else when the gang that occupies it retires or is swapped out (R372,
R391). -/
def markSite (s : State) (a : Nat) : State :=
  match s.siteState a with
  | .free => (s.modSite a fun x => { x with pend := true }).leaveSite a
  | .running | .loaded | .stopping | .stopped => s.modSite a fun x => { x with pend := true }
  | .quarantined | .defective => s

/-- TQUAR marks a site, and discards a STOPPED tile there (R391, R403). -/
def quarantine (s : State) (a : Nat) : State :=
  if s.siteState a == .stopped then ((s.discardTile a).modSite a fun x => { x with pend := true }).leaveSite a else s.markSite a

/-- A pad is gone for good: requests that wait at it issue again and meet condition 7 of R137. -/
def wakeWaiters (s : State) (g : Gang) (a : Nat) : State :=
  let s := s.withdrawAt a
  { s with away := s.away.filter fun r => !(r.gid == g.handle && r.gang == runNo g) }.clearTileFault g.handle g.index

/-- Reservations that other tiles' threads hold on a pad that is gone for good are revoked, as for a pre-emption (R204): the rule does not
name this case (DESIGN CHOICE, log 78). -/
def revokeAt (s : State) (a : Nat) : State :=
  (s.holders.filter fun h => regionOf h.key == .tile a && h.agent != a).foldl (fun s h => s.dropHold h.agent h.thread true) s

/-- Remove every tile of a run from its sites: its threads wait for nothing and hold nothing (R204), no completion of its groups is
left, and its pads are gone. -/
def clearSites (s : State) (g : Gang) : State :=
  let s := s.dropDecided g.handle (runNo g)
  let s := g.sites.foldl (fun s a => if s.hasTile a then [0, 1, 2, 3].foldl (fun s th => s.dropThread a th) s else s) s
  g.sites.foldl (fun s a => if s.hasTile a then (((s.wakeWaiters g a).revokeAt a).rollPadWatchers a).leaveSite a else s) s

/-! ### Retiring (R344, R356) -/

/-- The gang digest: the sum over its tiles (R363). -/
def gangDigest (s : State) (g : Gang) : Vector (BitVec 32) 4 :=
  g.sites.foldl (fun d a => Vector.zipWith (· + ·) d (s.tile a).digest) (Vector.replicate 4 0)

/-- Stopped tiles of a gang that stand where the gang has left them: the cancellation frees their sites too (R391). -/
def strayTiles (s : State) (g : Gang) : List Nat :=
  (s.tiles.map Prod.fst).filter fun a => let t := s.tile a
    !isCore a && t.handle == g.handle && gangOf t.vtn == g.index && t.mark == g.mark && !g.sites.contains a && s.siteState a == .stopped

/-- A run retires: RET is set, its sites are freed, its digest is formed; an original is counted, and audited if selected. -/
def retireGang (s : State) (g : Gang) : State :=
  let d := s.gangDigest g
  let s := if g.cancelTrap then (s.strayTiles g).foldl State.leaveSite s else s
  let s := (s.clearSites g).freeSwap g.skipBlock
  let s := s.modRun g.handle g.index g.mark fun g => { g with phase := .retired, sites := [], digest := d, skipBlock := none, saved := [] }
  let s := { s with copyRest := s.copyRest.filter fun r => !(r.gid == g.handle && gangOf r.vtn == g.index && r.mark == g.mark) }
  if g.mark != .original then s
  else
    let s := (s.modEntry g.handle g.index setRet).clearTileFault g.handle g.index
    let s := s.modGrid g.handle fun x => if g.cancelTrap then { x with cancelledRunning := x.cancelledRunning + 1 } else { x with completed := x.completed + 1 }
    match s.grid? g.handle with
    | some x =>
      if s.selected x g.index && !x.cancelled then
        { s with audits := s.audits ++ [{ handle := g.handle, gang := g.index, vd := g.vd, first := d, firstSites := g.history }] }
      else s
    | none => s

/-- Everything R344 asks of a tile that retires. -/
def tileDone (s : State) (a : Nat) : Bool :=
  let t := s.tile a
  [0, 1, 2, 3].all (fun th => let x := vget t.threads th {}; !x.live && x.relaxed.isEmpty && x.drain.isEmpty)
    && t.evalQ.isEmpty && t.xfer.isNone
    && [0, 1, 2, 3].all fun i => match s.copy? a i with
      | some c => c.phase == .faulted
      | none => true

/-- A tile retires: armed triggers, handles and events are dropped, and the slots of faulted commands freed. -/
def retireTile (s : State) (a : Nat) : State :=
  let s := (s.flushTile a).modTile a fun t => { t with
    trig := t.trig.map Trig.disarm, streams := Vector.replicate 8 {}, events := [], eventWait := [], copies := Vector.replicate 4 none }
  s.modGangOfTile a fun g => { g with retiredRanks := g.retiredRanks ++ [rankOf (s.tile a).vtn] }

end State
end Sys2Proof.Machine
end

