-- ==== Sys2Proof/Machine/Launch.lean ====
section
/-! DEFINITION. Grids: LAUNCH, CANCEL, GWAIT, GQRY, SPAWN (R337-R341), the home dispatcher's acceptance (R334-R336), completion
(R355-R358) and cancellation (R359, R360). -/

namespace Sys2Proof.Machine

/-! ### Reads and writes of units without a thread -/

namespace State

/-- The request of a dispatcher; its accesses enter at the station of service core 0 (log 27). -/
def dispAsker (vd space : Nat) (sup : Bool) : Asker := ⟨52, vd, space, 0xFFFFFFFF#32, 0, sup⟩

/-- The physical pieces of a range of rim addresses: key and length of each. -/
def segments (s : State) (q : Asker) (addr : Word) (n : Nat) (u : Use) : Res (List (Nat × Nat)) :=
  if n = 0 then .ok []
  else if !s.spaceValid q.vd q.space || tagOf addr != 4 || fieldOf addr 56 4 != 0 then .error (.trap 0x03 addr)
  else
    let a := addr.toNat % 2 ^ 56
    (pagesOf addr n).foldr (fun p r =>
      let lo := max a p
      let hi := min (a + n) (p + 65536)
      match s.translateAt q (BitVec.ofNat 64 lo ||| 0x4000000000000000#64) u, r with
      | .ok k, .ok l => .ok ((k, hi - lo) :: l)
      | .error e, _ => .error e
      | _, .error e => .error e) (.ok [])

/-- An access of a unit to a range has gone through its leaves. -/
def usedRange (s : State) (q : Asker) (addr : Word) (n : Nat) : State :=
  (pagesOf addr n).foldl (fun s p => s.usedBy q (BitVec.ofNat 64 p)) s

/-- The first poisoned doubleword of the pieces of a range that begins at an address. -/
def poisonAt (s : State) (addr : Word) : List (Nat × Nat) → Option Word
  | [] => none
  | k :: l =>
    match (s.poison.filter fun d => k.1 / 8 * 8 ≤ d && d < k.1 + k.2).head? with
    | some d => some ((addr + BitVec.ofNat 64 (d - k.1)) &&& ~~~7#64)
    | none => poisonAt s (addr + BitVec.ofNat 64 k.2) l

/-- Read a range as a number; poison is a fault at its doubleword (R350). -/
def readRange (s : State) (q : Asker) (addr : Word) (n : Nat) : Res Nat :=
  match s.segments q addr n { read := true, plain := false, kind := .engineRead } with
  | .error e => .error e
  | .ok l =>
    match s.poisonAt addr l with
    | some d => .error (.trap 0x0A d)
    | none => .ok (l.foldr (fun k r => s.readN k.1 k.2 + 2 ^ (8 * k.2) * r) 0)

/-- Write a range. -/
def writeRange (s : State) (q : Asker) (addr : Word) (n v : Nat) : Res State :=
  match s.segments q addr n { write := true, plain := false, kind := .engineWrite } with
  | .error e => .error e
  | .ok l => .ok (l.foldl (fun (r : State × Nat) k => (r.1.store k.1 k.2 (r.2 % 2 ^ (8 * k.2)), r.2 / 2 ^ (8 * k.2))) (s.usedRange q addr n, v)).1

/-! ### The descriptor (R332-R334) -/

/-- A field of a descriptor. -/
def descField (d off n : Nat) : Nat := d / 256 ^ off % 256 ^ n

def parseDesc (d : Nat) : GridDesc :=
  let w (off : Nat) : Word := BitVec.ofNat 64 (descField d off 8)
  { image := w 0, imsz := descField d 8 4, gsz := descField d 12 4, entry := w 16, gcnt := descField d 24 4, queue := descField d 28 2
    pri := descField d 30 1, weight := descField d 31 1, mask := w 32, cre := descField d 40 1, flags := BitVec.ofNat 8 (descField d 41 1)
    space := descField d 42 2, stack := descField d 44 2, cseed := w 48, arg := w 56, iolist := w 64, iocnt := descField d 72 4
    crec := w 80, cnote := w 88 }

/-- A rim address a descriptor may hold: tag 4 and a multiple. -/
def rimField (w : Word) (n : Nat) : Bool := tagOf w == 4 && w.toNat % n == 0

/-- Every field has a legal value, and the bits marked zero are zero (reason 1). -/
def descLegal (d : Nat) : Bool :=
  let x := parseDesc d
  (x.imsz == 0 || rimField x.image 16) && decide (x.imsz ≤ 24576) && x.imsz % 16 == 0
    && decide (1 ≤ x.gsz) && decide (x.gsz ≤ 65536) && rimField x.entry 2 && decide (1 ≤ x.gcnt) && decide (x.gcnt ≤ 65536)
    && decide (x.queue ≤ 255) && decide (x.pri ≤ 7) && decide (1 ≤ x.weight) && decide (x.cre ≤ 17) && decide (x.flags.toNat ≤ 1)
    && decide (x.stack ≤ 6144) && x.stack % 16 == 0 && descField d 46 2 == 0 && (x.iolist == 0 || rimField x.iolist 16)
    && decide (x.iocnt ≤ 255) && (x.iolist != 0 || x.iocnt == 0) && descField d 76 4 == 0 && (x.crec == 0 || rimField x.crec 128)
    && x.cnote.extractLsb' 36 27 == 0#27 && descField d 96 32 == 0

/-- The launcher that CNOTE and FLAGS[0] name exists (reason 1). -/
def noticesLegal (s : State) (launcher : Option (Word × BitVec 32)) (x : GridDesc) : Bool :=
  let note := match launcher with
    | some (gid, _) => match s.grid? gid with
      | some g => decide (gangOf (x.cnote.setWidth 32) < g.desc.gcnt) && decide (rankOf (x.cnote.setWidth 32) < g.desc.gsz)
      | none => false
    | none => false
  (!x.cnote.getLsbD 63 || note) && (!x.flags.getLsbD 0 || launcher.isSome)

/-- Modules that MASK names, rising; 0 names the launching module alone. -/
def maskModules (s : State) (x : GridDesc) : List Nat :=
  if x.mask == 0 then [s.moduleNo] else (List.range 64).filter fun m => x.mask.getLsbD m

/-- Every module of MASK is in the pod and has a partner; other modules need their feature (reason 3). -/
def maskLegal (s : State) (vd : Nat) (x : GridDesc) : Bool :=
  (s.maskModules x).all fun m => m == s.moduleNo || (s.feature 4 && s.inPod m && (s.podPartner vd m).isSome)

/-! ### Acceptance (R335, R336, R346) -/

/-- The gangs of a grid that this module runs, [lo, hi), by the count of its table's block (R346). -/
def moduleRange (s : State) (k : Nat) (x : GridDesc) : Nat × Nat :=
  let ms := s.maskModules x
  let n := ms.length
  if ms == [s.moduleNo] then (0, x.gcnt)
  else match (List.range n).find? fun i => ms.getD i 64 == s.moduleNo with
    | none => (0, 0)
    | some i =>
      if x.gcnt < n then (min i x.gcnt, min (i + 1) x.gcnt)
      else
        let lo := if i = 0 then 0 else i + Config.podRange k 0 % (x.gcnt - n + 1)
        let most := x.gcnt - (n - 1 - i)
        let hi := if i + 1 = n then x.gcnt else lo + 1 + Config.podRange k 1 % (max 1 (most - lo))
        (lo, min hi most)

/-- The queue of a grid: its number, which the handle holds (R336), apart from the queues of other modules' home dispatchers (R335). -/
def gridQueue (s : State) (g : Grid) : Nat :=
  (g.handle.extractLsb' 32 16).toNat + (if s.homedAway (handleOf g.handle) then 256 * (1 + (g.handle.extractLsb' 48 6).toNat) else 0)

/-- Incomplete grids of a queue of a VD, in acceptance order. -/
def queueGrids (s : State) (vd q : Nat) : List Grid := s.grids.filter fun g => g.vd == vd && s.gridQueue g == q && !g.complete

/-- The next serial of a VD, and the one after (R336). -/
def nextSerial (s : State) (vd : Nat) : BitVec 32 := (Tab.get? s.serials vd).getD 1

/-- Capacities that the dispatcher gives a grid's skid queues and overflow rings, which fit the field of their headers (R255; log 12). -/
def capsOf (k : Nat) : Nat × Nat :=
  let cap (i : Nat) : Nat := max 1 (min (2 ^ 32 - 1) (Config.ringCap i))
  (cap (2 * k), cap (2 * k + 1))

/-- Bytes of a grid's residency table, headers and rings on this module. -/
def tableBytes (s : State) (k : Nat) (x : GridDesc) : Nat :=
  let r := s.moduleRange k x
  32 * x.gcnt + (r.2 - r.1) * (128 + 32 * ((capsOf k).1 + (capsOf k).2))

/-- Lay out the table, headers and rings of a grid in its block: all zero but the addresses and capacities (R257). -/
def writeTables (s : State) (k : Nat) (x : GridDesc) (base : Nat) : State :=
  let r := s.moduleRange k x
  let caps := capsOf k
  let per := 128 + 32 * (caps.1 + caps.2)
  let s := s.zeroRange (rimKey base) (s.tableBytes k x)
  (List.range (r.2 - r.1)).foldl (fun s i =>
    let e := base + 32 * (r.1 + i)
    let h := base + 32 * x.gcnt + per * i
    let s := (s.pokeN (rimKey (e + 16)) 8 h).pokeN (rimKey (e + 24)) 8 (h + 64)
    let s := (s.pokeN (rimKey h) 8 (h + 128)).pokeN (rimKey (h + 8)) 4 caps.1
    (s.pokeN (rimKey (h + 64)) 8 (h + 128 + 32 * caps.1)).pokeN (rimKey (h + 72)) 4 caps.2) s

/-- The I/O list of a grid (R333). -/
def parseIo (v n : Nat) : List IoRegion := (List.range n).map fun i =>
  { addr := BitVec.ofNat 64 (descField v (16 * i) 8), len := descField v (16 * i + 8) 4, output := descField v (16 * i + 12) 1 % 2 == 1 }

/-- A swap-region event, kind 9 of R455. -/
def swapRecord (s : State) (vd : Nat) (w0 : Word) (queue need cause gang : Nat) : State :=
  s.addRecord (.supervisor vd) (record256 [(0, 8, w0.toNat), (8, 2, queue), (10, 1, vd), (11, 1, 9), (12, 4, need),
    (16, 1, s.moduleNo), (17, 1, cause), (18, 2, gang)])

/-- A grid of a handle stands in the module's tables, its block laid out, its gangs of this module undealt. -/
def addGrid (s : State) (k : Nat) (g : Grid) (b : SwapBlock) : State :=
  let r := s.moduleRange k g.desc
  let g := { g with
    table := b.base, blocks := [b], lo := r.1, hi := r.2
    ranges := if r.1 < r.2 then [{ node := 260, lo := r.1, hi := r.2 }] else [], seedId := handleOf g.handle, seedFrom := s.mcrN 0x1018 8 }
  let s := s.writeTables k g.desc b.base
  { s with grids := s.grids ++ [g] }

/-- Enter an accepted grid: its serial, its tables, its range, its replay binding (R88, R335, R336). -/
def enterGrid (s : State) (k : Nat) (m : Msg) (launcher : Option (Word × BitVec 32)) (x : GridDesc) (io : List IoRegion) (b : SwapBlock) :
    Word × State :=
  let n := s.nextSerial m.vd
  let h : Word := n.setWidth 64 ||| BitVec.ofNat 64 (x.queue * 2 ^ 32 + s.moduleNo * 2 ^ 48)
  let bound := BitVec.ofNat 64 (s.vdN m.vd 72 8)
  let s := s.addGrid k { handle := gidOf m.vd h, vd := m.vd, desc := x, io := io, launcher := launcher
                         replay := if s.vdReplay m.vd then some bound else none } b
  let s := { s with serials := Tab.set s.serials m.vd (if n + 1 == 0#32 then 1 else n + 1) }
  (h, s.setMcrN (vdOff m.vd 72) 8 0)

/-! ### The answer to a LAUNCH (R252, R338, R415) -/

/-- A trigger LAUNCH stores its handle in its tile's pad; where the tile is away, the store goes after it as a message (R252). -/
def storeHandle (s : State) (m : Msg) (off : Nat) (v : Word) : State :=
  if s.issuerHere m && !(s.tile m.agent).sealed then s.store (tileKey m.agent off) 8 v.toNat
  else if s.issuerSaved m then
    s.postMsg { id := 0, kind := .handle off v, agent := m.agent, thread := m.thread, vtn := m.vtn, handle := m.handle, vd := m.vd,
                dest := m.vtn, mark := m.mark } false
  else s

/-- Deliver the handle, or the rejection value, of a LAUNCH; the rejection of a trigger's LAUNCH is reported (R254). -/
def answerLaunch (s : State) (m : Msg) (v : Word) : State :=
  let s := s.ackMsg m
  match m.queue with
  | some q =>
    match Tab.get? s.hostQueues q with
    | some (.launched r) => { s with hostQueues := Tab.set s.hostQueues q (.storing r v .stopped) }
    | _ => s
  | none =>
    if m.slot.isSome then
      let s := if v.getLsbD 63 then s.failMsg m 0x01 v else s
      match m.store with
      | some off => s.storeHandle m off v
      | none => s
    else match (s.thread m.agent m.thread).launching.find? fun l => l.2 == m.id with
      | some l =>
        -- the checkpoint of a speculating thread takes it too: LAUNCH issued before it (R232)
        let keep (sp : Spec) : Spec := if l.1.toNat < 32 && l.1 != 0 then { sp with g := vset sp.g l.1.toNat v } else sp
        (s.modThread m.agent m.thread fun t =>
          { t with launching := t.launching.filter (fun k => k.2 != m.id), spec := t.spec.map keep }).writeG m.agent m.thread l.1 v 1
      | none => s

/-- The rejection value of a reason (R336). -/
def rejection (reason : Nat) : Word := BitVec.ofNat 64 (2 ^ 63 + reason)

/-- The launcher of a LAUNCH message. -/
def launcherOf (m : Msg) : Option (Word × BitVec 32) := if m.queue.isSome then none else some (m.handle, m.vtn)

/-- A LAUNCH of a tile's thread: those of one tile to one queue reach the dispatcher in issue order (R335). -/
def fromTile (m : Msg) : Bool := m.slot.isNone && m.queue.isNone && !isCore m.agent

/-- The dispatcher may take a LAUNCH up: no earlier one of its tile is still to be checked, nor waits in the same queue (R335). -/
def launchTurn (s : State) (m : Msg) (queue : Option Nat) : Bool :=
  !s.net.any fun x => decide (x.id < m.id) && fromTile x && fromTile m && x.agent == m.agent && x.handle == m.handle && x.vtn == m.vtn
    && x.phase == .flight && match x.kind with
      | .launch _ => match x.checked with
        | some c => queue == some c.1.queue
        | none => true
      | _ => false

/-- A LAUNCH has reached the dispatcher: it has been checked, or its check waits. -/
def reached (m : Msg) : Bool := m.checked.isSome || m.hold.isSome

/-- A LAUNCH that has reached the dispatcher and waits: in a queue, or, while its check waits, in one that may be any of its VD (DEDUCED,
log 99). -/
def waitsIn (x : Msg) (vd queue : Nat) : Bool :=
  x.vd == vd && x.phase == .flight && reached x && match x.kind with
    | .launch _ => match x.checked with
      | some c => c.1.queue == queue
      | none => true
    | _ => false

/-- No LAUNCH that reached the dispatcher earlier waits in the queue (R335): those that wait stand in the order of their arrival. -/
def queueHead (s : State) (m : Msg) (queue : Nat) : Bool :=
  !(if reached m then s.net.takeWhile fun x => x.id != m.id else s.net).any fun x => x.id != m.id && waitsIn x m.vd queue

/-- A LAUNCH waits at the dispatcher: one that arrives now stands behind those that are there. -/
def standLaunch (s : State) (m m' : Msg) : State :=
  if reached m then s.modMsg m.id fun _ => m' else { s with net := (s.net.filter fun y => y.id != m.id) ++ [m'] }

/-- Mark a LAUNCH as waiting on its check. -/
def holdLaunch (s : State) (m : Msg) (p : Park) : State := s.standLaunch m { m with hold := some p }

/-- Take a LAUNCH that has been checked into its queue, or let it wait in its place for room there and in the swap region (R335). -/
def acceptLaunch (s : State) (m : Msg) (desc : Word) (x : GridDesc) (io : List IoRegion) : State :=
  let wait (m' : Msg) (s : State) : State := s.standLaunch m { m' with checked := some (x, io), hold := some .posted }
  let k := s.swapCount
  if !s.launchTurn m (some x.queue) || !s.queueHead m x.queue || 256 ≤ (s.queueGrids m.vd x.queue).length then wait m s
  else match s.allocSwap m.vd (s.tableBytes k x) with
    | none => if m.asked then wait m s else wait { m with asked := true } (s.swapRecord m.vd desc x.queue (s.tableBytes k x) 0 0)
    | some (b, s) =>
      let r := s.enterGrid k m (launcherOf m) x io b
      r.2.answerLaunch m r.1

/-- The halfwords of the pad image that the check reads (reason 4). -/
def probeImage (s : State) (q : Asker) (x : GridDesc) : Res Nat :=
  if x.imsz = 0 then .ok 0
  else match s.readRange q x.image 2 with
    | .error e => .error e
    | .ok _ => s.readRange q (x.image + BitVec.ofNat 64 (x.imsz - 2)) 2

/-- What the check has read of a grid's I/O list and pad image has gone through its leaves. -/
def usedImage (s : State) (q : Asker) (x : GridDesc) : State :=
  let s := s.usedRange q x.iolist (16 * x.iocnt)
  if x.imsz = 0 then s else (s.usedRange q x.image 2).usedRange q (x.image + BitVec.ofNat 64 (x.imsz - 2)) 2

/-- The module has too few sites for a gang of a size, or another module of MASK has: of those it is not known here, so it is free
(reason 2; log 1). -/
def tooBig (s : State) (vd : Nat) (x : GridDesc) : Bool :=
  decide ((s.poolOf vd).length < x.gsz)
    || ((s.maskModules x).any (fun m => m != s.moduleNo && s.inPod m && (s.podPartner vd m).isSome) && (Config.podData s.free).getLsbD 0)

/-- Check a LAUNCH at its home dispatcher, then accept or reject it (R334). -/
def checkLaunch (s : State) (m : Msg) (desc : Word) : State :=
  let sup := m.sup || isCore m.agent
  let own := match s.grid? m.handle with
    | some g => if isCore m.agent then 0 else g.desc.space
    | none => 0
  let reject (s : State) (n : Nat) : State := s.answerLaunch m (rejection n)
  match s.attempt m.hold (s.readRange (dispAsker m.vd own sup) desc 128) with
  | .bad _ _ => reject s 4
  | .wait p s' => s'.holdLaunch m p
  | .ok d =>
    let x := parseDesc d
    let q := dispAsker m.vd x.space sup
    let s := s.usedRange (dispAsker m.vd own sup) desc 128
    let t := { s with free := s.free + 1 }
    if !descLegal d || !s.noticesLegal (launcherOf m) x then reject s 1
    else if s.tooBig m.vd x then reject t 2
    else if !s.maskLegal m.vd x then reject s 3
    else match s.attempt none (s.readRange q x.iolist (16 * x.iocnt)) with
      | .bad _ _ => reject s 4
      | .wait p s' => s'.holdLaunch m p
      | .ok io => match s.attempt none (s.probeImage q x) with
        | .bad _ _ => reject s 4
        | .wait p s' => s'.holdLaunch m p
        | .ok _ => (t.usedImage q x).acceptLaunch m desc x (parseIo io x.iocnt)

/-! ### Status (R340) -/

def doneCount (g : Grid) : Nat := g.completed + g.cancelledRunning + g.neverStarted

/-- A status word from its fields. -/
def statusOf (state : Nat) (can lost : Bool) (done : Nat) : Word :=
  BitVec.ofNat 64 (state % 4 + (if can then 4 else 0) + (if lost then 8 else 0) + 2 ^ 32 * done)

/-- The status word of a grid; STATE 3 for an unknown handle. -/
def statusWord (g : Option Grid) : Word :=
  match g with
  | none => 3
  | some g => statusOf (if g.complete then 2 else if g.started then 1 else 0) g.cancelled g.lost (doneCount g)

/-- What its home dispatcher says of a grid, by a free value where other modules have a part in it: a grid homed elsewhere, or the
gangs on other modules before the grid is complete (log 1). -/
def statusBy (s : State) (h : Word) (g : Option Grid) (w : Word) : Word :=
  if s.homedAway h then match g with
    | none => statusOf (w.toNat % 4) (w.getLsbD 2) (w.getLsbD 3) (w.toNat / 2 ^ 32)
    | some g =>
      -- its gangs here: while they run, the grid is not complete (R178)
      let n := g.desc.gcnt - (g.hi - g.lo)
      if g.complete then statusOf 2 (g.cancelled || w.getLsbD 2) (g.lost || w.getLsbD 3) g.desc.gcnt
      else statusOf (if g.started || w.getLsbD 0 then 1 else 0) (g.cancelled || w.getLsbD 2) (g.lost || w.getLsbD 3) (doneCount g + w.toNat / 2 ^ 32 % (n + 1))
  else match g with
    | none => 3
    | some g =>
      let n := g.desc.gcnt - (g.hi - g.lo)
      if g.complete || g.joined || n = 0 then statusWord (some g)
      else statusOf (if g.started || w.getLsbD 0 then 1 else 0) g.cancelled g.lost (doneCount g + w.toNat / 2 % (n + 1))

/-- A re-run of a cruise audit (R368). -/
def inRerun (s : State) (a : Nat) : Bool := (s.tile a).mark != .original

/-! ### Cancellation (R359, R360) -/

/-- Gangs that will never start: NST is set in their entries, and they are counted. -/
def neverStart (s : State) (gid : Word) (l : List Nat) : State :=
  (l.foldl (fun s i => s.modEntry gid i setNst) s).modGrid gid fun g => { g with neverStarted := g.neverStarted + l.length }

/-- Every undealt and unstarted gang of a grid on this module. -/
def unstarted (g : Grid) : List Nat := g.ranges.flatMap fun r => (List.range (r.hi - r.lo)).map (r.lo + ·)

/-- A run of an audit leaves the machine: its tiles, its images, its overlay, and what is under way for it. -/
def dropRun (s : State) (r : Gang) : State :=
  let s := (((s.clearSites r).freeSwap r.skipBlock).freeSwap r.imageBlock).dropOverlay r.handle r.index r.mark
  let mine (h : Word) (i : Nat) (m : RunMark) : Bool := h == r.handle && i == r.index && m == r.mark
  { s with
    gangs := s.gangs.filter fun g => !mine g.handle g.index g.mark
    heldReports := s.heldReports.filter fun h => !mine h.gid (gangOf h.vtn) h.mark
    copyRest := s.copyRest.filter fun c => !mine c.gid (gangOf c.vtn) c.mark
    net := s.net.filter fun m => !(m.parked && mine m.handle (gangOf m.dest) m.mark)
    links := s.links.filter fun l => !(l.handle == r.handle && l.gang == runNo r) }

/-- The cancellation of a grid is accepted: nothing more of it is dealt, and its audits end, reason 5 (R359, R370). -/
def acceptCancel (s : State) (g : Grid) : State :=
  let s := s.neverStart g.handle (unstarted g)
  let s := s.modGrid g.handle fun g => { g with cancelled := true, ranges := [] }
  let s := (s.gangs.filter fun r => r.handle == g.handle && r.mark != RunMark.original).foldl State.dropRun s
  s.endAudits (fun a => a.handle == g.handle) 5

/-- The yard a gang stands in, or last stood in. -/
def yardOf (g : Gang) : Nat := (if g.sites.isEmpty then g.history.getLast?.getD 0 else g.sites.headD 0) / 256

/-- A cancelled gang retires without being restored: some tile of it is stopped, or loaded and not to run yet, so its threads cannot take the trap, and none is on
its way there (R359, R391, R393). -/
def cancelRetires (s : State) (g : Gang) : Bool :=
  g.cancelTrap && !(g.sites.any fun a => s.siteState a == .stopping)
    && (!g.saved.isEmpty || g.sites.any fun a => s.siteState a == .stopped || s.siteState a == .loaded)

/-- Discard a gang's skid records: HEAD catches up with TAIL. -/
def discardSkid (s : State) (gid : Word) (i : Nat) : State :=
  let hdr := s.skidHdr gid i
  s.store (rimKey (hdr + 24)) 8 (s.ringTail hdr)

/-- An outside trap reaches a thread. Outside a handler its waiting instruction ends so that it stands at a boundary, unless the
completion of its barrier is decided and comes first (R385, R460). -/
def pressThread (s : State) (a th : Nat) : State :=
  let t := s.thread a th
  if !t.live || t.ten then s
  else match t.spec with
    | some sp =>
      if s.isDecided a th sp.bar then s
      else ((s.rollBack a th).withdrawArrival a th).modThread a th fun t => { t with park := none }
    | none => match t.park with
      | some .draining | some (.half _) => s
      | some (.pod _) => if recallable t then s.withdraw a th else s
      | none =>
        -- a waiter that stands restored and has not issued its chain again (R460)
        let w := vget (s.tile a).barWait th {}
        if w.kind == 0#2 || s.isDecided a th w.ident.toNat then s else s.withdrawArrival a th
      | some (.tstop b _) => if s.tstopActed a th b then s else s.withdraw a th
      | some .sleep => s.finishThread a th
      | some .matrixOwn => s.stopMatrix a th
      | some (.barrier b) => if s.isDecided a th b then s else (s.withdrawArrival a th).withdraw a th
      | some _ => s.withdraw a th

/-- The cancellation reaches one gang (R359). One that has not begun never started, though its sites are RUNNING (DEDUCED, log 84). -/
def cancelGang (s : State) (g : Gang) : State :=
  match g.phase with
  | .retired | .neverStarted => s
  | .swappedOut =>
    if !g.begun then
      let s := (s.discardSkid g.handle g.index).freeSwap g.imageBlock
      let s := s.modRun g.handle g.index .original fun g => { g with phase := .neverStarted, imageBlock := none }
      (s.neverStart g.handle [g.index]).clearTileFault g.handle g.index
    else
    let s := (s.discardSkid g.handle g.index).freeSwap g.imageBlock
    let s := (s.modEntry g.handle g.index setRet).clearTileFault g.handle g.index
    let s := s.modRun g.handle g.index .original fun g => { g with phase := .retired, imageBlock := none, cancelTrap := true }
    s.modGrid g.handle fun x => { x with cancelledRunning := x.cancelledRunning + 1 }
  | .resident | .stopping =>
    if !g.begun then
      let s := (s.clearSites g).freeSwap g.skipBlock
      let s := s.modRun g.handle g.index .original fun g => { g with phase := .neverStarted, sites := [], skipBlock := none }
      s.neverStart g.handle [g.index]
    else
      let s := s.modRun g.handle g.index .original fun g => { g with cancelTrap := true }
      match (s.gang? g.handle g.index).filter s.cancelRetires with
      | some g => s.retireGang g
      | none =>
        -- the trap reaches the live threads; the reservations they hold are revoked as for a pre-emption (R204, R359)
        g.sites.foldl (fun s a => [0, 1, 2, 3].foldl (fun s th =>
          if (s.thread a th).live then (s.modThread a th fun t => { t with cancelPending := true }).pressThread a th else s)
            (s.modSite a fun x => if x.stopBy.isNone then { x with stopAt := x.cyc } else x)) s

/-! ### Completion (R355-R358) -/

/-- Every gang of this module has ended, and nothing of the grid is under way (R355). -/
def gridDrained (s : State) (g : Grid) : Bool :=
  g.ranges.isEmpty && (g.joined || decide (doneCount g = g.hi - g.lo))
    && !(s.net.any fun m => m.handle == g.handle && m.phase == .flight && m.mark == .original)

/-- A gang of another module, by a number. -/
def remoteGang (g : Grid) (n : Nat) : Nat :=
  let i := n % max 1 (g.desc.gcnt - (g.hi - g.lo))
  if i < g.lo then i else i + (g.hi - g.lo)

/-- A fault that another module has counted, by two free values (R357). -/
def remoteFault (s : State) (g : Grid) (w v : Word) : GridFault :=
  let ms := (s.maskModules g.desc).filter fun m => m != s.moduleNo
  { vtn := BitVec.ofNat 32 (remoteGang g (w.toNat / 2 ^ 32) * 65536 + w.toNat % 65536 % g.desc.gsz)
    thread := if w.getLsbD 18 then 0xFF else BitVec.ofNat 8 (w.toNat / 2 ^ 16 % 4)
    cause := BitVec.ofNat 8 (w.toNat / 2 ^ 20 % 16), module := BitVec.ofNat 16 (ms.getD (w.toNat / 2 ^ 24 % 64 % max 1 ms.length) 0), value := v }

/-- The failed read of the pad image by another module's dispatcher (R350, R357). -/
def remoteImageFault (s : State) (g : Grid) (w v : Word) : GridFault :=
  { s.remoteFault g w v with vtn := 0xFFFFFFFF, thread := 0xFF, cause := if w.getLsbD 20 then 0x05 else if w.getLsbD 21 then 0x06 else 0x0A }

/-- The gangs of a grid that some module has lost with certainty: all the other modules' where each of those has left the pod, else one at
least for each that has (R346, R358). -/
def lostGangs (s : State) (g : Grid) : Nat :=
  let n := g.desc.gcnt - (g.hi - g.lo)
  let ms := s.maskModules g.desc
  let out := (List.range ms.length).filter fun i => i < g.desc.gcnt && ms.getD i 0 != s.moduleNo && !s.inPod (ms.getD i 0)
  if out.length + 1 = ms.length then n else min n out.length

/-- How the gangs on other modules ended, and the faults counted there: free, but of the right number. Those of a lost module have not
completed, and where another module's read of the pad image has failed none of its gangs has started (R350, R357, R358; log 1). -/
def addRemote (s : State) (g : Grid) : State :=
  let n := g.desc.gcnt - (g.hi - g.lo)
  let w (k : Nat) : Word := Config.podData (s.free + k)
  let image := 0 < n - s.lostGangs g && (w 27).getLsbD 0
  let most := n - s.lostGangs g - (if image then 1 else 0)
  let lost := g.lost || 0 < s.lostGangs g
  let c := if g.cancelled || lost || image then (w 0).toNat % (most + 1) else n
  let b := if g.cancelled || lost then (w 1).toNat % (n - c + 1 - (if image then 1 else 0)) else 0
  let failed := s.remoteImageFault g (w 28) (w 29)
  let faults := (if image then [failed] else []) ++ (List.range ((w 2).toNat % 5)).map fun i => s.remoteFault g (w (3 + 2 * i)) (w (4 + 2 * i))
  if n = 0 || g.joined then s.modGrid g.handle fun g => { g with joined := true }
  else { s with free := s.free + 30 }.modGrid g.handle fun g => { g with
    lost := lost, completed := g.completed + c, cancelledRunning := g.cancelledRunning + b, neverStarted := g.neverStarted + (n - c - b), joined := true
    counts := Vector.ofFn fun i => BitVec.ofNat 16 (min 0xFFFF ((vget g.counts i.val 0).toNat
      + max (if image && failed.cause.toNat = i.val then 1 else 0) ((w (11 + i.val)).toNat % 65536)))
    firsts := faults.foldl (fun l f => (insertFault f l).take 4) g.firsts }

/-- The completion record, 128 bytes. -/
def completionRecord (g : Grid) : Nat :=
  let fields : List (Nat × Nat × Nat) :=
    [(0, 4, g.desc.gcnt), (4, 4, g.desc.gsz), (8, 4, g.completed), (12, 4, g.cancelledRunning), (16, 4, g.neverStarted),
     (20, 2, 1 + (if g.cancelled then 2 else 0) + (if g.lost then 4 else 0) + 8 * g.firsts.length)]
    ++ (List.range 16).map (fun i => (24 + 2 * i, 2, (vget g.counts i 0).toNat))
    ++ (List.range g.firsts.length).flatMap fun i => let f := g.firsts.getD i ⟨0, 0, 0, 0, 0⟩
      [(56 + 16 * i, 4, f.vtn.toNat), (60 + 16 * i, 1, f.thread.toNat), (61 + 16 * i, 1, f.cause.toNat), (62 + 16 * i, 2, f.module.toNat),
       (64 + 16 * i, 8, f.value.toNat)]
  fields.foldl (fun r f => r + f.2.2 % 2 ^ (8 * f.2.1) * 2 ^ (8 * f.1)) 0

/-- Increment a counter of a virtual tile of a grid as a notice: parked for an absent gang, discarded for a retired one. -/
def noticeCounter (s : State) (gid : Word) (v : BitVec 32) (k : Nat) : Option State :=
  match s.grid? gid with
  | none => some s
  | some g =>
    let e := s.residency g (gangOf v)
    -- a launcher on another module gets it there (R346)
    if gangOf v < g.lo || g.hi ≤ gangOf v then some s
    else if g.complete || resRet e || resNst e then some s
    else if (s.gang? gid (gangOf v)).any fun x => x.retiredRanks.contains (rankOf v) then some s
    else match (s.gang? gid (gangOf v)).bind fun x => x.sites[rankOf v]? with
      | some b => if s.hasTile b && (s.tile b).vtn == v && !(s.tile b).sealed then some (s.addCounter b k 1)
        else s.skidAppend gid (gangOf v) (skidRecord 8 k 0 (rankOf v) 0xFFFFFFFF#32 1 0)
      | none => s.skidAppend gid (gangOf v) (skidRecord 8 k 0 (rankOf v) 0xFFFFFFFF#32 1 0)

/-- The event of kind 3 to the launching tile; one that is off the wafer gets it with its image. -/
def noticeEvent (s : State) (launcher : Option (Word × BitVec 32)) (h : Word) : State :=
  let e : EventRec := ⟨3, h⟩
  match launcher with
  | none => s
  | some (gid, v) =>
    if gid == 0 then s.enterEvent (65536 + v.toNat % 16) e
    else match s.gang? gid (gangOf v) with
      | some g => if g.retiredRanks.contains (rankOf v) then s else match g.sites[rankOf v]? with
        | some b => s.enterEvent b e
        | none => if g.phase == .swappedOut then { s with heldReports := s.heldReports ++ [HeldReport.mk gid v .original e] } else s
      | none => s

/-- Release every GWAIT on a grid with its status word (R340). -/
def releaseGwait (s : State) (gid w : Word) : State :=
  s.tiles.foldl (fun s p => [0, 1, 2, 3].foldl (fun s th => match (s.thread p.1 th).park with
    | some (.grid h x) => if h == gid then (s.writeG p.1 th x w 1).finishThread p.1 th else s
    | _ => s) s) s

/-- Keep the last 4,096 completed grids of a VD, and those that an audit still needs (R336). -/
def pruneGrids (s : State) (vd : Nat) : State :=
  let old := (s.completed vd).drop 4096
  let needed (g : Grid) : Bool := g.holds || s.audits.any fun a => a.handle == g.handle
  { s with grids := s.grids.filter fun g => !(old.any fun x => x.handle == g.handle) || needed g }

/-- The grid is complete: it stands last, its swap space is freed, and its gangs are gone. -/
def endGrid (s : State) (g : Grid) : State :=
  let mine (x : Grid) : Bool := x.handle == g.handle
  let done (x : Grid) : Grid := { x with complete := true, blocks := [] }
  let s := { s with grids := (s.grids.filter fun x => !mine x) ++ (s.grids.filter mine).map done }
  let s := g.blocks.foldl (fun s b => s.freeSwap (some b)) s
  { s with gangs := s.gangs.filter fun x => !(x.handle == g.handle && x.mark == RunMark.original) }

/-- The notices of a grid's completion go out in order (R356); none while the increment of CNOTE's counter waits for room. -/
def closeGrid (s : State) (g : Grid) : Option State :=
  let note := match g.launcher with
    | some (gid, _) => if g.desc.cnote.getLsbD 63 then s.noticeCounter gid (g.desc.cnote.setWidth 32) (g.desc.cnote.extractLsb' 32 4).toNat else some s
    | none => some s
  note.map fun s =>
    let s := if g.desc.flags.getLsbD 0 then s.noticeEvent g.launcher (handleOf g.handle) else s
    let s := s.endGrid g
    (s.releaseGwait g.handle (statusWord (s.grid? g.handle))).pruneGrids g.vd

end State

/-! ### Meanings -/

/-- Rules of the gang instructions (R337). -/
def gangRules : Op.Rules := { held := true }

/-- LAUNCH (R338); a re-run's is not performed and returns 1 << 63 (R368). -/
def execLaunch (c : Chain) (x : RegNum) (s : State) : Host.Outcome State Fault Refusal :=
  issue { held := true, drained := true } c s do
    Op.need [.g x] [.g x]
    outbound
    let d ← Op.readG x
    Op.require (State.tagOf d == 4 && s.addressOk s.cur.1 s.cur.2 d 8 Use.load) 0x03 d
    Op.require (aligned d 128) 0x04 d
    let s ← get
    let a := s.cur.1
    if s.inRerun a then Op.writeG x (State.rejection 0)
    else do
      let t := s.myTile
      let id := s.nextMsg
      set (s.postMsg { id := 0, kind := .launch d, agent := a, thread := s.cur.2, vtn := t.vtn, handle := t.handle, vd := s.vdOf a, sup := s.me.sup } true)
      modify fun s => s.modMe fun t => { t with launching := t.launching ++ [(x, id)] }
    Op.retire c

/-- CANCEL (R339) asks the home dispatcher; a re-run's is not performed, and its answer is not stated (R368; log 28). -/
def execCancel (c : Chain) (x : RegNum) (s : State) : Host.Outcome State Fault Refusal :=
  issue gangRules c s do
    Op.need [.g x] [.g x]
    let h ← Op.readG x
    let s ← get
    if s.inRerun s.cur.1 then do
      modify fun s => { s with free := s.free + 1 }
      Op.writeG x (Config.openValue s.free)
      Op.retire c
    else
      let known := (s.lookupGrid (s.vdOf s.cur.1) h).isSome || s.homedAway h
      parkClaim c (.dispatcher (if known then State.gidOf (s.vdOf s.cur.1) h else BitVec.allOnes 64) x) x id

/-- GWAIT (R340); whether another module's home dispatcher knows a handle is free (log 1). -/
def execGwait (c : Chain) (x : RegNum) (s : State) : Host.Outcome State Fault Refusal :=
  issue gangRules c s do
    Op.need [.g x] [.g x]
    let h ← Op.readG x
    let s ← get
    let vd := s.vdOf s.cur.1
    let free := Config.podData s.free
    if s.inRerun s.cur.1 then do Op.writeG x 3; Op.retire c
    else if s.homedAway h then do
      modify fun s => { s with free := s.free + 1 }
      if free.getLsbD 63 then do Op.writeG x 3; Op.retire c
      else parkClaim c (.grid (State.gidOf vd h) x) x id
    else match s.lookupGrid vd h with
      | none => do Op.writeG x 3; Op.retire c
      | some g =>
        if g.complete then do Op.writeG x (State.statusWord (some g)); Op.retire c
        else parkClaim c (.grid g.handle x) x id

/-- GQRY (R340). -/
def execGqry (c : Chain) (x y : RegNum) (s : State) : Host.Outcome State Fault Refusal :=
  issue gangRules c s do
    Op.need [.g y] [.g x]
    let h ← Op.readG y
    let s ← get
    if s.inRerun s.cur.1 then Op.writeG x 3
    else do
      set { s with free := s.free + 1 }
      Op.writeG x (s.statusBy h (s.lookupGrid (s.vdOf s.cur.1) h) (Config.podData s.free))
    Op.retire c

/-- SPAWN (R341): Y is read first. -/
def execSpawn (c : Chain) (x y : RegNum) (s : State) : Host.Outcome State Fault Refusal :=
  issue { held := true, drained := true } c s do
    Op.need [.g y, .g x] [.g x]
    let w ← Op.readG y
    let e ← Op.readG x
    let s ← get
    let r := s.spawnOn s.cur.1 e w
    set r.2
    Op.writeG x (BitVec.ofNat 64 r.1)
    Op.retire c

/-! ### Events -/

/-- LAUNCH_ACCEPT (R334, R335). -/
def execLaunchAccept (msg : Nat) (s : State) : Host.Outcome State Fault Refusal :=
  match s.msg? msg with
  | none => .next s
  | some m =>
    match m.kind with
    | .launch d => match m.checked with
      | some c => .next (s.acceptLaunch m d c.1 c.2)
      | none => if m.phase == .flight && s.launchTurn m none then .next (s.checkLaunch m d) else .next s
    | _ => .next s

/-- CANCEL_ACCEPT (R339, R359, R360): the home dispatcher answers a waiting CANCEL. The answer of another module's is free, but for
what is known here of the grid; with 0 it takes effect on this module too (log 1). -/
def execCancelAccept (agent thread : Nat) (s : State) : Host.Outcome State Fault Refusal :=
  match (s.thread agent thread).park with
  | some (.dispatcher gid x) =>
    let answer (s : State) (n : Nat) : State := (s.writeG agent thread x (BitVec.ofNat 64 n) 1).finishThread agent thread
    let away := gid != BitVec.allOnes 64 && s.homedAway (State.handleOf gid)
    let n := (Config.podData s.free).toNat % 4
    let s := if away then { s with free := s.free + 1 } else s
    match s.grid? gid with
    | none => .next (answer s (if away then n else 2))
    | some g =>
      if g.complete || g.joined then .next (answer s 1)
      else if g.cancelled then .next (answer s 3)
      else if away && n != 0 then .next (answer s n)
      else .next (answer (s.acceptCancel g) 0)
  | _ => .next s

/-- CANCEL_REACH_YARD (R359). Of a grid homed on another module, the first also tells this module of the cancellation. -/
def execCancelReachYard (handle : Word) (yard : Nat) (s : State) : Host.Outcome State Fault Refusal :=
  match s.grid? handle with
  | none => .next s
  | some g =>
    let away := s.homedAway (State.handleOf handle)
    let s := if away && !g.cancelled && !g.complete then s.acceptCancel g else s
    if !(g.cancelled || (away && !g.complete)) then .next s
    else
      let s := s.modGrid handle fun g => { g with reached := NSet.insert g.reached yard }
      let here := s.gangs.filter fun x => x.handle == handle && x.mark == RunMark.original && State.yardOf x == yard && !x.cancelTrap
      .next (here.foldl State.cancelGang s)

/-- TILE_RETIRE (R344): the tile, and with its last tile the gang. -/
def execTileRetire (agent : Nat) (s : State) : Host.Outcome State Fault Refusal :=
  match s.gangOfTile agent with
  | none => .next s
  | some g =>
    let r := State.rankOf (s.tile agent).vtn
    if !s.hasTile agent || s.siteState agent != .running || g.phase != .resident || g.retiredRanks.contains r || s.tileHeld agent || !s.tileDone agent
    then .next s
    else
      let s := s.retireTile agent
      match s.gangOfTile agent with
      | some g => if g.sites.length ≤ g.retiredRanks.length then .next (s.retireGang g) else .next s
      | none => .next s

/-- A grid homed on another module has completed there: what GWAIT reads is free, but for its STATE; its record and its notices are not
this module's (log 1). -/
def gridCompleteAway (handle : Word) (s : State) : State :=
  let w := (s.statusBy (State.handleOf handle) none (Config.podData s.free) &&& ~~~3#64) ||| 2
  let s := { s with free := s.free + 1 }
  match s.grid? handle with
  | none => s.releaseGwait handle w
  | some g =>
    if g.complete then s.releaseGwait handle w
    else if s.gridDrained g then ((s.endGrid g).releaseGwait handle w).pruneGrids g.vd
    else s

/-- GRID_COMPLETE (R355, R356): the record is written, then the notices go out. -/
def execGridComplete (handle : Word) (s : State) : Host.Outcome State Fault Refusal :=
  if s.homedAway (State.handleOf handle) then .next (gridCompleteAway handle s)
  else match s.grid? handle with
    | none => .next s
    | some g =>
      if g.complete || !s.gridDrained g then .next s
      else
        let s := s.addRemote g
        match s.grid? handle with
        | none => .next s
        | some g =>
          let close (s : State) : Host.Outcome State Fault Refusal :=
            let s := s.modGrid handle fun g => { g with recorded := true }
            .next ((s.closeGrid g).getD s)
          if g.desc.crec == 0 || g.recorded then close s
          else match s.attempt g.recHold (s.writeRange (State.dispAsker g.vd g.desc.space false) g.desc.crec 128 (State.completionRecord g)) with
            | .ok s' => close s'
            | .wait p s' => .next (s'.modGrid handle fun g => { g with recHold := some p })
            | .bad cause _ =>
              close (s.addRecord (.supervisor g.vd) (record256 [(0, 8, g.desc.crec.toNat), (8, 1, cause.toNat), (10, 1, g.vd), (11, 1, 13),
                (16, 8, (State.handleOf handle).toNat)]))

/-- MODULE_LEAVE_POD (R358, R419): the grids that span a module which is in the pod no more have lost it. -/
def execModuleLeavePod (module : Nat) (s : State) : Host.Outcome State Fault Refusal :=
  if s.inPod module then .next s
  else .next { s with
    grids := mapIf (fun g => !g.complete && g.desc.mask.getLsbD module) (fun g => { g with lost := true }) s.grids }

end Sys2Proof.Machine
end

