-- ==== Sys2Proof/Machine/Sched.lean ====
section
/-! DEFINITION. The gang scheduler: dealing (R346-R348), starting (R349-R351), swapping (R24-R26, R352-R354, R392, R393), the
watchdog (R407) and the gang-stall detector (R264). -/

namespace Sys2Proof.Machine
namespace State

/-! ### Names of runs -/

/-- The mark in an event's gang number: a re-run adds 65,536, a third run 131,072. -/
def markOf (n : Nat) : RunMark := if n / 65536 = 0 then .original else if n / 65536 = 1 then .rerun else .third
/-- The run that an event names. -/
def runOf (s : State) (gid : Word) (n : Nat) : Option Gang := s.run? gid (n % 65536) (markOf n)

/-! ### Priorities and turns (R25, R351-R354) -/

/-- PRI and WEIGHT of a queue are those of its oldest incomplete grid (R25, R352). -/
def queuePri (s : State) (vd q : Nat) : Nat := ((s.queueGrids vd q).head?.map fun g => g.desc.pri).getD 0
def queueWeight (s : State) (vd q : Nat) : Nat := max 1 (((s.queueGrids vd q).head?.map fun g => g.desc.weight).getD 1)
def queueService (s : State) (vd q : Nat) : Nat := (Tab.get? s.service (vd * 65536 + q)).getD 0

/-- The queue of a run's grid. -/
def runQueue (s : State) (r : Gang) : Nat := ((s.grid? r.handle).map s.gridQueue).getD 0

/-- A run's priority: its queue's, and 0 for a cruise re-run (R26). -/
def runPri (s : State) (r : Gang) : Nat := if r.mark == .original then s.queuePri r.vd (s.runQueue r) else 0

/-- A run's place in the starting order of R351. -/
def runOrder (s : State) (r : Gang) : Nat := (s.grids.findIdx fun g => g.handle == r.handle) * 65536 + r.index

/-- A swapped-out gang that is ready (R354). -/
def swappedReady (vd : Nat) (r : Gang) : Bool :=
  r.vd == vd && r.phase == .swappedOut && !r.dormant && r.mark == .original

/-- A gang of a queue is ready: swapped out and not dormant, or not yet started. -/
def queueReady (s : State) (vd q : Nat) : Bool :=
  (s.queueGrids vd q).any fun g => !g.ranges.isEmpty || s.gangs.any fun r => r.handle == g.handle && swappedReady vd r

/-- Queues of a VD with a ready gang. -/
def readyQueues (s : State) (vd : Nat) : List Nat :=
  ((s.grids.filter fun g => g.vd == vd && !g.complete).map s.gridQueue).eraseDups.filter (s.queueReady vd)

/-- Queue `q` is served before queue `r`: higher priority, then less service for its weight, then the lower number (R25). -/
def queueBefore (s : State) (vd q r : Nat) : Bool :=
  let x := s.queueService vd q * s.queueWeight vd r
  let y := s.queueService vd r * s.queueWeight vd q
  decide (s.queuePri vd r < s.queuePri vd q)
    || (s.queuePri vd q == s.queuePri vd r && (decide (x < y) || (x == y && decide (q ≤ r))))

/-- Freed sites are dealt to a queue. -/
def queueTurn (s : State) (vd q : Nat) : Bool := (s.readyQueues vd).all (s.queueBefore vd q)

/-- No ready swapped-out gang has to be placed before an undealt gang of a queue (R354). -/
def swappedFirst (s : State) (vd q : Nat) : Bool :=
  s.gangs.any fun r => swappedReady vd r && decide (s.queuePri vd q ≤ s.runPri r)

/-- The starting order of R351: every earlier gang of the queue on this module has started or been cancelled. -/
def mayStart (s : State) (g : Grid) (i : Nat) : Bool :=
  ((s.queueGrids g.vd (s.gridQueue g)).takeWhile fun x => x.handle != g.handle).all (fun x => x.ranges.isEmpty)
    && g.ranges.all fun r => i ≤ r.lo

/-! ### Ranges (R347) -/

/-- The range of a grid that holds a gang. -/
def rangeOf (g : Grid) (i : Nat) : Option DealRange := g.ranges.find? fun r => r.lo ≤ i && i < r.hi

/-- Remove the first gang of a range. -/
def dropFirst (i : Nat) (r : DealRange) : Option DealRange :=
  if r.lo = i then (if r.lo + 1 < r.hi then some { r with lo := r.lo + 1 } else none) else some r

/-- The lowest range at a node. -/
def lowestAt (l : List DealRange) (node : Nat) : Option DealRange :=
  (l.filter fun r => r.node == node).foldl (fun b r => match b with
    | some x => if r.lo < x.lo then some r else some x
    | none => some r) none

/-- Hand up to `n` of the lowest undealt gangs of a node to a child. -/
def dealOut (l : List DealRange) (node child n : Nat) : List DealRange :=
  match lowestAt l node with
  | none => l
  | some r =>
    let cut := min r.hi (r.lo + n)
    if n = 0 then l
    else (l.filter fun x => x != r) ++ (if cut < r.hi then [{ r with lo := cut }] else []) ++ [{ node := child, lo := r.lo, hi := cut }]

/-- The children of a dispatcher, in ascending order. -/
def childrenOf (node : Nat) : List Nat :=
  if node = 260 then [256, 257, 258, 259]
  else if 256 ≤ node && node < 260 then (List.range 64).map (64 * (node - 256) + ·) else []

/-- Free working sites under a dispatcher. -/
def freeUnder (s : State) (vd node : Nat) : Nat :=
  let p := s.nodePart vd node
  ((List.range (p.2 - p.1)).filter fun i => s.placeable (p.1 + i)).length

/-- A gang of a size can be placed by a dispatcher, or by one below it. -/
def canPlace (s : State) (vd node gsz : Nat) : Bool :=
  let here (n : Nat) : Bool := let p := s.nodePart vd n; (s.place [] p.1 p.2 gsz).isSome
  if placesAt node gsz then here node
  else (childrenOf node).any fun c => if placesAt c gsz then here c else (childrenOf c).any here

/-- What a round hands to one child: nothing to one that is withheld or has no free site, else at least one gang where the child can
place it (R347; log 13). -/
def shareOf (s : State) (vd child gsz k : Nat) : Nat :=
  if s.withheld.contains child || s.freeUnder vd child = 0 then 0
  else max (if s.canPlace vd child gsz then 1 else 0) (Config.dealShare s.free k)

/-- Free words as one number. -/
def freeNumber (k : Nat) : Nat → Nat
  | 0 => 0
  | n + 1 => (Config.podData k).toNat + 2 ^ 64 * freeNumber (k + 1) n

/-- A grid stands among those of its queue in the order of acceptance: a later serial of the queue comes behind it (R336, R351). -/
def inAcceptance (s : State) (g : Grid) : State :=
  let later (x : Grid) : Bool := x.vd == g.vd && s.gridQueue x == s.gridQueue g && x.handle != g.handle && g.handle.extractLsb' 0 32 < x.handle.extractLsb' 0 32
  let rest := s.grids.filter fun x => x.handle != g.handle
  { s with grids := rest.takeWhile (fun x => !later x) ++ (s.grids.filter fun x => x.handle == g.handle) ++ rest.dropWhile fun x => !later x }

/-- A grid homed on another module deals this module its range (R346): the descriptor and the I/O list that come with it are free, but
legal and of the handle's queue, and so is the replay binding that it was launched with (R88); it waits while the swap region lacks room
(log 1). -/
def dealtHere (s : State) (gid : Word) : State :=
  let vd := (gid.extractLsb' 54 8).toNat
  let home := (gid.extractLsb' 48 6).toNat
  let d := freeNumber s.free 16
  let x := { parseDesc d with queue := (gid.extractLsb' 32 16).toNat }
  let k := s.swapCount
  let binding := Config.podData (s.free + 16)
  let replay := if (Config.podData (s.free + 17)).getLsbD 0 then some binding else none
  let io := parseIo (freeNumber (s.free + 18) (2 * x.iocnt)) x.iocnt
  let s := { s with free := s.free + 18 + 2 * x.iocnt }
  if !s.homedAway (handleOf gid) || gid.getLsbD 63 || gid.getLsbD 62 || !s.inPod home || (s.podPartner vd home).isNone || !s.vdActive vd || !descLegal d
    || 255 < x.queue || gid.extractLsb' 0 32 == 0#32
    || !s.maskLegal vd x || !(s.maskModules x).contains s.moduleNo
  then s
  else match s.allocSwap vd (s.tableBytes k x) with
    | none => s
    | some (b, s) =>
      let g : Grid := { handle := gid, vd := vd, desc := x, io := io, replay := replay }
      (s.addGrid k g b).inAcceptance g

/-- One dealing round of a dispatcher. -/
def dealRound (s : State) (g : Grid) (node : Nat) : State :=
  let cs := childrenOf node
  let shares := (cs.zip (List.range cs.length)).map fun p => (p.1, s.shareOf g.vd p.1 g.desc.gsz p.2)
  let l := shares.foldl (fun l p => dealOut l node p.1 p.2) g.ranges
  { s with free := s.free + 1 }.modGrid g.handle fun g => { g with ranges := l }

/-! ### Placement outside dealing -/

/-- The dispatchers that place gangs of a size, lowest first. -/
def placersOf (gsz : Nat) : List Nat := if gsz ≤ 256 then List.range 256 else if gsz ≤ 16384 then [256, 257, 258, 259] else [260]

/-- Sites for a gang that is not dealt, one restored or a re-run: the lowest dispatcher of its level that can place it (R17; log 29). -/
def placeAny (s : State) (vd : Nat) (avoid : List Nat) (gsz : Nat) : Option (List Nat) :=
  (placersOf gsz).findSome? fun n => let p := s.nodePart vd n; s.place avoid p.1 p.2 gsz

/-! ### The re-runs' share (R26) -/

/-- The sites a waiting run of an audit must not share, and its mark. -/
def auditAvoid (x : Audit) : List Nat := if x.second.isSome then x.firstSites ++ x.secondSites else x.firstSites
def auditMark (x : Audit) : RunMark := if x.second.isSome then .third else .rerun

/-- The re-runs of a VD have received less than 1 % of the window's site-cycles (R26). -/
def rerunShort (s : State) (vd : Nat) : Bool :=
  decide (100 * (Tab.get? s.rerunService vd).getD 0 < (Tab.get? s.rerunWindow vd).getD 0)

/-- The oldest audit of a VD whose run waits for sites: not yet placed, or swapped out and ready (R26). -/
def oldestRerun (s : State) (vd : Nat) : Option Audit := s.audits.find? fun x => x.vd == vd
  && (!x.placed || (s.run? x.handle x.gang (auditMark x)).any fun r => r.phase == .swappedOut && !r.dormant)

/-- Priority 0 has its turn, or the reserved share is owed (R26). -/
def rerunTurn (s : State) (vd : Nat) : Bool := s.rerunShort vd || (s.readyQueues vd).all fun q => s.queuePri vd q == 0

/-! ### Starting a gang (R349, R350) -/

/-- Bytes of a number as cells. -/
def cellsOf (v n : Nat) : List Host.Cell := (List.range n).filterMap fun i =>
  let b : Byte := BitVec.ofNat 8 (v / 256 ^ i)
  if b == 0 then none else some (i, b)

/-- A fault in the one read of the pad image: no gang of the grid starts on this module (R350). -/
def imageFailed (s : State) (g : Grid) (cause : BitVec 8) (addr : Word) : State :=
  let s := s.countFault g.handle ⟨0xFFFFFFFF#32, 0xFF, cause, BitVec.ofNat 16 s.moduleNo, addr⟩
  let s := s.neverStart g.handle (unstarted g)
  s.modGrid g.handle fun g => { g with imageFault := true, imageHold := none, ranges := [] }

/-- Read the pad image once; none while the read waits or where it has failed. -/
def readImage (s : State) (g : Grid) : Option Grid × State :=
  match g.image with
  | some _ => (some g, s)
  | none =>
    if g.desc.imsz = 0 then (some { g with image := some [] }, s.modGrid g.handle fun g => { g with image := some [] })
    else match s.attempt g.imageHold (s.readRange (dispAsker g.vd g.desc.space false) g.desc.image g.desc.imsz) with
      | .ok v =>
        let cells := cellsOf v g.desc.imsz
        let s := s.usedRange (dispAsker g.vd g.desc.space false) g.desc.image g.desc.imsz
        (some { g with image := some cells }, s.modGrid g.handle fun g => { g with image := some cells, imageHold := none })
      | .wait p s' => (none, s'.modGrid g.handle fun g => { g with imageHold := some p })
      | .bad cause addr => (none, s.imageFailed g cause addr)

/-- The module dispatcher has its first gang of a grid, and with it the pad image: none for a grid that is cancelled or whose image
cannot be read (R350). -/
def dealtImage (s : State) (g : Grid) : Option Grid × State := if g.cancelled || g.imageFault then (none, s) else s.readImage g

/-- The swap region lacks room for a skip list: reported once for a gang (R349, R455). -/
def askRoom (s : State) (g : Grid) (i : Nat) (sites : List Nat) : State :=
  if g.asked == some i then s
  else (s.swapRecord g.vd (handleOf g.handle) g.desc.queue (2 * (skipsOf sites).length) 1 i).modGrid g.handle fun g => { g with asked := some i }

/-- Sites may go to another run than a re-run that is owed its share: the oldest waiting one still finds its interval without them
(R26). -/
def leavesRerun (s : State) (vd : Nat) (sites : List Nat) : Bool :=
  match if s.rerunShort vd then s.oldestRerun vd else none with
  | none => true
  | some x => match s.grid? x.handle with
    | some g => (s.placeAny vd (auditAvoid x ++ sites) g.desc.gsz).isSome
    | none => true

/-- The record of a run that is placed. -/
def newRun (gid : Word) (i vd : Nat) (sites : List Nat) (skip : Option SwapBlock) (mark : RunMark) : Gang :=
  { handle := gid, index := i, vd := vd, sites := sites, history := sites, skipBlock := skip, mark := mark }

/-- Start a gang on chosen sites (R349). -/
def startOn (s : State) (g : Grid) (i : Nat) (sites : List Nat) : State :=
  match s.placeEntry g i sites false with
  | none => s.askRoom g i sites
  | some (b, s) =>
    let s := { s with gangs := s.gangs ++ [newRun g.handle i g.vd sites b .original] }
    let s := s.startTiles g i .original sites
    let s := (s.markResident g.handle i).settleEntry g.handle i
    let s := sites.foldl State.replaySkid s
    let s := (s.openPads g.handle i).clearTileFault g.handle i
    s.modGrid g.handle fun g => { g with started := true, ranges := g.ranges.filterMap (dropFirst i) }

/-- The start of an undealt gang that has reached its dispatcher. -/
def startGang (s : State) (g : Grid) (i : Nat) : State :=
  match rangeOf g i with
  | none => s
  | some r =>
    match s.dealtImage g with
    | (none, s) => s
    | (some g, s) =>
      let withheld := s.withheld.contains r.node
      if withheld || !placesAt r.node g.desc.gsz || !s.mayStart g i || !s.queueTurn g.vd (s.gridQueue g) || s.swappedFirst g.vd (s.gridQueue g)
      then s
      else
        let p := s.nodePart g.vd r.node
        match (s.place [] p.1 p.2 g.desc.gsz).filter (s.leavesRerun g.vd) with
        | none => s
        | some sites =>
          let s := if s.selected g i && !g.holds then s.holdInputs g else s
          s.startOn g i sites

/-! ### Starting re-runs (R26, R368) -/

/-- Start a waiting re-run (R368). -/
def startRerun (s : State) (g : Grid) (x : Audit) : State :=
  match s.placeAny x.vd (auditAvoid x) g.desc.gsz with
  | none => s
  | some sites =>
    let m := auditMark x
    let s := { s with
      gangs := s.gangs ++ [newRun g.handle x.gang x.vd sites none m]
      audits := mapIf (fun y => y.handle == x.handle && y.gang == x.gang) (fun y => { y with placed := true }) s.audits }
    s.startTiles g x.gang m sites

/-! ### Swapping out (R24, R353, R392, R393) -/

/-- The sites on which the tiles of a run stand, by rank. -/
def standing (s : State) (r : Gang) : List Nat := r.sites.filter fun a =>
  let t := s.tile a
  s.hasTile a && t.handle == r.handle && gangOf t.vtn == r.index && t.mark == r.mark && r.sites[rankOf t.vtn]? == some a

/-- Every live thread of a run is parked (R24, R237). -/
def allParked (s : State) (r : Gang) : Bool := (s.standing r).all fun a => [0, 1, 2, 3].all fun th =>
  let t := s.thread a th
  !t.live || t.park.isSome

/-- A run stands whole on the wafer and may be stopped. -/
def stoppable (s : State) (r : Gang) : Bool := r.phase == .resident && !(s.standing r).isEmpty && (s.standing r).all fun a => s.siteState a == .running

/-- A gang or re-run of a VD that waits for sites: its priority, and that it cannot be placed now. -/
def waitingPri (s : State) (vd : Nat) : List Nat :=
  let swapped := (s.gangs.filter fun r => swappedReady vd r && match s.grid? r.handle with
    | some g => (s.placeAny vd [] g.desc.gsz).isNone
    | none => false).map s.runPri
  let undealt := (s.grids.filter fun g => g.vd == vd && !g.complete).filterMap fun g =>
    match lowestRange g.ranges with
    | some r => if s.canPlace vd r.node g.desc.gsz then none else some (s.queuePri vd (s.gridQueue g))
    | none => none
  swapped ++ undealt
where
  lowestRange (l : List DealRange) : Option DealRange := l.foldl (fun b r => match b with
    | some x => if r.lo < x.lo then some r else some x
    | none => some r) none

/-- A re-run waits that cannot be placed now. -/
def rerunWaits (s : State) (vd : Nat) : Bool := (s.oldestRerun vd).any fun x => match s.grid? x.handle with
  | some g => (s.placeAny vd (auditAvoid x) g.desc.gsz).isNone
  | none => false

/-- Of the runs that qualify, the one of lowest priority and latest order (R24). -/
def victim (s : State) (vd : Nat) (p : Gang → Bool) : Option Gang :=
  (s.gangs.filter fun r => r.vd == vd && s.stoppable r && p r).foldl (fun b r => match b with
    | some x => if s.runPri r < s.runPri x || (s.runPri r == s.runPri x && s.runOrder x < s.runOrder r) then some r else some x
    | none => some r) none

/-- A run of the VD is on its way out. -/
def stopping (s : State) (vd : Nat) : Bool := s.gangs.any fun r => r.vd == vd && r.phase == .stopping

/-- The scheduler stops every tile of a run: MOVE = 1, and each tile STOPPING (R393). -/
def beginStop (s : State) (r : Gang) (dormant : Bool) : State :=
  let s := if r.mark == .original then s.modEntry r.handle r.index fun e => bumpGen (setMove true e) else s
  let at_ := s.standing r
  let s := s.modRun r.handle r.index r.mark fun g => { g with phase := .stopping, dormant := dormant, quantumOver := false }
  at_.foldl (fun s a => s.modSite a fun x =>
    { x with state := .stopping, stopBy := some .scheduler, stopAt := if r.cancelTrap then x.stopAt else x.cyc }) s

/-- Whether a resident run is to be swapped out, and whether it will be dormant. -/
def swapReason (s : State) (r : Gang) : Option Bool :=
  let waiting := s.waitingPri r.vd
  let most := waiting.foldl max 0
  let is (p : Gang → Bool) : Bool := s.victim r.vd p == some r
  if s.stopping r.vd || !s.stoppable r then none
  else if is (fun x => (s.standing x).any fun a => (s.site a).pend) then some false
  else if !waiting.isEmpty && is (fun x => decide (s.runPri x < most)) then some false
  else if (!waiting.isEmpty || s.rerunWaits r.vd) && is (fun x => x.quantumOver && s.allParked x) then some true
  else none

/-- The images are written and the sites freed (R393); none while the swap region has no room. A rank that stands on no site has no
image there. -/
def saveRun (s : State) (r : Gang) : Option State :=
  match s.allocSwap r.vd (r.sites.length * imageSize) with
  | none => none
  | some (b, s) =>
    let at_ := s.standing r
    let s := at_.foldl (fun s a => s.putImage (b.base + rankOf (s.tile a).vtn * imageSize) (s.imageCells a) (s.imagePoison a)) s
    let s := if r.mark == .original then s.modEntry r.handle r.index fun e => bumpGen (setMove false (setRes false e)) else s
    let s := s.freeSwap r.skipBlock
    let s := at_.foldl (fun s a => (s.keepReports a).leaveSite a) s
    some (s.modRun r.handle r.index r.mark fun g => { g with
      phase := .swappedOut, sites := [], images := (List.range r.sites.length).map fun i => b.base + i * imageSize, imageBlock := some b
      skipBlock := none })

/-! ### Swapping in (R393) -/

/-- Restore a run onto new sites. -/
def restoreOn (s : State) (g : Grid) (r : Gang) (sites : List Nat) : State :=
  let placed := if r.mark == .original then s.placeEntry g r.index sites true else some (none, s)
  match placed with
  | none => s.askRoom g r.index sites
  | some (b, s) =>
    let saved := (sites.zip (r.images.zip (List.range sites.length))).filter fun p => !r.saved.any fun x => x.rank == p.2.2
    let s := saved.foldl (fun s p =>
      let im := s.getImage p.2.1
      let s := s.setMcrN (0x60000 + p.1) 1 0
      let s := s.installImage p.1 im.1 im.2 r.mark r.vd r.handle
      s.modSite p.1 fun x => { x with state := .running, stopBy := none }) s
    let s := s.modRun r.handle r.index r.mark fun x => { x with
      phase := .resident, sites := sites, history := x.history ++ sites, images := [], imageBlock := none, skipBlock := b
      quantumOver := false, resident := 0 }
    let at_ := saved.map fun p => p.1
    let s := at_.foldl State.replaySkid s
    let s := if r.mark == .original then ((s.settleEntry r.handle r.index).openPads r.handle r.index).clearTileFault r.handle r.index
      else s.returnRequests r.handle (runNo r)
    let s := at_.foldl State.decideTile (at_.foldl State.rejoin s)
    s.freeSwap r.imageBlock

/-- A swapped-out gang has its turn (R25, R352, R354). -/
def swapInTurn (s : State) (r : Gang) : Bool :=
  if r.mark != .original then s.rerunTurn r.vd && (s.oldestRerun r.vd).any fun x => x.handle == r.handle && x.gang == r.index
  else
    let q := s.runQueue r
    let better (x : Gang) : Bool := swappedReady r.vd x && (x.handle != r.handle || x.index != r.index)
      && (decide (s.runPri r < s.runPri x) || (s.runPri x == s.runPri r
        && (if s.runQueue x == q then decide (s.runOrder x < s.runOrder r) else s.queueBefore r.vd (s.runQueue x) q)))
    (s.readyQueues r.vd).all (fun k => s.queuePri r.vd k ≤ s.runPri r) && !s.gangs.any better

/-- The sites that a run may not use. -/
def runAvoid (s : State) (r : Gang) : List Nat :=
  if r.mark == .original then []
  else match s.audits.find? fun x => x.handle == r.handle && x.gang == r.index with
    | some x => auditAvoid x
    | none => []

/-! ### Watchdog and stalls (R264, R407) -/

/-- A resident gang is eligible: started, no tile of it held, STOPPING or STOPPED, its VD active (R264). -/
def eligibleGang (s : State) (r : Gang) : Bool :=
  r.phase == .resident && s.vdActive r.vd && !(r.mark == .original && s.gangHeld r.handle r.index)
    && !(s.standing r).isEmpty && (s.standing r).all fun a => s.siteState a != .stopping && s.siteState a != .stopped

/-- Some tile of it lies in a withheld yard (R264, R348). -/
def gangWithheld (s : State) (r : Gang) : Bool := (s.standing r).any fun a => s.withheld.contains (a / 256)

/-- A copy command is suspended for budget, or a rim access is held back by the pending-walk limit (R264). -/
def throttled (s : State) (r : Gang) : Bool := (s.standing r).any fun a =>
  ([0, 1, 2, 3].any fun i => (s.copy? a i).any (s.suspended a))
  || s.walks.any fun w => w.heldBack && w.vd == r.vd && w.vtn == (s.tile a).vtn && w.station == entryStation a

/-- The address lies on an input page of a grid: the leaf pages that its regions touch, since CH holds a whole leaf (R367). -/
def ownHold (s : State) (g : Grid) (addr : Word) : Bool :=
  g.holds && (heldPages g).any fun p => onPage (s.leafBits g.vd g.desc.space p) (BitVec.ofNat 64 p) addr

/-- A thread's wait is one that the detector counts and that nothing outside can end (R264). -/
def stallWait (s : State) (r : Gang) (a th : Nat) : Bool :=
  let t := s.thread a th
  !t.live || match t.park with
    | some (.barrier _) | some .speculating => true
    | some (.rimFault _ _ _ _ _) | some (.absent _ _) => false
    | some (.cruiseHold addr) => match s.grid? r.handle with
      | some g => s.ownHold g addr
      | none => false
    | some p => (s.waitOf a th p).kind != 0
    | none => false

/-- A copy command counts as in flight but while it waits only on a stream, or for budget (R328). -/
def copyFlying (s : State) (a i : Nat) : Bool := (s.copy? a i).any fun c =>
  c.phase != .faulted && !(c.phase == .waiting && s.claimBlocked a c) && !s.suspended a c && !s.onStream a c

/-- Nothing that could end the gang's waits is in flight (R264). -/
def nothingFlying (s : State) (r : Gang) : Bool :=
  let mine (h : Word) (v : BitVec 32) (m : RunMark) : Bool := h == r.handle && gangOf v == r.index && m == r.mark
  let toTile (m : Msg) : Bool := match m.kind with
    | .post _ _ | .launch _ => false
    | .put _ _ _ | .putv _ _ _ | .getReq _ _ _ | .getResp _ _ _ _ | .send _ | .cinc _ _ | .handle _ _ | .padStore _ _ _ _ | .padFull _ _ _ | .padClear _ => true
  !(s.net.any fun m => m.phase == .flight && (mine m.handle m.vtn m.mark || (toTile m && mine m.handle m.dest m.mark)))
    && !(s.links.any fun l => l.handle == r.handle && l.gang == r.index + 65536 * r.mark.no)
    && !(s.decided.any fun d => d.members.any fun m => r.sites.contains m.1)
    && (s.standing r).all fun a => (s.tile a).evalQ.isEmpty && (s.tile a).pushes.isEmpty && (s.tile a).schange.isEmpty && [0, 1, 2, 3].all (fun i => !s.copyFlying a i)
      && (!s.hasRings a || ((s.ringLive (s.skidHdr r.handle r.index)).isEmpty && (s.ringLive (s.ovfHdr r.handle r.index)).isEmpty))

/-- Every condition under which the stall count advances (R264). -/
def stalledNow (s : State) (r : Gang) : Bool :=
  s.eligibleGang r && !s.gangWithheld r && !s.throttled r && s.nothingFlying r
    && (s.standing r).all (fun a => [0, 1, 2, 3].all fun th => s.stallWait r a th)
    && (s.standing r).any fun a => [0, 1, 2, 3].any fun th => (s.thread a th).live

/-- The lowest rank that waits, and its first waiting thread. -/
def firstWaiter (s : State) (r : Gang) : Nat × Nat :=
  (((s.standing r).flatMap fun a => [0, 1, 2, 3].map fun th => (a, th)).find? fun p => (s.thread p.1 p.2).live).getD (0, 0)

/-- The state of a gang's counts after a move: a cycle that would not advance the stall count, of a gang that is eligible and neither
withheld nor throttled, sets it to zero, and a report may be sent again (R264). -/
def settleStall (s : State) (r : Gang) : Gang :=
  if (r.stall == 0 && !r.stalled) || !s.eligibleGang r || s.gangWithheld r || s.throttled r || s.stalledNow r then r
  else { r with stall := 0, stalled := false }
def settleStalls (s : State) : State := { s with gangs := s.gangs.map s.settleStall }

/-- The counts of a gang after one more cycle (R264, R407). -/
def countCycle (s : State) (r : Gang) : Gang :=
  if !s.eligibleGang r || s.gangWithheld r || s.throttled r then r
  else { r with dog := r.dog + 1, stall := if s.stalledNow r then r.stall + 1 else 0 }

/-- A count of a gang has reached the watchdog's limit, or 2^20 with no report sent yet (R264, R407). -/
def countDue (s : State) (r : Gang) : Bool :=
  (s.vdWatchdog r.vd != 0 && decide (2 ^ s.vdWatchdog r.vd ≤ r.dog)) || (decide (2 ^ 20 ≤ r.stall) && !r.stalled)

/-- A boundary of the windows of 8 microseconds has come whose event has not (R424). -/
def windowDue (s : State) : Bool := decide (8 * s.windows ≤ s.time.toNat)

end State

/-! ### Events -/

/-- DEAL_ROUND (R347): a dispatcher above the level at which the grid's gangs are placed; or a grid of another module is dealt here. -/
def execDealRound (node : Nat) (handle : Word) (s : State) : Host.Outcome State Fault Refusal :=
  match s.grid? handle with
  | none => .next (s.dealtHere handle)
  | some g => if State.placesAt node g.desc.gsz then .next s else match s.dealtImage g with
    | (none, s) => .next s
    | (some g, s) => .next (s.dealRound g node)

/-- GANG_START (R349): an undealt gang in its turn, or a cruise re-run (R368). -/
def execGangStart (handle : Word) (gang : Nat) (s : State) : Host.Outcome State Fault Refusal :=
  match s.grid? handle with
  | none => .next s
  | some g =>
    if State.markOf gang == .original then .next (s.startGang g gang)
    else match (s.oldestRerun g.vd).filter fun x => x.handle == handle && x.gang == gang % 65536 with
      | some x => if x.placed || State.auditMark x != State.markOf gang || !s.rerunTurn x.vd then .next s else .next (s.startRerun g x)
      | none => .next s

/-- YARD_WITHHOLD (R348): its unstarted gangs go back to its quadrant. -/
def execYardWithhold (yard : Nat) (s : State) : Host.Outcome State Fault Refusal :=
  if s.withheld.contains yard || 256 ≤ yard then .next s
  else
    let back (r : DealRange) : DealRange := { r with node := 256 + yard / 64 }
    .next { s with
      withheld := NSet.insert s.withheld yard
      grids := s.grids.map fun g => { g with ranges := mapIf (fun r => r.node == yard) back g.ranges } }

/-- YARD_RECOVER (R348). -/
def execYardRecover (yard : Nat) (s : State) : Host.Outcome State Fault Refusal := .next { s with withheld := NSet.erase s.withheld yard }

/-- WATCHDOG_EXPIRE (R407): the count has reached the VD's limit. -/
def execWatchdogExpire (handle : Word) (gang : Nat) (s : State) : Host.Outcome State Fault Refusal :=
  match s.runOf handle gang with
  | none => .next s
  | some r =>
    let n := s.vdWatchdog r.vd
    if n = 0 || r.dog < 2 ^ n then .next s
    else
      let s := s.modRun r.handle r.index r.mark fun g => { g with dog := 0, dogReached := r.dog }
      .next ((s.standing r).foldl (fun s a => [0, 1, 2, 3].foldl (fun s th =>
        if (s.thread a th).live then (s.modThread a th fun t => { t with dogPending := true }).pressThread a th else s) s) s)

/-- QUANTUM_EXPIRY (R24, R352): a gang has been resident for its VD's quantum, which counts no withheld cycle. -/
def execQuantumExpiry (handle : Word) (gang : Nat) (s : State) : Host.Outcome State Fault Refusal :=
  match s.runOf handle gang with
  | none => .next s
  | some r =>
    if r.phase == .resident && s.vdQuantum r.vd ≤ r.resident then .next (s.modRun r.handle r.index r.mark fun g => { g with quantumOver := true })
    else .next s

/-- COPY_BUDGET_WINDOW (R327): every budget is full again, and a microsecond has passed, which counts to the quantum of every gang that is
resident and not withheld (R352). None passes while a boundary of the voltage windows is due. The windows of 100 ms over which the re-runs' share is measured (R26) begin at the multiples of 100,000
microseconds of module time: where one begins the spec leaves open (DESIGN CHOICE, log 79). -/
def execCopyBudgetWindow (s : State) : Host.Outcome State Fault Refusal :=
  let fresh := (s.time.toNat + 1) % 100000 = 0
  if s.windowDue then .next s
  else .next { s with
    budgetUsed := [], time := s.time + 1
    gangs := mapIf (fun r => r.phase == .resident && !s.gangWithheld r) (fun r => { r with resident := r.resident + 1 }) s.gangs
    rerunService := if fresh then [] else s.rerunService
    rerunWindow := if fresh then [] else s.rerunWindow }

/-- GANG_SWAP_OUT (R393): the scheduler begins to stop a gang for a reason of R24, or, once it has stopped, saves it. -/
def execGangSwapOut (handle : Word) (gang : Nat) (s : State) : Host.Outcome State Fault Refusal :=
  match s.runOf handle gang with
  | none => .next s
  | some r =>
    if r.phase == .stopping then
      (if s.cancelRetires r then .next (s.retireGang r)
       else if (s.standing r).all fun a => s.siteState a == .stopped then .next ((s.saveRun r).getD s) else .next s)
    else match s.swapReason r with
      | some dormant => .next (s.beginStop r dormant)
      | none => .next s

/-- TILE_STOP_DONE (R392): a STOPPING tile comes to rest, and with its link words recorded reaches the end of its steps. -/
def execTileStopDone (agent : Nat) (s : State) : Host.Outcome State Fault Refusal :=
  if s.siteState agent != .stopping then .next s
  else match s.atRest agent with
    | some s =>
      let owner := (s.site agent).stopBy
      let s := s.stopTile agent
      if s.siteState agent != .stopped then .next s
      else
      let s := if owner == some .scheduler then s else s.finishTstop agent 0
      -- a cancelled gang retires without being restored
      match (s.gangOfTile agent).filter s.cancelRetires with
      | some g => .next (s.retireGang g)
      | none => .next s
    | none => .next s

/-- GANG_SWAP_IN (R393). -/
def execGangSwapIn (handle : Word) (gang : Nat) (s : State) : Host.Outcome State Fault Refusal :=
  match s.runOf handle gang, s.grid? handle with
  | some r, some g =>
    if r.phase != .swappedOut || r.dormant || r.cancelTrap || !s.swapInTurn r then .next s
    else match (s.placeAny r.vd (s.runAvoid r) g.desc.gsz).filter fun l =>
        r.mark != .original || (s.leavesRerun r.vd l && !(g.cancelled && g.reached.contains (l.headD 0 / 256))) with
      | some sites => .next (s.restoreOn g r sites)
      | none => .next s
  | _, _ => .next s

/-- TILE_FAULT (R260, R354): the scheduler learns of traffic to an absent gang; a dormant one is ready again. -/
def execTileFault (handle : Word) (gang : Nat) (s : State) : Host.Outcome State Fault Refusal :=
  if s.tileFaults.contains (handle, gang) then .next (s.modGang handle gang fun g => { g with dormant := false }) else .next s

/-- RERUN_SITE_RECLAIM (R26): re-runs are owed their share, and the oldest waiting one has no interval. -/
def execRerunSiteReclaim (vd : Nat) (s : State) : Host.Outcome State Fault Refusal :=
  if !s.rerunShort vd || s.stopping vd || !s.rerunWaits vd then .next s
  else match s.victim vd fun _ => true with
    | some r => .next (s.beginStop r false)
    | none => .next s

/-- GANG_STALL_REPORT (R264): the count has reached 2^20 cycles; one report until it is zero again. -/
def execGangStallReport (handle : Word) (gang : Nat) (s : State) : Host.Outcome State Fault Refusal :=
  match s.runOf handle gang with
  | none => .next s
  | some r =>
    if r.stalled || r.stall < 2 ^ 20 then .next s
    else
      let w := s.firstWaiter r
      let s := s.addRecord (.supervisor r.vd) (record256 [(0, 8, (State.handleOf handle).toNat), (8, 1, 0x0F), (9, 1, (s.waitKind w.1 w.2).toNat),
        (10, 1, r.vd), (11, 1, 11), (12, 4, (s.tile w.1).vtn.toNat), (16, 1, w.2), (18, 2, r.index)])
      .next (s.modRun r.handle r.index r.mark fun g => { g with stalled := true })

end Sys2Proof.Machine
end

