-- ==== Sys2Proof/Machine/HostPort.lean ====
section
/-! DEFINITION. Requests from outside: the host's (R409, R410, R412, R184) and those of other modules of the pod (R158, R417), and
their retries where they wait at a station or at a held page. -/

namespace Sys2Proof.Machine
namespace State

/-! ### Host requests (R410) -/

def hostVd (s : State) : Nat := s.mcrN 0x80 1

/-- The asker of a host request through a service core: the host's VD, space 0, U ignored. -/
def hostAsker (s : State) (core : Nat) : Asker := ⟨entryStation (65536 + core), s.hostVd, 0, 0xFFFFFFFF#32, 0, true⟩

/-- Something leaves on a service core's port, where its link is up (R409). -/
def hostSend (s : State) (core : Nat) (o : HostOut) : State :=
  if s.hostDown.contains core then s else { s with hostOut := s.hostOut ++ [o] }

/-- The doublewords of a control register access. -/
def hostOffs (r : HostReq) : List Nat := (List.range (r.size / 8)).map fun i => fieldOf r.addr 0 24 + 8 * i

/-- A host access of the control registers: a write only where the table allows it in every doubleword (R412). -/
def hostMcr (s : State) (r : HostReq) : State :=
  let word (i : Nat) : Word := r.data.extractLsb' (64 * i) 64
  if r.write then
    if (hostOffs r).all fun o => (hostMask o).isSome then
      let s := ((hostOffs r).zip (List.range 8)).foldl (fun s p =>
        let m := (hostMask p.1).getD 0
        s.mcrWrite p.1 ((s.mcrRead p.1 &&& ~~~m) ||| (word p.2 &&& m))) s
      s.hostSend r.core (.wrote r.core r.addr)
    else s.hostSend r.core (.error r.core r.addr)
  else
    let v := (hostOffs r).foldr (fun o (x : Nat) => (s.mcrRead o).toNat + 2 ^ 64 * x) 0
    s.hostSend r.core (.data r.core r.addr (BitVec.ofNat 512 v))

/-- A firmware write: in recovery mode service core 0 takes the writes that name a slot or a marker copy, and nothing else. The spec gives
no address for them (R421; log 85). -/
def firmwareWrite (s : State) (r : HostReq) : State :=
  let region := Config.firmwareRegion r.addr
  let at_ := region * 2 ^ 32 + Config.firmwareOffset r.addr % 2 ^ 32
  if r.write && decide (region < 4) then
    { s with flash := (List.range r.size).foldl (fun m i => Tab.set m (at_ + i) (r.data.extractLsb' (8 * i) 8)) s.flash }.hostSend r.core
      (.wrote r.core r.addr)
  else s.hostSend r.core (.error r.core r.addr)

/-- One host request: done, or the wait it is in. -/
def hostTry (s : State) (r : HostReq) : State × Option Park :=
  let fail := (s.hostSend r.core (.error r.core r.addr), none)
  if !(r.size == 8 || r.size == 64) || r.addr.toNat % r.size != 0 then fail
  else if s.recovery && r.core == 0 then (s.firmwareWrite r, none)
  else if tagOf r.addr = 0xC then (s.hostMcr r, none)
  else if tagOf r.addr ≠ 4 || !s.spaceValid s.hostVd 0 then fail
  else
    let u : Use := { read := !r.write, write := r.write, plain := false, kind := if r.write then .store else .load }
    match s.attempt r.hold (s.translateAt (s.hostAsker r.core) r.addr u) with
    | .bad _ _ => fail
    | .wait p s' => (s', some p)
    | .ok key =>
      let s := s.usedBy (s.hostAsker r.core) r.addr
      if r.write then ((s.store key r.size r.data.toNat).hostSend r.core (.wrote r.core r.addr), none)
      else if (List.range ((r.size + 7) / 8)).any fun i => s.isPoisoned (key + 8 * i) then (s.hostSend r.core (.error r.core r.addr), none)
      else (s.hostSend r.core (.data r.core r.addr (BitVec.ofNat 512 (s.readN key r.size))), none)

/-- A service core performs its requests in order; one that waits holds back the later ones (R184). -/
def hostPump (s : State) (core : Nat) : Nat → State
  | 0 => s
  | n + 1 =>
    match splitFirst (fun r => r.core == core) s.hostPending with
    | none => s
    | some (pre, r, post) =>
      let t := s.hostTry r
      match t.2 with
      | some p => { t.1 with hostPending := pre ++ { r with hold := some p } :: post }
      | none => hostPump { t.1 with hostPending := pre ++ post } core n

/-- A request arrives. -/
def hostArrive (s : State) (r : HostReq) : State :=
  let s := { s with hostPending := s.hostPending ++ [r], hostDown := s.hostDown.filter (· != r.core) }
  s.hostPump r.core s.hostPending.length

/-- Everything from outside that waits is tried again. -/
def retryOutside (s : State) : State :=
  let s := [0, 1, 2, 3].foldl (fun s core => s.hostPump core s.hostPending.length) s
  ((s.podPending.map fun r => r.module).eraseDups).foldl (fun s m => s.podPump m) s

/-! ### Operations of other modules' tiles on gangs of this one (R346) -/

/-- The grid that an operation from another module names: one of the VD's that spans both modules, by a free value. -/
def spanning (s : State) (vd module : Nat) : Option Grid :=
  let l := s.grids.filter fun g => g.vd == vd && !g.complete && g.desc.mask.getLsbD module && g.lo < g.hi
  l[(Config.podData s.free).toNat % max 1 l.length]?

/-- An operation of a gang of another module on a pad of this one: a store, PUT, PUTV, GET, SEND or CINC, translated here under R258
(R346). Its kind, its sender and its counter are free (log 1). -/
def podPost (s : State) (module vd : Nat) (addr data : Word) : State :=
  let w := (Config.podData (s.free + 1)).toNat
  match s.spanning vd module with
  | none => { s with free := s.free + 3 }
  | some g =>
    let off := fieldOf addr 3 13 * 8
    let wide := fieldOf addr 4 12 * 16
    let kind : MsgKind := match w % 6 with
      | 0 => .put off (w / 8 % 16) data
      | 1 => .putv wide (w / 8 % 16) (Config.podData (s.free + 2) ++ data)
      | 2 => .getReq off (w / 2 ^ 16 % 3072 * 8) (w / 8 % 16)
      | 3 => .send data
      | 4 => .cinc (w / 8 % 16) (data.setWidth 32)
      | _ => .handle off data
    let v := addr.extractLsb' 16 32
    let s := { s with free := s.free + 3 }
    if off + 8 ≤ 0x6000 && wide + 16 ≤ 0x6000 && g.lo ≤ gangOf v && gangOf v < g.hi && rankOf v < g.desc.gsz then
      s.postMsg { id := 0, kind := kind, agent := podAgent module, thread := 0, vtn := BitVec.ofNat 32 (remoteGang g (w / 2 ^ 32) * 65536)
                  handle := g.handle, vd := vd, dest := v, tile := w / 2 ^ 48 % 65536 } false
    else s

end State

/-! ### Events -/

/-- HOST_WRITE (R410). -/
def execHostWrite (core : Nat) (addr : Word) (size : Nat) (data : BitVec 512) (s : State) : Host.Outcome State Fault Refusal :=
  .next (s.hostArrive { core := core, addr := addr, size := size, write := true, data := data })

/-- HOST_READ (R410). -/
def execHostRead (core : Nat) (addr : Word) (size : Nat) (s : State) : Host.Outcome State Fault Refusal :=
  .next (s.hostArrive { core := core, addr := addr, size := size, write := false })

/-- HOST_LINK_DOWN (R409): nothing else is affected. -/
def execHostLinkDown (port : Nat) (s : State) : Host.Outcome State Fault Refusal :=
  .next { s with hostDown := NSet.insert s.hostDown port }

/-- POD_REQUEST (R158); one that names a pad of a gang that runs here (R346). -/
def execPodRequest (module vd space : Nat) (addr : Word) (size : Nat) (write : Bool) (data : Word) (s : State) : Host.Outcome State Fault Refusal :=
  if !s.inPod module || !s.podUp module || module = s.moduleNo then .next s
  else if State.tagOf addr = 1 then .next ((s.flitThrough module).podPost module vd addr data)
  else
    let r : PodReq := { module := module, tile := (Config.podData s.free).toNat % 65536, id := s.nextMsg, vd := vd, space := space
                        addr := addr, size := size, write := write, data := data }
    .next ({ s.flitThrough module with podPending := s.podPending ++ [r], nextMsg := s.nextMsg + 1, free := s.free + 1 }.podPump module)

/-- POD_FLIT_REPLAY (R417): a flit fails its CRC and is replayed; data is not affected. -/
def execPodFlitReplay (port : Nat) (s : State) : Host.Outcome State Fault Refusal :=
  if s.portsDown.contains port then .next s
  else .next { s with flitReplays := Tab.set s.flitReplays port ((Tab.get? s.flitReplays port).getD 0 + 1) }

/-- POD_PORTS_DOWN_TIMEOUT (R419): both ports of a module have been down for 10 ms of module time. -/
def execPodPortsDownTimeout (module : Nat) (s : State) : Host.Outcome State Fault Refusal :=
  let e := s.mcrN (0x4000 + 8 * module) 2
  let long (p : Nat) : Bool := s.portsDown.contains p && decide ((Tab.get? s.downAt p).getD 0 + 10000 ≤ s.time.toNat)
  if module != s.moduleNo && s.inPod module && long (e % 64) && long (e / 256 % 64)
  then .next { s with podLeft := NSet.insert s.podLeft module }
  else .next s

end Sys2Proof.Machine
end

