-- ==== Sys2Proof/Machine/Cruise.lean ====
section
/-! DEFINITION. Cruise audit: the instructions CRDIG, CRON, CROFF, CRSTAT (R374-R377), verdicts (R369-R373), the end of held inputs
(R367); and the seed source with its log and its replay (R85-R90, R345, R459). -/

namespace Sys2Proof.Machine
namespace State

/-! ### Verdicts (R369-R373) -/

/-- Sites of a VD's partition that are not defective. -/
def workingSites (s : State) (vd : Nat) : Nat := ((List.range (s.vdPlen vd)).filter fun i => s.working (s.vdPbase vd + i)).length

/-- Each site of a losing run gains 16, once; at 64 it is marked for quarantine (R371, R372). -/
def scoreSites (s : State) (sites : List Nat) : State :=
  sites.eraseDups.foldl (fun s a =>
    let n := min 255 ((s.site a).score.toNat + 16)
    let s := s.modSite a fun x => { x with score := BitVec.ofNat 8 n }
    if 64 ≤ n then s.markSite a else s) s

/-- A clean verdict; each 2^20 of them lower every score by 1 (R371). -/
def cleanVerdict (s : State) : State :=
  if s.clean + 1 < 2 ^ 20 then { s with clean := s.clean + 1 }
  else { s with clean := 0, sites := s.sites.map fun p => (p.1, { p.2 with score := if p.2.score == 0#8 then 0 else p.2.score - 1 }) }

/-- The audit of a gang is over. -/
def dropAudit (s : State) (x : Audit) : State := { s with audits := s.audits.filter fun y => !(y.handle == x.handle && y.gang == x.gang) }

/-- The end of an audit with a report (R373). -/
def reportAudit (s : State) (x : Audit) (kind w16 : Nat) : State :=
  (s.addRecord .cruise (cruiseReport kind x.vd s.moduleNo x.gang (handleOf x.handle) w16 0)).dropAudit x

/-- Why a placed run ends without a verdict: a trap, a stall, its overlay (R370). -/
def runFailure (s : State) (r : Gang) : Option Nat :=
  if r.ended then (if r.phase == .retired then some 1 else none)
  else if r.stalled then some 2
  else if s.overlays.any (fun o => o.full && o.handle == r.handle && o.gang == r.index && o.mark == r.mark) then some 3
  else none

/-- The verdict on a finished run (R369). -/
def judge (s : State) (g : Grid) (x : Audit) (r : Gang) : State :=
  let s := s.dropRun r
  match x.second with
  | none =>
    if r.digest == x.first then s.cleanVerdict.dropAudit x
    else if s.workingSites x.vd < 3 * g.desc.gsz then s.reportAudit x 3 4
    else
      let again (y : Audit) : Audit := { y with second := some r.digest, secondSites := r.history, placed := false }
      { s with audits := mapIf (fun y => y.handle == x.handle && y.gang == x.gang) again s.audits }
  | some d =>
    -- bit 0 of the report: the original lost; bit 1: the re-run lost (log 30)
    if r.digest == x.first then (s.scoreSites x.secondSites).reportAudit x 1 2
    else if r.digest == d then (s.scoreSites x.firstSites).reportAudit x 1 1
    else s.reportAudit x 2 0

/-- One step of an audit: a run that can never be placed, that has failed, or that has finished. -/
def auditStep (s : State) (g : Grid) (x : Audit) : State :=
  if !x.placed then
    (if s.workingSites x.vd < (if x.second.isSome then 3 else 2) * g.desc.gsz then s.reportAudit x 3 4 else s)
  else match s.run? x.handle x.gang (auditMark x) with
    | none => s
    | some r => match s.runFailure r with
      | some why => (s.dropRun r).reportAudit x 3 why
      | none => if r.phase == .retired then s.judge g x r else s

/-- Every selected gang of a grid on this module has ended, and so has every audit of it (R367). -/
def auditsOver (s : State) (g : Grid) : Bool :=
  !(s.audits.any fun x => x.handle == g.handle)
    && !((unstarted g).any (s.selected g))
    && !(s.gangs.any fun r => r.handle == g.handle && r.mark == RunMark.original && s.selected g r.index
        && (r.phase == .resident || r.phase == .stopping || r.phase == .swappedOut))

/-- Clear the hold of a grid's pages, but for the leaves that hold a page of another grid too. -/
def clearHolds (s : State) (g : Grid) : State :=
  let others := (s.grids.filter fun x => x.handle != g.handle && x.vd == g.vd && x.desc.space == g.desc.space && x.holds).flatMap heldPages
  let shared (va : Nat) : Bool :=
    others.any fun o => onPage (s.leafBits g.vd g.desc.space va) (BitVec.ofNat 64 va) (BitVec.ofNat 64 o)
  let s := ((heldPages g).filter fun va => !shared va).foldl (fun s va => s.setHold g.vd g.desc.space va false) s
  s.modGrid g.handle fun g => { g with holds := false }

/-! ### The seed source (R85-R90, R459) -/

/-- A health record (R408). -/
def healthRecord (s : State) (kind detail place value : Nat) (addr : Word) : State :=
  s.addRecord .health (record256 [(0, 1, kind), (1, 1, detail), (2, 2, place), (4, 4, value), (8, 8, addr.toNat), (16, 8, s.time.toNat)])

/-- The grid identifier and virtual tile number under which an agent's SEEDs are logged (R86, R459). -/
def seedName (s : State) (a : Nat) : Word × BitVec 32 :=
  if isCore a then (0, s.recordVtn a)
  else (((s.grid? (s.tile a).handle).map fun g => g.seedId).getD 0, (s.tile a).vtn)

/-- A record of a SEED: identifier, virtual tile, thread, sequence. -/
def seedMatches (r : BitVec 256) (gid : Word) (v : BitVec 32) (th : Nat) (seq : Word) : Bool :=
  r.extractLsb' 0 64 == gid && r.extractLsb' 64 32 == v && (r.extractLsb' 96 8).toNat == th && r.extractLsb' 128 64 == seq

/-- The first of a list of records, by number, that matches. -/
def seedFind (s : State) (base : Nat) (p : BitVec 256 → Bool) (l : List Nat) : Option (BitVec 256) :=
  (l.map fun i => BitVec.ofNat 256 (s.readN (rimKey (base + 32 * i)) 32)).find? p

/-- The replay source region, in ascending position (R88). -/
def findReplay (s : State) (gid : Word) (v : BitVec 32) (th : Nat) (seq : Word) : Option (BitVec 256) :=
  s.seedFind (s.mcrN 0x1020 8) (fun r => seedMatches r gid v th seq) (List.range (s.mcrN 0x1028 8))

/-- The record of a VD's SEED that the seed log still holds, newest first, of those that stand from a count of TAIL on (R89). -/
def findLogged (s : State) (vd : Nat) (gid : Word) (from_ : Nat) (v : BitVec 32) (th : Nat) (seq : Word) : Option (BitVec 256) :=
  let tail := s.mcrN 0x1018 8
  let n := s.mcrN 0x1008 8
  s.seedFind (s.mcrN 0x1000 8) (fun r => seedMatches r gid v th seq && (r.extractLsb' 112 8).toNat == vd)
    ((List.range (min (tail - from_) n)).map fun i => (tail - 1 - i) % n)

/-- The grid identifier a thread's SEEDs replay: none in normal mode (R88, R89, R459). A re-run of a grid in replay mode replays what the
original read, by the same binding. -/
inductive SeedMode where
  | normal
  /-- Bound to a logged identifier, or to none. -/
  | replay (gid : Option Word)
  /-- A re-run of a grid in normal mode: the original's log from a count of TAIL on, then the replay source. -/
  | rerun (gid : Word) (from_ : Nat)
deriving DecidableEq, Repr, Inhabited

def seedMode (s : State) (a : Nat) : SeedMode :=
  if isCore a then (if s.vdReplay (s.vdOf a) then .replay (some 0) else .normal)
  else match s.grid? (s.tile a).handle with
    | none => .normal
    | some g =>
      match g.replay with
      | some id => .replay (if id == 0 then none else some id)
      | none => if (s.tile a).mark != .original then .rerun g.seedId g.seedFrom else .normal

/-- The value a replay gives a thread's next SEED. -/
def seedReplay (s : State) (a th : Nat) : Option Word :=
  let v := (s.seedName a).2
  let seq := (s.thread a th).seedSeq
  (match s.seedMode a with
    | .normal | .replay none => none
    | .replay (some id) => s.findReplay id v th seq
    | .rerun id from_ => match s.findLogged (s.vdOf a) id from_ v th seq with
      | some r => some r
      | none => s.findReplay id v th seq).map fun (r : BitVec 256) => r.extractLsb' 192 64

/-- The log has room: a ring of n records takes n - 1 (R87). -/
def seedUsed (s : State) : Nat := (BitVec.ofNat 64 (s.mcrN 0x1018 8) - BitVec.ofNat 64 (s.mcrN 0x1010 8)).toNat
def seedRoom (s : State) : Bool := s.seedUsed + 1 < s.mcrN 0x1008 8

/-- Append a SEED's record; crossing three quarters sends a record of kind 5 (R86, R87). -/
def seedAppend (s : State) (a th : Nat) (v : Word) : State :=
  let n := s.mcrN 0x1008 8
  let tail := s.mcrN 0x1018 8
  let used := s.seedUsed
  let name := s.seedName a
  let vd := s.vdOf a
  let r := record256 [(0, 8, name.1.toNat), (8, 4, name.2.toNat), (12, 1, th), (13, 1, if vd = s.mcrN 0x80 1 then 1 else 0), (14, 2, vd),
    (16, 8, (s.thread a th).seedSeq.toNat), (24, 8, v.toNat)]
  let s := (s.store (rimKey (s.mcrN 0x1000 8 + 32 * (tail % n))) 32 r.toNat).setMcrN 0x1018 8 (tail + 1)
  if 4 * used < 3 * n && 3 * n ≤ 4 * (used + 1) then s.healthRecord 5 0 0 (used + 1) 0 else s

/-- A replay miss, kind 8 of R455. -/
def replayMiss (s : State) (a th : Nat) : State :=
  let gid : Word := match s.seedMode a with
    | .replay (some id) | .rerun id _ => id
    | .normal | .replay none => 0
  s.addRecord (.supervisor (s.vdOf a)) (record256 [(0, 8, gid.toNat), (10, 1, s.vdOf a), (11, 1, 8), (12, 4, (s.seedName a).2.toNat),
    (16, 1, th), (24, 8, (s.thread a th).seedSeq.toNat)])

/-- What a waiting SEED waits for is there. -/
def seedReady (s : State) (kind : Nat) : Bool :=
  match kind with
  | 0 => s.entropyFailing.isNone
  | 1 => s.seedRoom
  | _ => false

end State

/-! ### Meanings -/

/-- CRDIG (R375). -/
def execCrdig (c : Chain) (x : RegNum) (i : BitVec 1) (s : State) : Host.Outcome State Fault Refusal :=
  issue gangRules c s do
    Op.need [] [.g x]
    let s ← get
    let d := s.myTile.digest
    Op.writeG x (if i == 0 then vget d 1 0 ++ vget d 0 0 else vget d 3 0 ++ vget d 2 0)
    Op.retire c

/-- CRON (R376). -/
def execCron (c : Chain) (s : State) : Host.Outcome State Fault Refusal :=
  issue gangRules c s do
    modify fun s => s.modMe fun t => { t with cx := false }
    Op.retire c

/-- CROFF (R376). -/
def execCroff (c : Chain) (s : State) : Host.Outcome State Fault Refusal :=
  issue gangRules c s do
    modify fun s => s.modMe fun t => { t with cx := true }
    Op.retire c

/-- A site operand: a site index, in the issuer's partition unless a service core issues (R377, R397). -/
def siteOk (s : State) (w : Word) : Bool :=
  w.extractLsb' 16 48 == 0#48 && (State.isCore s.cur.1
    || (decide (s.pbaseOf s.cur.1 ≤ w.toNat) && decide (w.toNat < s.pbaseOf s.cur.1 + s.plenOf s.cur.1)))

/-- CRSTAT (R377). -/
def execCrstat (c : Chain) (x y : RegNum) (s : State) : Host.Outcome State Fault Refusal :=
  issue { held := true, privileged := true } c s do
    Op.need [.g y] [.g x]
    let w ← Op.readG y
    Op.require (siteOk s w) 0x03 w
    let s ← get
    let a := w.toNat
    let q := s.siteState a == .quarantined
    Op.writeG x ((s.site a).score.setWidth 64 ||| (if q then 0x100 else 0) ||| (if (s.site a).pend then 0x200 else 0)
      ||| BitVec.ofNat 64 (s.clean % 2 ^ 20 * 2 ^ 16))
    Op.retire c

/-- SEED (R345): a logged draw of the source, or the value of a record. A replay SEED reports each search that finds no record: also one after
a write of the size register, or after a restore (DESIGN CHOICE, log 90: the rule says only that a report goes out when no record
exists). -/
def execSeed (c : Chain) (x : RegNum) (s : State) : Host.Outcome State Fault Refusal :=
  issue gangRules c s do
    Op.need [] [.g x]
    let s ← get
    let a := s.cur.1
    let th := s.cur.2
    if s.seedMode a == .normal then do
      Op.await s.entropyFailing.isNone (.seed 0)
      Op.await s.seedRoom (.seed 1)
      let v := Config.entropy s.free
      set ({ s with free := s.free + 1 }.seedAppend a th v)
      Op.writeG x v
    else match s.seedReplay a th with
      | some v => Op.writeG x v
      | none => throw (.parkIn (.seed 2) (s.replayMiss a th))
    modify fun s => s.modMe fun t => { t with seedSeq := t.seedSeq + 1 }
    Op.retire c

/-! ### Events -/

/-- RERUN_VERDICT (R369, R370). -/
def execRerunVerdict (handle : Word) (gang : Nat) (s : State) : Host.Outcome State Fault Refusal :=
  match s.grid? handle, s.audits.find? fun x => x.handle == handle && x.gang == gang with
  | some g, some x => .next (s.auditStep g x)
  | _, _ => .next s

/-- CRUISE_HOLD_CLEAR (R367). -/
def execCruiseHoldClear (handle : Word) (s : State) : Host.Outcome State Fault Refusal :=
  match s.grid? handle with
  | some g => if g.holds && s.auditsOver g then .next (s.clearHolds g).retryOutside else .next s
  | none => .next s

/-- ENTROPY_TEST_FAIL (R85). -/
def execEntropyTestFail (test : Nat) (s : State) : Host.Outcome State Fault Refusal :=
  if s.entropyFailing.isSome then .next s else .next ({ s with entropyFailing := some test }.healthRecord 3 test 0 0 0)

/-- ENTROPY_RECOVER (R85). -/
def execEntropyRecover (s : State) : Host.Outcome State Fault Refusal :=
  if s.entropyFailing.isNone then .next s else .next ({ s with entropyFailing := none }.healthRecord 4 0 0 0 0)

/-- SEED_LOG_HEAD_WRITE (R87): module software advances HEAD; SEEDs that wait for room then go on. -/
def execSeedLogHeadWrite (value : Word) (s : State) : Host.Outcome State Fault Refusal := .next (s.mcrWrite 0x1010 value)

/-- REPLAY_SOURCE_SIZE_WRITE (R88): every parked replay SEED searches again. -/
def execReplaySourceSizeWrite (value : Word) (s : State) : Host.Outcome State Fault Refusal := .next (s.mcrWrite 0x1028 value)

end Sys2Proof.Machine
end

