-- ==== Sys2Proof/Machine/System.lean ====
section
/-! DEFINITION. System registers, traps by instruction, returning from them, and tile management (R378-R406). -/

namespace Sys2Proof.Machine
namespace State

/-! ### System registers (R380, R381) -/

/-- The value of a system register. -/
def sysRead (s : State) (a th : Nat) (r : SysReg) : Word :=
  let t := s.thread a th
  let x := s.siteNow a
  match r with
  | .pc => t.pc
  | .tst => t.tst.setWidth 64 &&& 7#64
  | .fctl => t.fctl.setWidth 64
  | .fst => t.fst.setWidth 64
  | .srkey => t.srkey
  | .srcnt => t.srcnt
  | .tcause => t.tcause.setWidth 64
  | .tepc => t.tepc
  | .tval => t.tval
  | .tvec => t.tvec
  | .tscratch => t.tscratch
  | .vtn => (s.recordVtn a).setWidth 64
  | .gsize => (s.tile a).gsize.setWidth 64
  | .psite =>
    if isCore a then 0x1FFFF00000000#64 ||| BitVec.ofNat 64 (coreNo a * 2 ^ 49)
    else BitVec.ofNat 64 (a + s.pbaseOf a * 2 ^ 16 + (s.plenOf a - 1) * 2 ^ 32)
  | .tmode => if s.fretless a then 1 else 0
  | .clkdiv => x.clkdiv.setWidth 64
  | .eccnt => (x.fetch ++ x.unc ++ x.corr).setWidth 64
  | .cyc => s.cyc a
  | .age => if s.time == 0 then 0xFFFFFFFF else (Config.age (courseOf a) s.time.toNat).setWidth 64

/-- A use of a register that is privileged: reading one of SRW or SRO access, writing one of SRW or U-SRW (R380). -/
def sysPrivileged (r : SysReg) (write : Bool) : Bool :=
  match r with
  | .tst => write
  | .tcause | .tepc | .tval | .tvec | .tscratch | .clkdiv | .eccnt => true
  | .psite | .age => !write
  | .pc | .fctl | .fst | .srkey | .srcnt | .vtn | .gsize | .tmode | .cyc => false

/-- Registers that only the compute threads have (R76). -/
def computeOnly : SysReg → Bool
  | .fctl | .fst | .srkey | .srcnt => true
  | .pc | .tst | .tcause | .tepc | .tval | .tvec | .tscratch | .vtn | .gsize | .psite | .tmode | .clkdiv | .eccnt | .cyc | .age => false

/-- Write a thread register, or hand a site register's write on to cycle t + 3; read-only fields stay. -/
def sysWrite (s : State) (a th : Nat) (r : SysReg) (w : Word) : State :=
  let thr (f : Thread → Thread) : State := s.modThread a th f
  let due : Word := s.cyc a + 3
  match r with
  | .tst => thr fun t => { t with tst := w.setWidth 4 &&& 7#4 }
  | .fctl => thr fun t => { t with fctl := fctlOf w }
  | .fst => thr fun t => { t with fst := fstOf w }
  | .srkey => thr fun t => { t with srkey := w }
  | .srcnt => thr fun t => { t with srcnt := w }
  | .tcause => thr fun t => { t with tcause := w.setWidth 9 }
  | .tepc => thr fun t => { t with tepc := w }
  | .tval => thr fun t => { t with tval := w }
  | .tvec => thr fun t => { t with tvec := w &&& ~~~1#64 }
  | .tscratch => thr fun t => { t with tscratch := w }
  | .clkdiv => s.modSite a fun x => { x with later := x.later ++ [SiteWrite.div due (w.setWidth 3)] }
  | .eccnt => s.modSite a fun x => { x with later := x.later ++ [SiteWrite.ecc due (w.setWidth 48)] }
  | .pc | .vtn | .gsize | .psite | .tmode | .cyc | .age => s

/-- The least voltage code for a clock divider (R424). -/
def floorOf (div : Nat) : Nat := if div = 0 then 10 else if div = 1 then 4 else 0
/-- The code in force at a course: before the first window it is 10 (R424). -/
def codeOf (s : State) (course : Nat) : Nat := if s.windows = 0 then 10 else s.mcrN (0x50000 + 4 * course) 1 % 128
/-- The code that a course's voltage has reached: from the last boundary on it moves two codes, 10 mV, in a microsecond toward the code
in force (R424). -/
def voltsOf (s : State) (course : Nat) : Nat :=
  let v := (Tab.get? s.volts course).getD 10
  let c := s.codeOf course
  let n := 2 * (s.time.toNat - 8 * (s.windows - 1))
  if v ≤ c then min c (v + n) else max c (v - n)

/-- A divider that would raise the clock above what the course's voltage carries waits (R424). -/
def clockHeld (s : State) (a div : Nat) : Bool :=
  decide (div < (s.siteNow a).clkdiv.toNat) && decide (s.voltsOf (courseOf a) < floorOf div)

/-! ### Sites and images -/

/-- Read cells of an image, and its poison, from physical pieces of a range. -/
def getPieces (s : State) (l : List (Nat × Nat)) : List Host.Cell × List Nat :=
  (l.foldl (fun (r : (List Host.Cell × List Nat) × Nat) k =>
    ((r.1.1 ++ (Mem.slice s.mem k.1 k.2).map (fun c => (r.2 + c.1, c.2)),
      r.1.2 ++ (s.poison.filter fun d => k.1 ≤ d && d < k.1 + k.2).map fun d => r.2 + (d - k.1)), r.2 + k.2)) (([], []), 0)).1

/-- The asker of a thread's supervisor operation. -/
def threadAsker (s : State) (a th : Nat) : Asker := ⟨entryStation a, s.vdOf a, s.dataSpace a, s.recordVtn a, th, (s.thread a th).sup⟩

/-- A rank of a gang stands on another site from now on. -/
def moveRank (s : State) (gid : Word) (v : BitVec 32) (site : Nat) : State :=
  s.modGang gid (gangOf v) fun g =>
    if rankOf v < g.sites.length then { g with sites := g.sites.set (rankOf v) site, history := g.history ++ [site] } else g

/-- The grid that a header names, for an issuer (R400). -/
def headerGrid (s : State) (a : Nat) (vd : Nat) (h : Word) : Option Grid := s.lookupGrid (if isCore a then vd else s.vdOf a) h

/-! ### TMAP (R402) -/

/-- The grid of a handle as TMAP looks it up: a service core may name one of any VD. -/
def mapGrid (s : State) (a : Nat) (h : Word) : Option Grid :=
  if isCore a then s.grids.find? fun g => handleOf g.handle == h && h.extractLsb' 54 10 == 0#10 else s.lookupGrid (s.vdOf a) h

/-- The site of a record's rank under an entry holds its LOADED or RUNNING tile. -/
def rankStands (s : State) (g : Grid) (i : Nat) (rank : Nat) : Bool :=
  let e := s.residency g i
  let b := siteOfRank (resBase e) rank (s.skipList e)
  let t := s.tile b
  s.hasTile b && t.handle == g.handle && t.vtn == BitVec.ofNat 32 (i * 65536 + rank) && t.mark == .original
    && (s.siteState b == .loaded || s.siteState b == .running)

/-- Ranks that have records in a gang's skid queue. -/
def recordRanks (s : State) (g : Grid) (i : Nat) : List Nat :=
  let hdr := resSkidPa (s.residency g i)
  ((s.ringLive hdr).map fun k => recRank (s.ringRecord hdr k)).eraseDups

/-- Drop every cached copy of an entry. -/
def dropEntries (s : State) (gid : Word) (i : Nat) : State := (s.tiles.map Prod.fst).foldl (fun s a => s.dropEntry a gid i) s

/-- The sites of a gang whose pads are to open: their tiles are LOADED or RUNNING, and sealed. -/
def sealedSites (s : State) (gid : Word) (i : Nat) : List Nat :=
  match s.gang? gid i with
  | some g => g.sites.filter fun b => (s.tile b).sealed && (s.siteState b == .loaded || s.siteState b == .running)
  | none => []

/-- Where an entry says that its gang is resident and not being moved, its parked records land, its pads serve from then on, and its tile
fault is over (R173, R260, R263). -/
def openMoved (s : State) (gid : Word) (i : Nat) : State :=
  match s.grid? gid with
  | some g =>
    let e := s.residency g i
    if resRes e && !resMove e then (((s.sealedSites gid i).foldl State.replaySkid s).openPads gid i).clearTileFault gid i else s
  | none => s

/-- A tile of a re-run serves again, after what has waited for it has landed: its run has no residency entry (R368). -/
def openRerun (s : State) (b : Nat) : State :=
  let t := s.tile b
  ((s.modTile b fun t => { t with sealed := false }).replaySkid b).returnRequests t.handle (gangOf t.vtn + 65536 * t.mark.no)

/-- FORWARD: replay the skid queue and clear MOVE; none where a rank's tile is not there. -/
def forwardSkid (s : State) (g : Grid) (i : Nat) : Option State :=
  let ranks := s.recordRanks g i
  if ranks.all (s.rankStands g i) then
    let e := s.residency g i
    let site (r : Nat) : Nat := siteOfRank (resBase e) r (s.skipList e)
    let s := ranks.foldl (fun s r => s.replaySkid (site r)) s
    some ((s.modEntry g.handle i fun e => bumpGen (setMove false e)).openMoved g.handle i)
  else none

/-- The WRITE of a TMAP block: its new doubleword 0 and SKIPPA, and the generation. -/
def writeEntry (s : State) (g : Grid) (i : Nat) (d0 pa : Word) : State :=
  let field (e : BitVec 256) (lo n : Nat) : BitVec 256 := setField e lo n (d0.extractLsb' lo n).toNat
  (s.modEntry g.handle i fun e => bumpGen (setField (field (field (field (field e 0 16) 16 1) 17 1) 32 16) 64 64 pa.toNat)).dropEntries g.handle i

/-- TMAP on a block: its status, and the machine after it. -/
def mapBlock (s : State) (a key : Nat) : Nat × State :=
  let h := s.read64 key
  let i := s.readN (key + 8) 4
  let op := s.readN (key + 12) 1
  match s.mapGrid a h with
  | none => (2, s)
  | some g =>
    if g.complete || g.desc.gcnt ≤ i || i < g.lo || g.hi ≤ i || resRet (s.residency g i) then (2, s)
    else if op % 2 = 1 && (resGen (s.residency g i)).toNat ≠ s.readN (key + 16) 2 then (1, s)
    else
      let s := if op % 2 = 1 then s.writeEntry g i (s.read64 (key + 24)) (s.read64 (key + 32)) else s
      if op / 2 % 2 = 1 then
        match s.forwardSkid g i with
        | some s => (0, s)
        | none => (3, s.openMoved g.handle i)
      else (0, s.openMoved g.handle i)

/-- Another request holds, or waits for, the grant on the entry that a block names. -/
def mapBusy (s : State) (a key : Nat) : Bool :=
  match s.mapGrid a (s.read64 key) with
  | some g =>
    let k := rimKey (g.table + 32 * s.readN (key + 8) 4)
    s.holders.any (fun h => h.key == k) || s.resv.any fun r => dwordOf r.key == k
  | none => false

/-! ### ZERO and VOTE -/

/-- Zero a range of vaults: every word empty, its order-table entries freed, each doubleword a write (R404). -/
def zeroVaults (s : State) (key n : Nat) : State :=
  let s := (s.zeroRange key n).rollWatchers key n
  let s := { s with orders := s.orders.filter fun o => !(key ≤ o.key && o.key < key + n) }
  ((s.fe.filter fun r => key ≤ r.key && r.key < key + n).map fun r => dwordOf r.key).eraseDups.foldl (fun s k => s.feRescan k) s

/-- A vote's code: 41 to 126 act as 40 (R406). -/
def voteCode (c : Nat) : Nat := if c = 127 then 127 else min c 40

end State

/-! ### Meanings: system registers -/

/-- Whether an access to a system register is privileged in user mode. -/
def sysRules (r : SysReg) (write : Bool) : Op.Rules :=
  { compute := State.computeOnly r, privileged := State.sysPrivileged r write, held := write }

/-- MFS (R381). -/
def execMfs (c : Chain) (x : RegNum) (r : SysReg) (s : State) : Host.Outcome State Fault Refusal :=
  issue (sysRules r false) c s do
    Op.need [] [.g x]
    let s ← get
    Op.writeG x (s.sysRead s.cur.1 s.cur.2 r)
    Op.retire c

/-- MTS (R381): CLKDIV takes only 0 to 3 and waits for the voltage (R424); a 1 to TST.END ends the gang (R386). -/
def execMts (c : Chain) (x : RegNum) (r : SysReg) (s : State) : Host.Outcome State Fault Refusal :=
  issue (sysRules r true) c s do
    Op.need [.g x] []
    let w ← Op.readG x
    let s ← get
    let a := s.cur.1
    if r == .clkdiv then do
      Op.require (!w.getLsbD 2) 0x01 (c.word.setWidth 64)
      Op.await (!s.clockHeld a (w.extractLsb' 0 2).toNat) (.voltage (w.extractLsb' 0 2).toNat)
    modify fun s => s.sysWrite s.cur.1 s.cur.2 r w
    Op.retire c
    if r == .tst && w.getLsbD 3 then
      modify fun s => if State.isCore a then s.haltThread a s.cur.2 else s.endGang a s.cur.2 0 0

/-! ### Meanings: traps -/

/-- TRAP (R384): it completes, its next PC takes the loop step, and the handler is entered. -/
def execTrap (c : Chain) (imm : Word) (s : State) : Host.Outcome State Fault Refusal :=
  issue { held := true } c s do
    Op.retire c
    modify fun s => s.takeTrap s.cur.1 s.cur.2 0x08 false s.me.pc imm

/-- BRK (R384). -/
def execBrk (c : Chain) (imm : Word) (s : State) : Host.Outcome State Fault Refusal :=
  issue { held := true } c s (Op.trap 0x07 imm)

/-- ERET (R387); from a cancel handler it halts the thread (R385). -/
def execEret (c : Chain) (s : State) : Host.Outcome State Fault Refusal :=
  issue { held := true, privileged := true } c s do
    let s ← get
    if s.me.tcause.extractLsb' 0 8 == 0x09#8 then do
      Op.await s.me.relaxed.isEmpty .drained
      Op.retire c
      modify fun s => s.haltThread s.cur.1 s.cur.2
    else set (s.returnTrap s.cur.1 s.cur.2)

/-- SLEEP (R387). -/
def execSleep (c : Chain) (s : State) : Host.Outcome State Fault Refusal :=
  issue { held := true } c s (Op.park .sleep)

/-! ### Meanings: tile management (R397) -/

/-- Rules of every tile-management instruction. -/
def tileRules : Op.Rules := { held := true, privileged := true, drained := true }

/-- Read the site operand of an instruction. -/
def siteOperand (x : RegNum) : Op Nat := do
  let w ← Op.readG x
  let s ← get
  Op.require (siteOk s w) 0x03 w
  pure w.toNat

/-- A TSTOP begins to stop a tile: the rest of its gang is held (R390, R398). -/
def beginTstop (s : State) (b : Nat) (owner : StopOwner) : State :=
  let t := s.tile b
  let s := if t.mark == .original then s.modEntry t.handle (State.gangOf t.vtn) fun e => State.bumpGen (State.setMove true e) else s
  let late := (s.gangOfTile b).any fun g => g.cancelTrap
  s.modSite b fun y => { y with state := .stopping, stopBy := some owner, stopAt := if late then y.stopAt else y.cyc, atRest := false }

/-- The scheduler is saving the STOPPED tile of a site. -/
def saving (s : State) (b : Nat) : Bool := s.siteState b == .stopped && (s.site b).stopBy == some .scheduler

/-- Write a status and complete. -/
def status (c : Chain) (x : RegNum) (n : Nat) : Op Unit := do
  Op.writeG x (BitVec.ofNat 64 n)
  Op.retire c

/-- TSTOP (R398): a RUNNING tile's gang is held, and the tile goes through the steps of R392. A LOADED tile is so by TLOAD: a start and a
swap-in are each one step. -/
def execTstop (c : Chain) (x : RegNum) (s : State) : Host.Outcome State Fault Refusal :=
  issue tileRules c s do
    Op.need [.g x] [.g x]
    let b ← siteOperand x
    let s ← get
    match s.siteState b with
    | .running =>
      let owner := StopOwner.tstop s.cur.1 s.cur.2
      parkClaim c (.tstop b x) x fun s => beginTstop s b owner
    | .stopping => parkClaim c (.tstop b x) x id
    | .stopped => if saving s b then parkClaim c (.tstop b x) x id else status c x 0
    | .loaded | .free | .quarantined | .defective => status c x 1

/-- The operands of TSAVE and TLOAD, Y read first (R41): the site, then the image address, of tag 4 and a multiple of 4,096 (R397,
R399). -/
def siteAndImage (x y : RegNum) : Op (Nat × Word) := do
  let i ← Op.readG y
  let b ← siteOperand x
  let s ← get
  Op.require (State.tagOf i == 4 && s.addressOk s.cur.1 s.cur.2 i 8 Use.load) 0x03 i
  Op.require (aligned i 4096) 0x04 i
  pure (b, i)

/-- TSAVE (R399). -/
def execTsave (c : Chain) (x y : RegNum) (s : State) : Host.Outcome State Fault Refusal :=
  issue tileRules c s do
    Op.need [.g y, .g x] [.g x]
    let r ← siteAndImage x y
    let b := r.1
    let i := r.2
    let s ← get
    if s.siteState b != .stopped then status c x 1
    else do
      let l ← Op.lift (s.segments (s.threadAsker s.cur.1 s.cur.2) i State.imageSize { write := true, plain := false, kind := .store })
      let s := s.usedRange (s.threadAsker s.cur.1 s.cur.2) i State.imageSize
      set ((s.keepRests b).putPieces l (s.imageCells b) (s.imagePoison b))
      status c x 0

/-- TLOAD (R400): the site's tile is made from an image; a STOPPED tile there is discarded. -/
def execTload (c : Chain) (x y : RegNum) (s : State) : Host.Outcome State Fault Refusal :=
  issue tileRules c s do
    Op.need [.g y, .g x] [.g x]
    let r ← siteAndImage x y
    let b := r.1
    let i := r.2
    let s ← get
    Op.await (!saving s b) .supervisor
    if !(s.siteState b == .free || s.siteState b == .stopped) then status c x 1
    else do
      let l ← Op.lift (s.segments (s.threadAsker s.cur.1 s.cur.2) i State.imageSize { read := true, plain := false })
      let s := s.usedRange (s.threadAsker s.cur.1 s.cur.2) i State.imageSize
      let im := s.getPieces l
      let h : Word := BitVec.ofNat 64 (Mem.readN im.1 0x6308 8)
      let v : BitVec 32 := BitVec.ofNat 32 (Mem.readN im.1 0x6304 4)
      match s.headerGrid s.cur.1 (Mem.readN im.1 0x631C 1) h with
      | none => status c x 2
      | some g =>
        if Mem.readN im.1 0x6300 4 ≠ 1 || g.desc.gcnt ≤ State.gangOf v || g.desc.gsz ≤ State.rankOf v then status c x 2
        else do
          let s := if s.siteState b == .stopped then s.discardTile b else s
          let s := (s.setMcrN (0x60000 + b) 1 0).installImage b im.1 im.2 .original g.vd g.handle
          let s := s.modSite b fun z => { z with state := .loaded, stopBy := none }
          let s := (s.moveRank g.handle v b).unbench b
          -- until MOVE is 0 its pad takes nothing that is not replayed (R263)
          set (s.modTile b fun t => { t with sealed := s.gangHeld g.handle (State.gangOf v) })
          status c x 0

/-- TGO (R401): the tile runs; its waits are re-armed (R198), its arrivals are sent again, and its pad serves unless MOVE is 1. -/
def execTgo (c : Chain) (x : RegNum) (s : State) : Host.Outcome State Fault Refusal :=
  issue tileRules c s do
    Op.need [.g x] [.g x]
    let b ← siteOperand x
    let s ← get
    Op.await (!saving s b) .supervisor
    if !(s.siteState b == .loaded || s.siteState b == .stopped) then status c x 1
    else do
      let s := if s.siteState b == .stopped then s.modTile b fun t => { t with threads := t.threads.map State.rearm } else s
      let s := ((s.modSite b fun z => { z with state := .running, stopBy := none }).rejoin b).decideTile b
      let t := s.tile b
      set (if t.mark == .original then s.openMoved t.handle (State.gangOf t.vtn) else s.openRerun b)
      status c x 0

/-- TMAP (R402). -/
def execTmap (c : Chain) (x y : RegNum) (s : State) : Host.Outcome State Fault Refusal :=
  issue tileRules c s do
    Op.need [.g y] [.g x]
    let b ← Op.readG y
    Op.require (inPad b 64) 0x03 b
    Op.require (aligned b 64) 0x04 b
    let s ← get
    let key := tileKey s.cur.1 (State.fieldOf b 0 16)
    match (List.range 8).find? fun i => s.isPoisoned (key + 8 * i) with
    | some i => Op.trap 0x0A (b + BitVec.ofNat 64 (8 * i))
    | none => pure ()
    Op.await (!s.mapBusy s.cur.1 key) .supervisor
    let r := s.mapBlock s.cur.1 key
    set r.2
    status c x r.1

/-- TQUAR (R403): only a service core may, which is judged with the privilege (R38). -/
def execTquar (c : Chain) (x : RegNum) (s : State) : Host.Outcome State Fault Refusal :=
  issue { tileRules with core := true } c s do
    Op.need [.g x] [.g x]
    let b ← siteOperand x
    let s ← get
    match s.siteState b with
    | .quarantined | .defective => status c x 1
    | .free | .loaded | .running | .stopping | .stopped => do
      set (s.quarantine b)
      status c x 0

/-- ZERO (R404): other accesses to the range wait, so the whole of it is one step. -/
def execZero (c : Chain) (x y : RegNum) (s : State) : Host.Outcome State Fault Refusal :=
  issue tileRules c s do
    Op.need [.g y, .g x] [.g x]
    let n ← Op.readG y
    let a ← Op.readG x
    let s ← get
    let lo := State.fieldOf a 0 36
    Op.require (State.tagOf a == 2 && State.fieldOf a 36 24 == 0 && decide (lo + n.toNat ≤ s.plenOf s.cur.1 * 1048576)) 0x03 a
    Op.require (a.toNat % 8 == 0 && n.toNat % 8 == 0) 0x04 a
    let key := vaultKey (s.pbaseOf s.cur.1) lo
    Op.await (!(s.zeroing.any fun z => vaultKey z 0 < key + n.toNat && key < vaultKey (z + 1) 0)) .supervisor
    set (s.zeroVaults key n.toNat)
    status c x 0

/-- TLBINV (R405). -/
def execTlbinv (c : Chain) (x y : RegNum) (s : State) : Host.Outcome State Fault Refusal :=
  issue tileRules c s do
    Op.need [.g y, .g x] [.g x]
    let start ← Op.readG y
    let w ← Op.readG x
    let s ← get
    let vd := if State.isCore s.cur.1 then (w.extractLsb' 0 8).toNat else s.vdOf s.cur.1
    let units := let n := (w.extractLsb' 32 32).toNat; if n = 0 then 2 ^ 32 else n
    let space := if w.getLsbD 8 then some (w.extractLsb' 16 16).toNat else none
    let range := if w.getLsbD 9 then some ((start.extractLsb' 16 40).toNat * 65536, units * 65536) else none
    set (s.invalidate vd space range).retryOutside
    status c x 0

/-- VOTE (R406): answers with the VD's previous code. -/
def execVote (c : Chain) (x : RegNum) (s : State) : Host.Outcome State Fault Refusal :=
  issue tileRules c s do
    Op.need [.g x] [.g x]
    let w ← Op.readG x
    let s ← get
    let vd := if State.isCore s.cur.1 then (w.extractLsb' 8 8).toNat else s.vdOf s.cur.1
    let n := State.voteCode (w.extractLsb' 0 7).toNat
    set { s with votes := if n = 127 then Tab.erase s.votes vd else Tab.set s.votes vd n }
    status c x ((Tab.get? s.votes vd).getD 127)

end Sys2Proof.Machine
end

