-- ==== Sys2Proof/Machine/Platform.lean ====
section
/-! DEFINITION. The platform: boot (R420-R422), host launch queues (R414-R416), control register writes by module software (R411-R413,
R423), voltage and energy (R424, R425), thermal derating (R428), pod links (R417), and the appends of waiting records (R456). -/

namespace Sys2Proof.Machine
namespace State

/-! ### Host launch queues (R414, R415) -/

/-- Offset of a field of a queue's descriptor. -/
def hlqOff (q off : Nat) : Nat := 0x1100 + 32 * q + off
def hlqBase (s : State) (q : Nat) : Word := BitVec.ofNat 64 (s.mcrN (hlqOff q 0) 8)
def hlqCap (s : State) (q : Nat) : Nat := max 1 (s.mcrN (hlqOff q 8) 4)
def hlqTail (s : State) (q : Nat) : Nat := s.mcrN (hlqOff q 12) 4
def hlqHead (s : State) (q : Nat) : Nat := s.mcrN (hlqOff q 16) 4
def hlqCore (s : State) (q : Nat) : Nat := s.mcrN (hlqOff q 20) 4 % 4
def hlqErr (s : State) (q : Nat) : Bool := s.mcrN (hlqOff q 24) 1 % 2 == 1
def setStage (s : State) (q : Nat) (x : HostStage) : State := { s with hostQueues := Tab.set s.hostQueues q x }
def clearStage (s : State) (q : Nat) : State := { s with hostQueues := Tab.erase s.hostQueues q }

/-- The queue stops with ERR, the failed position and an interrupt. -/
def hlqStop (s : State) (q : Nat) : State :=
  ((s.setMcrN (hlqOff q 24) 8 (1 + s.hlqHead q * 2 ^ 32)).clearStage q).hostSend (s.hlqCore q) (.interrupt (s.hlqCore q) q)

/-- Both SEQ fields equal (HEAD + 1) mod 2^32. -/
def hlqValid (s : State) (q r : Nat) : Bool :=
  let n := (s.hlqHead q + 1) % 2 ^ 32
  descField r 0 8 == n && descField r 56 8 == n

/-- Execute LAUNCH for a valid record: as the host's VD, without a launching tile. -/
def hlqLaunch (s : State) (q r : Nat) : State :=
  let s := s.setStage q (.launched (BitVec.ofNat 64 (descField r 16 8)))
  let d : Word := BitVec.ofNat 64 (descField r 8 8)
  s.postMsg { id := 0, kind := .launch d, agent := 65536 + s.hlqCore q, thread := 0, vtn := 0xFFFFFFFF#32, handle := 0, vd := s.hostVd,
              sup := true, queue := some q } false

/-- One read of the record at HEAD, after `n` invalid ones. -/
def hlqRead (s : State) (q n : Nat) (hold : Option Park) : State :=
  let addr := s.hlqBase q + BitVec.ofNat 64 (64 * (s.hlqHead q % s.hlqCap q))
  match s.attempt hold (s.readRange (s.hostAsker (s.hlqCore q)) addr 64) with
  | .bad _ _ => s.hlqStop q
  | .wait p s' => s'.setStage q (.reading n p)
  | .ok r =>
    let s := s.usedRange (s.hostAsker (s.hlqCore q)) addr 64
    if s.hlqValid q r then s.hlqLaunch q r
    else if n < 16 then s.setStage q (.retry (n + 1)) else s.hlqStop q

/-- HEAD advances: the record is done. -/
def hlqAdvance (s : State) (q : Nat) : State := (s.setMcrN (hlqOff q 16) 4 (s.hlqHead q + 1)).clearStage q

/-- Store the handle at the result address, then advance HEAD; a result that cannot be stored is dropped (log 32). -/
def hlqResult (s : State) (q : Nat) (result value : Word) (hold : Park) : State :=
  if result == 0 || result.toNat % 8 != 0 then s.hlqAdvance q
  else match s.attempt (some hold) (s.writeRange (s.hostAsker (s.hlqCore q)) result 8 value.toNat) with
    | .ok s' => s'.hlqAdvance q
    | .wait p s' => s'.setStage q (.storing result value p)
    | .bad _ _ => s.hlqAdvance q

/-! ### Boot (R420-R422) -/

/-- One byte of the CRC-32 of IEEE 802.3. -/
def crcByte (c : BitVec 32) (b : Byte) : BitVec 32 :=
  (List.range 8).foldl (fun c _ => if c.getLsbD 0 then (c >>> 1) ^^^ 0xEDB88320#32 else c >>> 1) (c ^^^ b.setWidth 32)

/-- A byte of a flash region as it stands now (R421). -/
def flashNow (s : State) (region off : Nat) : Byte := (Tab.get? s.flash (region * 2 ^ 32 + off)).getD (flashByte region off)
def flashNowN (s : State) (region off n : Nat) : Nat := (List.range n).foldr (fun i r => (s.flashNow region (off + i)).toNat + 256 * r) 0
/-- What has been written into a flash region since reset. -/
def flashWritten (s : State) (region : Nat) : List Host.Cell := s.flash.filter fun c => c.1 / 2 ^ 32 == region
/-- The signature of a flash region verifies. -/
def signedNow (s : State) (region : Nat) : Bool := Config.signed (s.flashWritten region) region

/-- The CRC of a marker copy's eight sectors, its CRC field taken as zero. -/
def markerCrc (s : State) (region : Nat) : BitVec 32 :=
  ~~~((List.range 4096).foldl (fun c i => crcByte c (if 508 ≤ i && i < 512 then 0 else s.flashNow region i)) 0xFFFFFFFF#32)

def markerSeq (s : State) (copy : Nat) : Nat := s.flashNowN (2 + copy) 8 8
def markerSlot (s : State) (copy : Nat) : Nat := s.flashNowN (2 + copy) 16 1
/-- A copy is valid: magic, CRC and signature all check. -/
def markerValid (s : State) (copy : Nat) : Bool :=
  s.flashNowN (2 + copy) 0 4 == 0x52574D4B && s.flashNowN (2 + copy) 508 4 == (s.markerCrc (2 + copy)).toNat && s.signedNow (2 + copy)

/-- The ruling marker copy: the valid one with the higher sequence, copy 0 on a tie. -/
def rulingCopy (s : State) : Option Nat :=
  match s.markerValid 0, s.markerValid 1 with
  | true, true => if s.markerSeq 0 < s.markerSeq 1 then some 1 else some 0
  | true, false => some 0
  | false, true => some 1
  | false, false => none

/-- The slot to boot: the named one, else the other; with no marker, 0 then 1 (R421). -/
def bootSlot (s : State) : Option Nat :=
  let first := match s.rulingCopy with
    | some k => s.markerSlot k % 2
    | none => 0
  if s.signedNow first then some first else if s.signedNow (1 - first) then some (1 - first) else none

/-- Sites that the blob does not record as defective. -/
def countWorking : Nat := ((List.range 65536).filter fun a => !siteDefective a).length

/-- The identity block: bin, serial and working sites from the blob. -/
def writeIdentity (s : State) : State :=
  let s := s.setMcrN 8 8 moduleBin
  (s.setMcrN 16 8 (flashN 4 8 8)).setMcrN 24 8 countWorking

/-- Boot status: slot, ruling copy and sequence, recovery flag; the record of a trip stays (log 31). -/
def writeBootStatus (s : State) (recovery : Bool) : State :=
  let s := s.setMcrN 0x100 8 (s.bootSlot.getD 0)
  let s := s.setMcrN 0x108 8 (s.rulingCopy.getD 0)
  let s := s.setMcrN 0x110 8 (match s.rulingCopy with
    | some k => s.markerSeq k
    | none => 0)
  s.setMcrN 0x118 8 (if recovery then 1 else 0)

/-- The registers of a service core at boot: four threads in supervisor mode (R378; log 5, log 21). -/
def bootCore (s : State) (q : Nat) : State :=
  let a := 65536 + q
  let t : Thread := { live := true, pc := 0x4000000000000000, tst := 1 }
  s.setTile a { vtn := 0xFFFFFFF0#32 + BitVec.ofNat 32 q, threads := Vector.replicate 4 t }

/-! ### Attestation (R422; log 22) -/

def reportBytes : Nat := 4096

/-- The report: free bytes for what it holds, the measurements, the nonce, the serial, the feature grant and the module number. -/
def reportData (s : State) : Nat :=
  (List.range reportBytes).foldr (fun i r =>
    (Config.report s.measured (s.mcrN 0x200 32) (s.mcrN 16 8) (s.mcrN 0x50 16) s.moduleNo s.free i).toNat + 256 * r) 0

/-- The measurements of a boot of a slot. -/
def measurements (s : State) (slot : Nat) : List Nat :=
  let of (region : Nat) : Nat := Config.measure (s.flashWritten region) region
  [of slot, of 4] ++ (s.rulingCopy.toList.map fun k => of (2 + k))

/-- Write the report a request asks for; the status says whether its address faulted. -/
def attest (s : State) : State :=
  let addr : Word := s.read64 (mcrKey 0x228)
  let done (s : State) (n : Nat) : State := { (s.setMcrN 0x230 8 n).setMcrN 0x220 8 0 with attestHold := none, free := s.free + 1 }
  match s.attempt s.attestHold (s.writeRange (s.hostAsker 0) addr reportBytes s.reportData) with
  | .ok s' => done s' 1
  | .wait p s' => { s' with attestHold := some p }
  | .bad _ _ => done s 2

/-! ### Voltage and energy (R424, R425) -/

/-- The partition of a VD holds a site of a course. -/
def vdOn (s : State) (course vd : Nat) : Bool := s.vdActive vd && (List.range (s.vdPlen vd)).any fun i => courseOf (s.vdPbase vd + i) == course
/-- Active VDs whose partitions hold a site of a course. -/
def vdsOn (s : State) (course : Nat) : List Nat := (List.range 256).filter (s.vdOn course)

/-- The highest vote on a course. -/
def highVote (s : State) (course : Nat) : Option Nat :=
  ((s.vdsOn course).filterMap fun v => Tab.get? s.votes v).foldl (fun b c => some (max (b.getD 0) c)) none

/-- The floor of a course for the clocks of its RUNNING tiles, those of one VD or of all, with the clocks that an MTS waits for (R424;
log 2). -/
def courseFloor (s : State) (course : Nat) (vd : Option Nat) : Nat :=
  s.tiles.foldl (fun n p =>
    if isCore p.1 || courseOf p.1 != course || s.siteState p.1 != .running || vd.any (· != p.2.vd) then n
    else
      let waits := [0, 1, 2, 3].foldl (fun m th => match (s.thread p.1 th).park with
        | some (.voltage d) => max m (floorOf d)
        | _ => m) 0
      max n (max waits (floorOf (s.siteNow p.1).clkdiv.toNat))) 0

/-- The boundary of a window at one course: the voltage that it has reached, the code in force from now on, and the highest vote, 127
where there is none (log 33). -/
def windowAt (s : State) (course : Nat) : State :=
  let v := s.highVote course
  let code := max (v.getD 10) (s.courseFloor course none)
  { s with volts := Tab.set s.volts course (s.voltsOf course) }.setMcrN (0x50000 + 4 * course) 2 (code + 256 * v.getD 127)

/-- Threads of a course whose MTS of CLKDIV waits no more go on. -/
def freeClocks (s : State) (course : Nat) : State :=
  s.tiles.foldl (fun s p => if isCore p.1 || courseOf p.1 != course then s
    else [0, 1, 2, 3].foldl (fun s th => match (s.thread p.1 th).park with
      | some (.voltage d) => if s.clockHeld p.1 d then s else s.modThread p.1 th fun t => { t with park := none }
      | _ => s) s) s

/-- The energy of a VD in the window that ends, in microjoules: its activity on each course, scaled by the square of the voltage, in
volts, of its own vote or of its floor where that is higher (R425, R406; log 17). -/
def windowEnergy (s : State) (vd : Nat) : Nat :=
  (((List.range 4096).filter fun c => s.vdOn c vd).map fun c =>
    let mv := 400 + 5 * max ((Tab.get? s.votes vd).getD 0) (s.courseFloor c (some vd))
    Config.energy vd c s.free * mv ^ 2).sum / 1000000

/-- Energy charged to each active VD (R425). -/
def chargeEnergy (s : State) : State :=
  ((List.range 256).filter s.vdActive).foldl (fun t v =>
    t.setMcrN (0x80000 + 8 * v) 8 (s.mcrN (0x80000 + 8 * v) 8 + s.windowEnergy v)) { s with free := s.free + 1 }

/-! ### Thermal derating (R428) -/

/-- The step of a stack at a temperature: up above 85 and 95 degrees, down 5 degrees below the threshold. -/
def nextStep (step tenths : Nat) : Nat :=
  if 950 < tenths then 2
  else if 850 < tenths then (if step = 2 && 900 < tenths then 2 else 1)
  else if 800 < tenths then min step 1
  else 0

/-- BWDERATE to the health queue and to the supervisor queue of every active VD. -/
def derateRecords (s : State) (stack : Nat) : State :=
  let f := s.stackFraction stack
  let s := s.healthRecord 7 stack 0 f 0
  ((List.range 256).filter s.vdActive).foldl (fun s v => s.addRecord (.supervisor v)
    (record256 [(0, 8, s.time.toNat), (8, 1, stack), (10, 1, v), (11, 1, 12), (12, 4, f)])) s

/-- The thermal status of a stack; a fraction of 256 does not fit its field, which then reads an open value (log 28). -/
def thermalWord (s : State) (stack tenths : Nat) : Nat :=
  let f := s.stackFraction stack
  tenths % 2 ^ 16 + 2 ^ 16 * (if f < 256 then f else (Config.openValue s.free).toNat % 256)

/-! ### Appends of records (R456) -/

/-- The physical descriptor of a record's queue; none while module software has set none. -/
def recordHdr (s : State) (q : RecordQueue) : Option Nat :=
  let n := match q with
    | .supervisor vd => s.vdSupQueue vd
    | .health => s.mcrN 0x1048 8
    | .cruise => s.mcrN 0x1040 8
  if n = 0 then none else some n

end State

/-! ### Events -/

/-- HOST_LAUNCH_DOORBELL (R414): the host writes TAIL. -/
def execHostLaunchDoorbell (queue : Nat) (tail : BitVec 32) (s : State) : Host.Outcome State Fault Refusal :=
  .next (s.setMcrN (State.hlqOff queue 12) 4 tail.toNat)

/-- HOST_LAUNCH_RECORD_READ (R415): the record at HEAD is read, or its handle stored. -/
def execHostLaunchRecordRead (queue : Nat) (s : State) : Host.Outcome State Fault Refusal :=
  match Tab.get? s.hostQueues queue with
  | some (.reading n p) => .next (s.hlqRead queue n (some p))
  | some (.storing r v p) => .next (s.hlqResult queue r v p)
  | some (.retry _) | some (.launched _) => .next s
  | none => if s.hlqHead queue = s.hlqTail queue || s.hlqErr queue then .next s else .next (s.hlqRead queue 0 none)

/-- HOST_RECORD_RETRY (R415): 256 ns after an invalid read. -/
def execHostRecordRetry (queue : Nat) (s : State) : Host.Outcome State Fault Refusal :=
  match Tab.get? s.hostQueues queue with
  | some (.retry n) => .next (s.hlqRead queue n none)
  | _ => .next s

/-- HOST_QUEUE_RESUME (R415): the host writes 0 to ERR. -/
def execHostQueueResume (queue : Nat) (s : State) : Host.Outcome State Fault Refusal :=
  .next (s.setMcrN (State.hlqOff queue 24) 1 (s.mcrN (State.hlqOff queue 24) 1 / 2 * 2))

/-- FEATURE_REQUEST_WRITE (R423). -/
def execFeatureRequestWrite (value : BitVec 128) (s : State) : Host.Outcome State Fault Refusal := .next (s.writeFeatures value)

/-- ATTESTATION_REQUEST (R422). -/
def execAttestationRequest (s : State) : Host.Outcome State Fault Refusal :=
  if s.mcrN 0x220 8 = 1 then .next s.attest else .next s

/-- VD_ENTRY_WRITE (R388, R413). -/
def execVdEntryWrite (vd offset : Nat) (value : Word) (s : State) : Host.Outcome State Fault Refusal :=
  .next (s.mcrWrite (0x10000 + 512 * vd + offset) value)

/-- VAULT_ZERO_DONE (R159): the vault is clear, and accesses that wait for it go on. -/
def execVaultZeroDone (site : Nat) (s : State) : Host.Outcome State Fault Refusal :=
  if s.zeroing.contains site then .next { s.zeroVault site with zeroing := s.zeroing.filter (· != site) } else .next s

/-- SITE_POWER_WRITE (R413, R426). -/
def execSitePowerWrite (site : Nat) (bits : BitVec 2) (s : State) : Host.Outcome State Fault Refusal := .next (s.writePower site bits.toNat)

/-- MCR_WRITE (R412). -/
def execMcrWrite (offset : Nat) (value : Word) (s : State) : Host.Outcome State Fault Refusal := .next (s.mcrWrite offset value)

/-- STATION_REPLAY_WRITE (R156): the fault with the tag is walked again or aborted. -/
def execStationReplayWrite (station : Nat) (value : Word) (s : State) : Host.Outcome State Fault Refusal :=
  .next (s.mcrWrite (0x2000 + 8 * station) value).retryOutside

/-- POD_LINK_DOWN (R417): 64 replays in a row take the link down. -/
def execPodLinkDown (port : Nat) (s : State) : Host.Outcome State Fault Refusal :=
  if s.portsDown.contains port || (Tab.get? s.flitReplays port).getD 0 < 64 then .next s
  else
    let s := { s with
      portsDown := NSet.insert s.portsDown port
      downAt := Tab.set s.downAt port s.time.toNat
      flitReplays := Tab.erase s.flitReplays port }
    .next (s.healthRecord 6 port 0 0 0)

/-- MODULE_BOOT (R421): the slot is chosen and the service cores start; without one, or without the blob, the module stays in recovery
mode. -/
def execModuleBoot (s : State) : Host.Outcome State Fault Refusal :=
  if s.booted then .next s
  else
    let recovery := s.bootSlot.isNone || !s.signedNow 4
    let s := { s.writeBootStatus recovery with booted := true, recovery := recovery, measured := s.bootSlot.toList.flatMap s.measurements }
    if recovery then .next s else .next ([0, 1, 2, 3].foldl State.bootCore s.writeIdentity)

/-- OVERCURRENT_TRIP (R427): the module resets, and the trip stands in the boot status; flash stays. -/
def execOvercurrentTrip (s : State) : Host.Outcome State Fault Refusal :=
  .next ({ State.reset with agenda := s.agenda, choice := s.choice, free := s.free, flash := s.flash }.setMcrN 0x120 8 1)

/-- VOLTAGE_WINDOW (R424, R425): at a boundary energy is charged for the window that ends, and every course takes its code. -/
def execVoltageWindow (s : State) : Host.Outcome State Fault Refusal :=
  if !s.windowDue then .next s
  else .next { (List.range 4096).foldl State.windowAt s.chargeEnergy with windows := s.windows + 1 }

/-- VOLTAGE_RAMP_DONE (R424): a course's voltage has reached its code in force, and an MTS that has waited for it may issue. -/
def execVoltageRampDone (course : Nat) (s : State) : Host.Outcome State Fault Refusal :=
  if s.voltsOf course = s.codeOf course then .next (s.freeClocks course) else .next s

/-- STACK_THERMAL_CHANGE (R428). -/
def execStackThermalChange (stack tenths : Nat) (s : State) : Host.Outcome State Fault Refusal :=
  let old := (Tab.get? s.stackStep stack).getD 0
  let step := State.nextStep old tenths
  let s := { s with stackStep := Tab.set s.stackStep stack step, free := s.free + 1 }
  let s := s.setMcrN (0x81000 + 8 * stack) 8 (s.thermalWord stack tenths)
  .next (if step = old then s else s.derateRecords stack)

/-- QUEUE_RECORD_APPEND (R456): the oldest waiting record of a queue enters its ring, when it has room. -/
def execQueueRecordAppend (index : Nat) (s : State) : Host.Outcome State Fault Refusal :=
  match s.records[index]? with
  | none => .next s
  | some r =>
    if (s.records.take index).any fun x => x.queue == r.queue then .next s
    else match s.recordHdr r.queue with
      | none => .next s
      | some hdr => match s.ringAppend hdr r.bytes with
        | some s => .next { s with records := s.records.eraseIdx index }
        | none => .next s

end Sys2Proof.Machine
end

