-- ==== Sys2Proof/Machine/Fetch.lean ====
section
/-! DEFINITION. Instruction fetch (R129-R135): the course instruction caches, fills, fetch faults, and reading a chain. -/

namespace Sys2Proof.Machine

/-- The target of a direct branch, jump or loop, relative to its chain (R133). -/
def directTarget : Instr → Option Word
  | .j _ imm | .call _ imm => some imm
  | .bz _ _ imm | .bnz _ _ imm | .bltz _ _ imm | .bgez _ _ imm => some imm
  | .bq _ _ imm | .bnq _ _ imm => some imm
  | .beq _ _ _ imm | .bne _ _ _ imm | .blt _ _ _ imm | .bge _ _ _ imm | .bltu _ _ _ imm | .bgeu _ _ _ imm => some imm
  | .loop _ _ imm => some imm
  | _ => none

namespace State

/-! ### Counting errors (R133, R168, R408) -/

/-- A health record of kind 1 or 2: it takes the place of a waiting one of the same kind, memory and place (R456). -/
def errorRecord (s : State) (kind memory place value : Nat) (addr : Word) : State :=
  let s' := s.healthRecord kind memory place value addr
  let waits (r : PendingRecord) : Bool := r.queue == .health && r.bytes.extractLsb' 0 32 == BitVec.ofNat 32 (kind + 256 * memory + 65536 * (place % 65536))
  if s.records.any waits then
    match s'.records.getLast? with
    | some n => { s with records := mapIf waits (fun _ => n) s.records }
    | none => s'
  else s'

/-- A memory error found in the doubleword at a key: counted where it belongs, and poisoned unless corrected (R168). A count that has
saturated does not increase, and sends no record (R408). -/
def strike (s : State) (key : Nat) (corrected : Bool) : State :=
  let d := dwordOf key
  let kind := if corrected then 1 else 2
  let s' := if corrected then s else { s with poison := NSet.insert s.poison d }
  let atSite (a memory : Nat) (addr : Nat) : State :=
    let s := s'.modSite a fun x => if corrected then { x with corr := count16 x.corr } else { x with unc := count16 x.unc }
    let n := (if corrected then (s.site a).corr else (s.site a).unc).toNat
    if n = (if corrected then (s'.site a).corr else (s'.site a).unc).toNat then s
    else s.errorRecord kind memory (a % 65536) n (BitVec.ofNat 64 addr)
  match regionOf d with
  | .rim =>
    if rimBytes ≤ d then s
    else
      let st := stationOf d
      let off := 0x81100 + 8 * st + (if corrected then 0 else 2)
      let old := BitVec.ofNat 16 (s.mcrN off 2)
      if old == 0xFFFF#16 then s' else (s'.setMcrN off 2 (old.toNat + 1)).errorRecord kind 3 st (old.toNat + 1) (BitVec.ofNat 64 d)
  | .vault site => if site < 65536 then atSite site 1 (d - vaultKey site 0) else s
  | .tile a => if d - tileKey a 0 < 0x6000 then atSite a 0 (d - tileKey a 0) else s
  | .mcr => s

/-! ### The course cache -/

/-- The ways a VD may fill on a course: its entry of the way-allocation table, or all eight. -/
def wayMask (s : State) (course vd : Nat) : BitVec 8 :=
  let e (i : Nat) : Nat := s.mcrN (0x40000 + 16 * course + 2 * i) 2
  match (List.range 8).find? fun i => e i % 256 == vd && e i / 256 != 0 with
  | some i => BitVec.ofNat 8 (e i / 256)
  | none => 0xFF#8

def treeOf (s : State) (course line : Nat) : BitVec 7 := (Tab.get? s.plru (course * 128 + line % 128)).getD 0

/-- A line is used. -/
def touchLine (s : State) (l : CacheLine) : State :=
  { s with plru := Tab.set s.plru (l.course * 128 + l.line % 128) (plruTouch (s.treeOf l.course l.line) l.way) }

/-- Put a line in the way that the tree chooses. One that is there already stays as it is, since no fill takes its place (R132), unless
doublewords of it were bad when it was read: it is then filled afresh in its own way, without the tree or the way mask (DESIGN CHOICE,
log 92). -/
def installLine (s : State) (l : CacheLine) : State :=
  let put (w : Nat) : State :=
    let l := { l with way := w }
    let s := { s with icache := l :: s.icache.filter fun x => !(x.course == l.course && x.line % 128 == l.line % 128 && x.way == w) }
    s.touchLine l
  match s.lineFind l.course l.vd l.space l.line with
  | none => put (plruVictim (s.treeOf l.course l.line) (s.wayMask l.course l.vd))
  | some x =>
    if x.bad != 0#8 then put x.way
    else { s with icache := mapIf (fun y => y == x) (fun y => { y with user := l.user }) s.icache }

/-! ### Fetching a halfword -/

/-- A fetch asks for X in place of R (R129). -/
def fetchUse (ahead : Bool) : Use := { exec := true, plain := false, kind := .fetch, ahead := ahead }

/-- Who asks for a thread's fetch; its space is the supervisor's in supervisor mode (R378). -/
def fetchAsker (s : State) (a th : Nat) : Asker :=
  ⟨entryStation a, s.vdOf a, s.fetchSpace a th, s.recordVtn a, th, (s.thread a th).sup⟩

/-- The line of a fetch address. -/
def lineOf (va : Word) : Nat := va.toNat % 2 ^ 56 / 64

/-- The translation of a line for a fill: entered by its first miss (R131). -/
def fillAsk (s : State) (lead : Fill) (ahead : Bool) : Res Nat :=
  s.translateAt { s.fetchAsker lead.agent lead.thread with vd := lead.vd, space := lead.space, sup := !ahead || (s.thread lead.agent lead.thread).sup }
    (BitVec.ofNat 64 lead.line * 64 ||| 0x4000000000000000#64) (fetchUse ahead)

/-- A fetch asks for a line: it joins the fill that is under way, or starts one, whose translation may wait (R131). A fault is left to
the caller. -/
def askLine (s : State) (f : Fill) : Res State :=
  let lead := s.leadOf f
  let join (s : State) (hold : Option Park) : State := { s with fills := s.fills ++ [{ f with hold := hold }] }
  if s.fills.any (sameFill f) then
    match lead.hold, if f.ahead then .ok 0 else s.fillAsk lead false with
    | some (.pageFault _), _ => .ok (join s lead.hold)
    | _, .error (.parkIn _ s') => .ok (join (s.keepRequests s') lead.hold)
    | _, _ => .ok (join s lead.hold)
  else match s.fillAsk f f.ahead with
    | .error (.park p) => .ok (join s (some p))
    | .error (.parkIn p s') => .ok (join (s.keepRequests s') (some p))
    | .error e => .error e
    | .ok _ => .ok (join s none)

/-- A fetch of a tile's thread. -/
def fillOf (s : State) (a th : Nat) (va : Word) : Fill :=
  { agent := a, thread := th, course := courseOf a, vd := s.vdOf a, space := s.fetchSpace a th, line := lineOf va }

/-- A miss waits for its line, or meets a fault at once. -/
def fetchMiss (s : State) (a th : Nat) (va : Word) : Stop :=
  match s.askLine (s.fillOf a th va) with
  | .ok s' => .parkIn (.fetch va) s'
  | .error e => underName va e

/-- One halfword for a thread: from the course cache, or for a service core from rim memory (R12, R129-R133). -/
def fetchHalf (s : State) (a th : Nat) (va : Word) : Res (Half × State) :=
  if !(tagOf va == 4 && fieldOf va 56 4 == 0 && s.spaceValid (s.vdOf a) (s.fetchSpace a th)) then .error (.trap 0x03 va)
  else if isCore a then
    match s.translateAt (s.fetchAsker a th) va (fetchUse false) with
    | .error e => .error e
    | .ok key =>
      if s.isPoisoned key then .error (.trap 0x0A va) else .ok (BitVec.ofNat 16 (s.readN key 2), s.usedBy (s.fetchAsker a th) va)
  else match s.lineFind (courseOf a) (s.vdOf a) (s.fetchSpace a th) (lineOf va) with
    | some l =>
      if ((s.thread a th).sup || l.user) && !l.bad.getLsbD (va.toNat / 8 % 8)
      then .ok (l.data.extractLsb' (16 * (va.toNat / 2 % 32)) 16, s.touchLine l)
      else .error (s.fetchMiss a th va)
    | none => .error (s.fetchMiss a th va)

/-- Read a chain one halfword at a time: the instruction, or why it is none (R35, R38). -/
def fetchChain (s : State) (a th : Nat) (p : Prefixes) (va : Word) : Nat → Res (Except DecodeError Instr × State)
  | 0 => .ok (.error .truncated, s)
  | n + 1 => match s.fetchHalf a th va with
    | .error e => .error e
    | .ok (h, s) => match p.feed h with
      | .more p => fetchChain s a th p (va + 2) n
      | .done i => .ok (.ok i, s)
      | .bad e => .ok (.error e, s)

/-! ### Fills -/

/-- The address of a line. -/
def lineAddr (line : Nat) : Word := BitVec.ofNat 64 line * 64 ||| 0x4000000000000000#64

/-- Doublewords of a line at a key that are poisoned. -/
def badIn (s : State) (key : Nat) : BitVec 8 :=
  BitVec.ofNat 8 ((List.range 8).foldl (fun m i => if s.isPoisoned (key + 8 * i) then m + 2 ^ i else m) 0)

/-- The threads that wait for a fill, with the halfword each wants. -/
def fillWaiters (s : State) (f : Fill) : List (Nat × Nat × Word) :=
  (s.fills.filter fun g => sameFill f g && !g.ahead).filterMap fun g => match (s.thread g.agent g.thread).park with
    | some (.fetch va) => some (g.agent, g.thread, va)
    | _ => none

/-- A fill is over; what the fetch unit met in it is counted, at the site of its first miss (R133). -/
def endFill (s : State) (f : Fill) (counts : Bool) : State :=
  let lead := s.leadOf f
  let unit := s.fills.any fun g => sameFill f g && g.unit
  let s := { s with fills := s.fills.filter fun g => !sameFill f g }
  if counts && unit then s.countFetch lead.agent else s

/-- A fetch that waited has met a fault: it traps, but where the fill was begun ahead it is made afresh (R133). -/
def fetchFault (s : State) (afresh : Bool) (cause : BitVec 8) (w : Nat × Nat × Word) : State :=
  if afresh then s.modThread w.1 w.2.1 fun t => { t with park := none } else s.trapThread w.1 w.2.1 cause w.2.2

/-- A fill ends by a fault of every fetch that waits for it. -/
def fillFault (s : State) (f : Fill) (cause : BitVec 8) : State :=
  let ws := s.fillWaiters f
  let afresh := (s.leadOf f).ahead
  ws.foldl (fun s w => s.fetchFault afresh cause w) (s.endFill f true)

/-- The data of a fill: the line, the waiting fetches judged each by its own permission and doubleword (R131, R133). Fetches ahead alone
that meet an error are dropped (R135). -/
def fillData (s : State) (f : Fill) (key : Nat) (user : Bool) : State :=
  let ws := s.fillWaiters f
  let bad := s.badIn key
  let mine := s.fills.filter (sameFill f)
  let denied := mine.any fun g => g.unit && !user && !(s.thread g.agent g.thread).sup
  let afresh := (s.leadOf f).ahead
  let dropped := mine.all (fun g => g.ahead) && bad != 0#8
  let s := s.endFill f (bad != 0#8 || denied)
  let s := if dropped then s else s.installLine { course := f.course, way := 0, vd := f.vd, space := f.space, line := f.line,
                                                  data := BitVec.ofNat 512 (s.readN key 64), user := user, bad := bad }
  ws.foldl (fun s w =>
    if !((s.thread w.1 w.2.1).sup || user) then s.fetchFault afresh 0x06 w
    else if bad.getLsbD (w.2.2.toNat / 8 % 8) then s.fetchFault afresh 0x0A w
    else s.modThread w.1 w.2.1 fun t => { t with park := none }) s

/-- A fill arrives, or its translation still waits. -/
def fillArrive (s : State) (f : Fill) : Except Fault State :=
  let lead := s.leadOf f
  let wait (s : State) (p : Park) : State := { s with fills := mapIf (sameFill f) (fun g => { g with hold := some p }) s.fills }
  match lead.hold, s.fillAsk lead (s.fills.all fun g => !sameFill f g || g.ahead) with
  | some (.pageFault _), _ => .ok (s.fillFault f 0x05)
  | _, .error (.trap cause _) => .ok (s.fillFault f cause)
  | _, .error (.park p) =>
    -- ahead of every fetch, a line whose page waits for module software is dropped (R135)
    let drops : Bool := s.fills.all (fun g => !sameFill f g || g.ahead) && match p with
      | .rimFault _ _ _ _ _ => true
      | _ => false
    .ok (if drops then s.endFill f true else wait s p)
  | _, .error (.parkIn p s') => .ok (wait (s.keepRequests s') p)
  | _, .error (.done _) => .ok s
  | _, .error (.fault e) => .error e
  | _, .ok key => .ok ((s.useLeaf (entryStation lead.agent) f.vd f.space (f.line * 64)).fillData f key (match s.tlbFind (entryStation lead.agent) f.vd f.space (f.line * 64) with
    | some e => leafU e.leaf
    | none => false))

/-! ### Fetching ahead, and parity (R133) -/

/-- Halfwords of the course cache from an address on, as far as they are there. -/
def peek (s : State) (a th : Nat) (va : Word) : Nat → List Half
  | 0 => []
  | n + 1 => match s.lineFind (courseOf a) (s.vdOf a) (s.fetchSpace a th) (lineOf va) with
    | some l => l.data.extractLsb' (16 * (va.toNat / 2 % 32)) 16 :: peek s a th (va + 2) n
    | none => []

/-- The target of a jump through a register, as the register stands; none for one that pops (R133). -/
def registerTarget (s : State) (a th : Nat) (i : Instr) : Option Word :=
  let at_ (x : RegNum) : Option Word := if Op.pops x then none else some (s.readG a th x).1
  match i with
  | .jr _ x | .callr _ x => at_ x
  | .ret _ => at_ 1
  | _ => none

/-- The addresses ahead of its PC that a thread's fetch unit may ask for. Which branch it follows the rule does not say: it is the one that
stands at the PC, none further on in the lines that are there, and none through a register that pops (DESIGN CHOICE, log 91). -/
def aheadAddrs (s : State) (a th : Nat) : List Word :=
  let t := s.thread a th
  [t.pc, t.pc + 64] ++ (if t.loop0.valid then [t.loop0.start] else []) ++ (if t.loop1.valid then [t.loop1.start] else [])
    ++ match decode (s.peek a th t.pc 5) with
      | .ok (i, _) => ((directTarget i).map fun d => t.pc + d * 2).toList ++ (s.registerTarget a th i).toList
      | .error _ => []

/-- The thread of a tile that may fetch a line ahead. -/
def aheadThread (s : State) (a : Nat) (line : Word) : Option Nat :=
  [0, 1, 2, 3].find? fun th => (s.thread a th).live && (s.aheadAddrs a th).any fun x => x.toNat / 64 == line.toNat / 64

/-- A fetch ahead: it joins or starts the fill of its line; an error in it is counted and nothing else (R131, R133). -/
def fetchAhead (s : State) (a th : Nat) (line : Word) : State :=
  let f : Fill := { s.fillOf a th line with ahead := true, unit := true }
  if !(tagOf line == 4 && fieldOf line 56 4 == 0 && s.spaceValid (s.vdOf a) (s.fetchSpace a th)) then s.countFetch a
  else match if s.rimFaultAt (entryStation a) f.vd f.space (lineAddr f.line) then none else (s.askLine f).toOption with
    | some s' => s'
    | none => s.countFetch a

/-- A parity error on a hit: the line goes, to be fetched again, and the site counts it; a count that has saturated sends no record
(R408). -/
def parityError (s : State) (a : Nat) (l : CacheLine) : State :=
  let s := { s with icache := s.icache.filter fun x => !(x.course == l.course && x.vd == l.vd && x.space == l.space && x.line == l.line) }
  if (s.site a).fetch == 0xFFFF#16 then s
  else
    let s := s.countFetch a
    s.errorRecord 1 2 (a % 65536) (s.site a).fetch.toNat (lineAddr l.line)

/-- A line of a tile's own tags that is in its course cache. -/
def ownLine (s : State) (a : Nat) (line : Word) : Option CacheLine :=
  if tagOf line != 4 then none
  else [0, 1, 2, 3].findSome? fun th =>
    if (s.thread a th).live then s.lineFind (courseOf a) (s.vdOf a) (s.fetchSpace a th) (lineOf line) else none

end State

/-! ### Event -/

/-- INSTRUCTION_FETCH_FILL (R131, R133): the fill of a line that is asked for arrives; a line that is there fails its parity; any
other is fetched ahead, where the fetch unit may. -/
def execInstructionFetchFill (agent : Nat) (line : Word) (s : State) : Host.Outcome State Fault Refusal :=
  match s.fills.find? fun f => f.agent == agent && f.line == State.lineOf line with
  | some f => match s.fillArrive f with
    | .ok s' => .next s'
    | .error e => .fault e
  | none =>
    if State.isCore agent then .next s
    else match s.ownLine agent line with
      | some l => .next (s.parityError agent l)
      | none => match s.aheadThread agent line with
        | some th => .next (s.fetchAhead agent th line)
        | none => .next s

end Sys2Proof.Machine
end

