-- ==== Sys2Proof/Machine/Events.lean ====
section
/-! DEFINITION. The events of waits and of memory: accesses performed, deferred faults, parked threads that go on, walks, revoked
reservations and retries (R95, R134, R155, R161, R163, R168, R200, R204, R206). -/

namespace Sys2Proof.Machine

/-- What has become of an access: another state, a wait, a trap, or the machine's stop. -/
inductive Performed where
  | done (s : State)
  /-- The first doubleword of a vector access has been performed (R172). -/
  | half (lo : Word) (s : State)
  | wait (p : Park) (s : State)
  | trap (cause : BitVec 8)
  | fault (f : Fault)

namespace State

/-! ### Pod accesses (R158, R346, R419) -/

/-- Write a load's destination, with the turns of the access (R161, R162, R164). -/
def writeLoad (s : State) (a th : Nat) (r : Relaxed) (v lat : Nat) : State :=
  if r.vector then s.writeV a th r.dest (BitVec.ofNat 128 v) lat else s.writeG a th r.dest (extendLoad r.signed r.size v) lat

/-- A request answers its thread with data. -/
def podReads (r : Relaxed) : Bool :=
  match r.act with
  | .access => !r.store
  | .fe (.load _) | .lrw | .atomic _ _ => true
  | .fe .store | .fe .waitf | .clrf => false

/-- What a request does at another module that answers it, with the value found there. -/
def podAct (s : State) (a th : Nat) (r : Relaxed) (old : Nat) : State :=
  let lat := s.openTurns a r.addr
  let write (s : State) : State := (s.digest a r.cx r.addr r.size r.data.toNat).podWrote a r.addr r.size r.data.toNat
  match r.act with
  | .access => if r.store then write s else s.writeLoad a th r old lat
  | .fe (.load _) => s.writeLoad a th r old lat
  | .fe .store => write s
  | .fe .waitf | .clrf => s
  | .lrw =>
    (s.modThread a th fun t => { t with sync := { heldAddr := r.addr, heldKind := 1 } }).writeLoad a th r old lat
  | .atomic op second =>
    let x := r.data.toNat % 2 ^ (8 * r.size)
    let res := atomResult op r.size old x (second.toNat % 2 ^ (8 * r.size))
    let s := match res.1 with
      | some v => (s.digest a r.cx r.addr r.size (if op.counts then x else v)).podWrote a r.addr r.size v
      | none => s
    (s.raise a th res.2).writeLoad a th r old lat

/-- What a speculating thread takes of a pad's bytes at another module: the buffered ones over them, and the doublewords are watched there
(R228). A thread that has stopped speculating meanwhile takes the bytes as they are. -/
def specAnswer (s : State) (a th : Nat) (r : Relaxed) (v : Nat) : Nat × State :=
  match (s.thread a th).spec with
  | none => (v, s)
  | some sp =>
    if r.act != .access || r.store then (v, s)
    else (mergeOver sp.buf r.addr r.size v, (List.range ((r.size + 7) / 8)).foldl (fun s i =>
      let d := r.addr + BitVec.ofNat 64 (8 * i)
      if bufCovers sp.buf d (min r.size 8) then s else s.addWatch a th sp.bar (dwordOf (podKey d))) s)

/-- A request to another module is answered, or waits for a port. To a module that has left the pod it is discarded, and counted (R419);
what a load then delivers is not stated (log 28). -/
def performPod (s : State) (a th : Nat) (r : Relaxed) : Performed :=
  match s.podEnd a r.addr with
  | .waits => .wait (.pod r.addr) s
  | .lost =>
    let s' := s.podLost a th r.addr
    .done (if podReads r then s'.writeLoad a th r ((Config.openValue s.free).toNat % 256 ^ r.size) (s.openTurns a r.addr) else s')
  | .fails cause => .trap cause
  | .answered poison =>
    if poison && podReads r then .trap 0x0A
    else
      let v := s.specAnswer a th r (s.podView a r.addr r.size)
      .done ((v.2.podPast a r.addr).podAct a th r v.1)

/-! ### Relaxed accesses (R161, R163) -/

/-- Bytes that an access of a thread names, where they are known. -/
def accessKey (s : State) (a th : Nat) (r : Relaxed) : Option Nat :=
  match s.resolve a th r.addr (if r.store then Use.store else Use.load) with
  | .ok (.mem key) => some key
  | _ => none

/-- The kinds of memory that no two names share: pads, vaults, this module's rim, and each other module. -/
def nameClass (s : State) (addr : Word) : Nat :=
  match tagOf addr with
  | 0 | 1 => 0
  | 5 => if fieldOf addr 50 6 = s.moduleNo then 4 else 16 + fieldOf addr 50 6
  | t => t

/-- Two ranges meet. -/
def spansMeet (j n k m : Nat) : Bool := decide (j < k + m) && decide (k < j + n)

/-- Two accesses of a thread meet. Where the home of one is not known yet, they may: two names of translated memory can lead to one page
only where their offsets in 64 KiB meet. -/
def accessesMeet (s : State) (a th : Nat) (x y : Relaxed) : Bool :=
  match s.accessKey a th x, s.accessKey a th y with
  | some j, some k => spansMeet j x.size k y.size
  | _, _ =>
    let c := s.nameClass x.addr
    let j := (s.canonAddr a x.addr).toNat
    let k := (s.canonAddr a y.addr).toNat
    c == s.nameClass y.addr && (if c < 4 then spansMeet j x.size k y.size else spansMeet (j % 65536) x.size (k % 65536) y.size)

/-- One access of at most 8 bytes at its home: the state, and what it read with its turns. -/
def performPart (s : State) (a th : Nat) (r : Relaxed) (addr : Word) (n data : Nat) : Res (State × Nat × Nat) :=
  if r.store then (s.performStore a th r.cx addr n data).map fun s => (s, 0, 0)
  else match r.window with
    | some w => .ok (s, w.toNat, 1)
    | none => (s.performLoad a th addr n).map fun v => (s.usePage a addr, v)

/-- Perform an access: of 16 bytes, one doubleword at a time, in order (R172). -/
def performAccess (s : State) (a th : Nat) (r : Relaxed) : Performed :=
  if s.isFar a r.addr then s.performPod a th r
  else
    let finish (s : State) (v lat : Nat) : Performed := .done (if r.store then s else s.writeLoad a th r v lat)
    let part := match r.first with
      | some _ => s.performPart a th r (r.addr + 8) 8 (r.data.toNat / 2 ^ 64)
      | none => s.performPart a th r r.addr (min r.size 8) (r.data.toNat % 256 ^ min r.size 8)
    match part with
    | .error (.park p) => .wait p s
    | .error (.parkIn p s') => .wait p (s.keepRequests s')
    | .error (.trap cause _) => .trap cause
    | .error (.done s') => .done s'
    | .error (.fault f) => .fault f
    | .ok (s, v, lat) => match r.first with
      | some lo => finish s (lo.toNat + v * 2 ^ 64) lat
      | none => if r.size ≤ 8 then finish s v lat else .half (BitVec.ofNat 64 v) s

/-- Change, or with `none` remove, an outstanding access of a thread. -/
def setRelaxed (s : State) (a th i : Nat) (r : Option Relaxed) : State :=
  s.modThread a th fun t => { t with relaxed := match r with
    | some r => t.relaxed.set i r
    | none => t.relaxed.eraseIdx i }

/-- Once every outstanding access has met a fault, the earliest in issue order is the deferred one (R163). -/
def gatherFaults (s : State) (a th : Nat) : State :=
  let t := s.thread a th
  match t.relaxed with
  | [] => s
  | r :: _ =>
    if t.relaxed.all fun x => x.fault.isSome then
      s.modThread a th fun t => { t with relaxed := [], deferred := some ⟨r.fault.getD 0, r.addr⟩ }
    else s

/-- What the tile has sent to the same module before a store of it has not landed: relaxed stores and posted operations land there in
issue order (R174, R185). -/
def behindStore (s : State) (a : Nat) (r : Relaxed) : Bool :=
  match s.storeModule a r with
  | none => false
  | some m => s.storeBefore a m r.at_ || s.postBefore a m r.at_

/-- An access that has ended by a fault: one of another module has taken its free values, and its flits have got through (R417). -/
def podFailed (s : State) (a : Nat) (r : Relaxed) : State := if s.isFar a r.addr then s.podPast a r.addr else s

/-- One relaxed access is performed, or its next doubleword, unless an earlier one to bytes of it is still outstanding. -/
def relaxedStep (s : State) (a th i : Nat) : Except Fault State :=
  let t := s.thread a th
  match t.relaxed[i]? with
  | none => .ok s
  | some r =>
    let behind := ((t.relaxed.take i).any fun x => x.fault.isNone && s.accessesMeet a th x r) || s.behindStore a r
    let faulted (cause : BitVec 8) : Except Fault State := .ok ((s.setRelaxed a th i (some { r with fault := some cause })).gatherFaults a th)
    if r.fault.isSome || behind || t.park == some (.pod r.addr) || t.park == some (.half r.addr) then .ok s
    else match r.hold with
      | some (.pageFault _) => faulted 0x05
      | _ => match s.performAccess a th r with
        | .done s' => .ok ((s'.setRelaxed a th i none).gatherFaults a th)
        | .half lo s' => .ok (s'.setRelaxed a th i (some { r with first := some lo, hold := none }))
        | .wait p s' => .ok (s'.setRelaxed a th i (some { r with hold := some p }))
        | .trap cause => .ok (((s.podFailed a r).setRelaxed a th i (some { r with fault := some cause })).gatherFaults a th)
        | .fault f => .error f

/-- A fault of an access for which a thread is kept: a trap, but of a gang that has ended no thread enters a handler (R386). -/
def trapKept (s : State) (a th : Nat) (cause : BitVec 8) (v : Word) : State :=
  if s.gangEnded a then s.endThread a th else s.trapThread a th cause v

/-- A thread that is kept for its one access goes on with it: the answer of another module, or the second doubleword of a vector access
(R158, R172). It completes, or traps. -/
def keptStep (s : State) (a th : Nat) (r : Relaxed) (rest : List Relaxed) : Except Fault State :=
  let ended (s : State) : State := s.modThread a th fun t => { t with relaxed := rest }
  match r.hold with
  | some (.pageFault _) => .ok ((ended s).trapKept a th 0x05 r.addr)
  | _ => match s.performAccess a th r with
    | .done s' => .ok (((ended s').finishThread a th).settleEnded a th)
    | .half lo s' => .ok (s'.setRelaxed a th 0 (some { r with first := some lo, hold := none }))
    | .wait p s' => .ok (s'.setRelaxed a th 0 (some { r with hold := some p }))
    | .trap cause => .ok ((ended (s.podFailed a r)).trapKept a th cause r.addr)
    | .fault f => .error f

def podStep (s : State) (a th : Nat) : Except Fault State :=
  match (s.thread a th).park, (s.thread a th).relaxed with
  | some (.pod addr), r :: rest | some (.half addr), r :: rest => if r.addr == addr then s.keptStep a th r rest else .ok s
  | _, _ => .ok s

/-! ### Going on (R95) -/

/-- The skid queue of a gang has room for a record, or nothing waits for it any more. -/
def skidRoom (s : State) (h : Word) (gang : Nat) : Bool :=
  (s.skidAppend h gang 0 true).isSome || match s.grid? h with
    | some g =>
      let e := s.residency g gang
      resRet e || resNst e || (resRes e && !resMove e)
    | none => true

/-- What a remote-pad address finds is no longer an absent gang. -/
def padThere (s : State) (a : Nat) (addr : Word) : Bool :=
  match s.padTarget a (addr.extractLsb' 16 32) (fieldOf addr 0 16) with
  | .absent _ _ _ => false
  | _ => true

/-- A thread has a request in some bank. -/
def requestOut (s : State) (a th : Nat) : Bool :=
  (s.fe.any fun r => r.agent == a && r.thread == th) || ((s.resv ++ s.rejected).any fun r => r.agent == a && r.thread == th)
    || s.away.any fun r => r.agent == a && r.thread == th

/-- The condition of a full/empty instruction on words of a home doubleword; none for another instruction (R165). -/
def feWait (s : State) (key : Nat) : Instr → Option Bool
  | .ldf _ _ _ _ | .ldfe _ _ _ _ => some (s.feReady key 4 (.load false))
  | .ldfd _ _ _ _ | .ldfed _ _ _ _ => some (s.feReady key 8 (.load false))
  | .ste _ _ _ _ => some (s.feReady key 4 .store)
  | .sted _ _ _ _ => some (s.feReady key 8 .store)
  | _ => none

/-- The condition of a re-armed wait holds, at the recorded address, register or counter (R197, R198). A full/empty record does not tell
a load from a store: the instruction at the thread's PC does, where it can be read. What leads nowhere now is left to the chain
(log 47). -/
def rearmedReady (s : State) (a th : Nat) (w : WaitRec) : Bool :=
  let r : RegNum := w.reg.setWidth _
  let home (p : Nat → Bool) : Bool := match s.resolve a th w.addr Use.load with
    | .ok (.mem key) => p key
    | _ => true
  match w.kind.toNat with
  | 1 => home fun k => (((s.instrAt a th).bind fun i => s.feWait k i.1).getD true)
  | 2 => home fun k => s.isFull (k / 4 * 4)
  | 3 | 7 => s.canRead a th [.g r] (.g r) || (s.operandFault a (.g r)).isSome
  | 4 => decide (w.thr.toNat ≤ (vget (s.tile a).c w.reg.toNat 0).toNat)
  | 5 => home fun k => !s.holders.any fun h => h.key == dwordOf k
  | 6 => home fun k => s.ticketOf (dwordOf k) == some w.ticket && !s.holders.any fun h => h.key == dwordOf k
  | 8 => s.canWrite a th (.g r) || (s.operandFault a (.g r)).isSome
  | _ => true

/-- A parked thread's condition holds, so that it may issue its chain again. Waits that a bank, a dispatcher or an engine ends
by completing the instruction are not among these. -/
def mayUnpark (s : State) (a th : Nat) : Park → Bool
  | .operands reads dests =>
    s.readiness a th (Op.toTake (s.thread a th) reads) dests != .wait
  | .drained => (s.thread a th).relaxed.isEmpty
  | .relaxedSlot => decide ((s.thread a th).relaxed.length < 8)
  | .speculating => (s.thread a th).spec.isNone && (s.thread a th).drain.isEmpty
  | .barcfg b => vget (s.tile a).arrived b 0 == 0#4
  | .fullEmpty _ | .waitf _ | .grant _ | .ticket _ _ => !s.requestOut a th
  | .walk st vd sp addr _ => !s.walks.any (joinsWalk st vd sp addr)
  | .rimFault st vd sp addr _ => !s.rimFaultAt st vd sp addr
  | .cruiseHold addr => match s.tlbFind (entryStation a) (s.vdOf a) (s.dataSpace a) (addr.toNat % 2 ^ 56) with
    | some e => !leafCh e.leaf || tagOf addr != 4
    | none => true
  | .absent _ addr => s.padThere a addr && !s.requestOut a th
  | .ringFull gang => s.skidRoom (s.tile a).handle gang
  | .zeroing site => !s.zeroing.contains site
  | .fetch va => !s.fills.any fun f => !f.ahead && f.agent == a && f.thread == th && f.line == lineOf va
  | .outbound => s.outboundFree a
  | .fence scope => s.fenceClear a th scope
  | .matrix => (s.tile a).mma.isNone || (s.tile a).xfer.isNone
  | .copySlot => [0, 1, 2, 3].any fun i => (s.copy? a i).isNone
  | .cjoin n => match s.slotOf a (n.setWidth 32) with
    | some (_, c) => c.phase == .faulted
    | none => true
  | .event => !(s.tile a).events.isEmpty
  | .seed kind => s.seedReady kind
  | .stream k push n =>
    let h := vget (s.tile a).streams k {}
    !h.valid || (if push then decide (n ≤ s.freeSlots a th k) && !h.pcl else decide (n ≤ h.filled) && !h.ccl)
  | .claim k => let h := vget (s.tile a).streams k {}; !h.pcl && !h.ccl
  | .voltage div => !s.clockHeld a div
  | .tstop b _ => s.siteState b != .stopping && !saving s b
  | .rearmed w => s.rearmedReady a th w
  | .supervisor | .stopped => true
  | .draining | .barrier _ | .counter _ _ | .orderTable _ _ | .pod _ | .half _ | .align _ _ _ | .posted | .matrixOwn | .grid _ _ | .dispatcher _ _
  | .sleep | .budget | .pageFault _ => false

/-- A parked thread whose condition holds goes on: it issues its chain again, drains further, or ends its ALIGN. One parked on operands,
or restored in its wait on a shared register, takes the first slot it is given instead (R95, R102, R198). -/
def unpark (s : State) (a th : Nat) : State :=
  match (s.thread a th).park with
  | none | some (.operands _ _) => s
  | some (.rearmed w) => if w.kind != 3#8 && s.rearmedReady a th w then s.modThread a th fun t => { t with park := none } else s
  | some .draining => (s.drainThread a th).settleEnded a th
  | some (.align _ seen _) => if (s.alignMates a th seen).isEmpty then s.finishThread a th else s
  | some p => if s.mayUnpark a th p then s.modThread a th fun t => { t with park := none } else s

/-! ### Walks (R155) -/

/-- The entries that a station's walkers have taken: the oldest first, no more of a VD than its limit, 16 in all. -/
def walking (s : State) (station : Nat) : List Walk :=
  (s.walks.filter fun w => w.station == station && !w.heldBack).foldl
    (fun l w => if l.length < 16 && decide ((l.filter fun x => x.vd == w.vd).length < s.walkerLimit w.vd) then l ++ [w] else l) []

/-! ### Reservations (R204) -/

/-- A stop of a site's tile, or the cancellation of its gang, has been pending for 1,024 cycles (R204). -/
def pressedLong (s : State) (b : Nat) : Bool :=
  (s.siteState b == .stopping || (s.siteState b == .running && (s.gangOfTile b).any fun g => g.cancelTrap))
    && decide ((s.site b).stopAt.toNat + 1024 ≤ (s.cyc b).toNat)

/-- A pre-emption has been pending for so long that a thread's reservation holds up: of its own tile, or of the tile whose pad holds the
doubleword; or its gang was cancelled as long ago (R204). -/
def holdsUp (s : State) (a th : Nat) : Bool :=
  let r := (s.thread a th).sync
  match r.heldKey with
  | none => farHold r && s.pressedLong a
  | some k => s.pressedLong a || match regionOf k with
    | .tile b => !isCore b && s.siteState b == .stopping && s.pressedLong b
    | .rim | .vault _ | .mcr => false

/-- A revocation is due of a reservation that a tile's thread holds, or that stands on its pad (R204). -/
def revokeDue (s : State) (a : Nat) : Bool :=
  [0, 1, 2, 3].any (s.holdsUp a) || s.holders.any fun h => regionOf h.key == .tile a && s.holdsUp h.agent h.thread

end State

/-! ### Events -/

/-- ALIGN_TIMEOUT (R134): 64 turns have passed, which are 256 cycles. -/
def execAlignTimeout (agent thread : Nat) (s : State) : Host.Outcome State Fault Refusal :=
  match (s.thread agent thread).park with
  | some (.align _ _ since) => if since.toNat + 256 ≤ (s.cyc agent).toNat then .next (s.finishThread agent thread) else .next s
  | _ => .next s

/-- THREAD_UNPARK (R95). -/
def execThreadUnpark (agent thread : Nat) (s : State) : Host.Outcome State Fault Refusal :=
  if (s.thread agent thread).live then .next (s.unpark agent thread) else .next s

/-- ACCESS_PERFORMED (R161, R299, R321, R168): one access, or one unit of an engine's work, is performed at its home. -/
def execAccessPerformed (a : AccessRef) (s : State) : Host.Outcome State Fault Refusal :=
  match a with
  | .relaxed agent thread i => match s.relaxedStep agent thread i with
    | .ok s' => .next s'
    | .error f => .fault f
  | .matrix agent => match (s.tile agent).xfer with
    | some j => if j.done < j.total then .next (s.xferStep agent j) else .next s
    | none => .next s
  | .copy agent slot unit last => match s.copyStep agent slot unit last with
    | .ok s' => .next s'
    | .error f => .fault f
  | .pod agent thread => match s.podStep agent thread with
    | .ok s' => .next s'
    | .error f => .fault f
  | .strike key corrected => .next (s.strike key corrected)

/-- DEFERRED_FAULT (R163): the thread stands at its next instruction boundary; a matrix instruction of its own ends first. -/
def execDeferredFault (agent thread : Nat) (s : State) : Host.Outcome State Fault Refusal :=
  let t := s.thread agent thread
  match t.deferred with
  | none => .next s
  | some d =>
    if t.park == some .matrixOwn then .next s
    else
      let s := (s.withdraw agent thread).modThread agent thread fun t => { t with deferred := none }
      .next (s.takeTrap agent thread d.cause false (s.thread agent thread).pc d.value)

/-- TRANSLATION_WALK_DONE (R155): a walk that a walker has taken ends; what waited at the station from outside is tried again. -/
def execTranslationWalkDone (station index : Nat) (s : State) : Host.Outcome State Fault Refusal :=
  match (s.walking station)[index]? with
  | some w => .next (s.finishWalk w).retryOutside
  | none => .next s

/-- WALK_RETRY (R155): held-back misses take the entries that have become free. -/
def execWalkRetry (station : Nat) (s : State) : Host.Outcome State Fault Refusal :=
  .next { s with walks := s.admitWalks station s.walks }

/-- RESERVATION_REVOKE (R204): the bank takes back a reservation that holds up a pre-emption, and grants the next request. -/
def execReservationRevoke (agent thread : Nat) (s : State) : Host.Outcome State Fault Refusal :=
  if s.holdsUp agent thread then .next (s.dropHold agent thread true) else .next s

/-- QUEUE_TABLE_READMIT (R200): the earliest rejected request of a bank with room is admitted. -/
def execQueueTableReadmit (bank : Nat) (s : State) : Host.Outcome State Fault Refusal :=
  match splitFirst (fun r => State.bankOf r.key == bank) s.rejected with
  | some (pre, r, post) =>
    if s.queueLoad bank < 32 then .next ({ s with rejected := pre ++ post, resv := s.resv ++ [r] }.regrant r.key) else .next s
  | none => .next s

/-- OINIT_RETRY (R206). -/
def execOinitRetry (agent thread : Nat) (s : State) : Host.Outcome State Fault Refusal :=
  match (s.thread agent thread).park with
  | some (.orderTable key value) =>
    if s.oinitReady key value then .next ((s.oinitAt key value).finishThread agent thread) else .next s
  | _ => .next s

end Sys2Proof.Machine
end

