-- ==== Sys2Proof/Machine/Issue.lean ====
section
/-! DEFINITION. One cycle of an agent's clock, up to the instruction that issues in it: what counts, the thread that the slot goes to, the
traps from outside, the fetch (R25, R38, R92-R95, R204, R261, R383, R385, R390, R407). -/

namespace Sys2Proof.Machine

/-- What a cycle comes to. -/
inductive Slot where
  /-- No instruction issues. -/
  | over (o : Host.Outcome State Fault Refusal)
  /-- An instruction issues in a state. -/
  | run (i : Instr) (s : State)

namespace State

/-- A tile's threads may issue: it runs and is not held; or it is to stop and reservations hold that up (R204, R390). None resumes while actions fired by a replay are to be issued
(R261). A service core has no site states. -/
def tileIssues (s : State) (a : Nat) : Bool :=
  s.hasTile a && (isCore a || (!((s.tile a).replaying && !(s.tile a).evalQ.isEmpty) && match s.siteState a with
    | .running => !s.tileHeld a
    | .stopping => !s.noHolds a && !(s.site a).atRest
    | .free | .loaded | .stopped | .quarantined | .defective => false))

/-- A thread has a place in the rotation: live, with no access that has met a fault (R163), and not parked (R95), or parked on operands
that have come, or restored in such a wait on a shared register (R102, R198). -/
def inRotation (s : State) (a th : Nat) : Bool :=
  let t := s.thread a th
  t.live && t.deferred.isNone && !(t.relaxed.any fun r => r.fault.isSome) && match t.park with
    | none => true
    | some (.operands reads dests) => s.mayUnpark a th (.operands reads dests)
    | some (.rearmed w) => w.kind == 3#8 && s.rearmedReady a th w
    | some _ => false

/-- The order in which the present cycle's slot is offered: to its owner, and in fretless mode to the threads behind it (R93, R94). -/
def slotOrder (s : State) (a : Nat) : List Nat :=
  let o := (s.cyc a).toNat % 4
  if s.fretless a then [o, (o + 1) % 4, (o + 2) % 4, (o + 3) % 4] else [o]

/-- The thread that issues in the present cycle: the first in order that is ready. When a result or a chain is ready is not modelled, so
the move names the threads that are (log 2); one parked on operands is ready once they have come (R95). -/
def slotThread (s : State) (a : Nat) (ready : BitVec 4) : Option Nat :=
  (s.slotOrder a).find? fun th => s.inRotation a th && (ready.getLsbD th || (s.thread a th).park.isSome)

/-- Add to an entry of a table of counts. -/
def addTo (l : List (Nat × Nat)) (k n : Nat) : List (Nat × Nat) := Tab.set l k ((Tab.get? l k).getD 0 + n)

/-- A cycle of a tile is charged to its queue and to its VD's windows (R25, R26), a re-run's to its grid's queue as well: whether `the
queue's gangs` take in its re-runs the spec leaves open (DESIGN CHOICE, log 89). A cycle of the gang's lowest rank that stands on a site
is one of the gang's (R264, R407; log 3). -/
def charge (s : State) (a : Nat) : State :=
  match s.gangOfTile a with
  | none => s
  | some r =>
    let q := ((s.grid? r.handle).map s.gridQueue).getD 0
    let s := { s with
      service := addTo s.service (r.vd * 65536 + q) 1
      rerunWindow := addTo s.rerunWindow r.vd 1
      rerunService := if r.mark == RunMark.original then s.rerunService else addTo s.rerunService r.vd 1 }
    if (s.standing r).head? == some a then s.modGangOfTile a s.countCycle else s

/-- A cycle of an agent's clock: what was to count by then counts (R96, R101, R381). -/
def advance (s : State) (a : Nat) : State :=
  let c := s.cyc a + 1
  let s := (s.charge a).modSite a fun x => settleSite { x with cyc := c }
  (s.settlePushes a c).modTile a fun t => settleShared t c

/-- A trap from outside is delivered at the boundary: the grid's cancellation, which counts as a fault, before the watchdog (R357, R385).
An arrival that stands from before a restore is withdrawn, unless its completion is decided and comes first (R460). -/
def outsideTrap (s : State) (a th : Nat) : Option State :=
  let t := s.thread a th
  let w := vget (s.tile a).barWait th {}
  if t.ten || t.spec.isSome || !t.drain.isEmpty || t.dueTrap.isSome || (w.kind != 0#2 && s.isDecided a th w.ident.toNat) then none
  else
    let s := if w.kind == 0#2 then s else s.withdrawArrival a th
    if t.cancelPending then
      let h := handleOf (s.tile a).handle
      let s := if (s.tile a).mark == .original then s.countFault (s.tile a).handle (s.threadFault a th 0x09 h) else s
      some ((s.modThread a th fun t => { t with cancelPending := false }).takeTrap a th 0x09 true t.pc h)
    else if t.dogPending then
      some ((s.modThread a th fun t => { t with dogPending := false }).takeTrap a th 0x0E true t.pc (BitVec.ofNat 64 (((s.gangOfTile a).map Gang.dogReached).getD 0)))
    else none

/-- What a parked instruction had popped is in the hands of its next issue. -/
def resume (s : State) (a th : Nat) : State := s.modThread a th fun t => { t with park := none, held := t.popped, popped := [] }

/-- Park at the fetch of a chain. -/
def parkFetch (s : State) (p : Park) : State := s.parkMe { mod := 0, len := 0, word := 0 } p

/-- The halfword that an illegal chain reports (R38). -/
def badHalf : DecodeError → Half
  | .chainLimit h => h
  | .unassigned h => h
  | .truncated => 0

/-- The gang of a tile has issued its first instruction (R349, R359). -/
def begin_ (s : State) (a : Nat) : State := s.modGangOfTile a fun g => { g with begun := true }

/-- Fetch and decode for the issuing thread (R38 steps 1 and 2). -/
def fetchSlot (s : State) (a th : Nat) : Slot :=
  match s.fetchChain a th {} (s.thread a th).pc 6 with
  | .ok (.ok i, s) => .run i (s.begin_ a)
  | .ok (.error e, s) => .over (.next ((s.begin_ a).trapHere 0x01 ((badHalf e).setWidth 64)))
  | .error (.trap cause v) => .over (.next (s.trapHere cause v))
  | .error (.park p) => .over (.next (s.parkFetch p))
  | .error (.parkIn p s') => .over (.next (s'.parkFetch p))
  | .error (.done s') => .over (.next s')
  | .error (.fault f) => .over (.fault f)

/-- One cycle of an agent's clock, and the issue of the thread that its slot goes to; where there is none the cycle is a bubble. No cycle
passes while a count of its gang is due: the watchdog's trap, or the stall report, comes first. Nor while a bank's revocation is due, of a
reservation that the agent holds or that stands on its pad (R204). -/
def slot (s : State) (a : Nat) (ready : BitVec 4) (split : Bool) : Slot :=
  if (s.gangOfTile a).any s.countDue || s.revokeDue a then .over (.next s)
  else
    let s := { s.advance a with split := split }
    match (s.slotThread a ready).filter fun _ => s.tileIssues a with
    | none => .over (.next s)
    | some th =>
      let s := { s with cur := (a, th) }
      match s.outsideTrap a th with
      | some s' => .over (.next s')
      | none => (s.resume a th).fetchSlot a th

/-- The next move, and the state with it taken: the agenda's first, or a free choice (log 3). -/
def nextMove (s : State) : Move × State :=
  let s := s.settleStalls
  match s.agenda with
  | m :: rest => (m, { s with agenda := rest })
  | [] => (Config.schedule s.choice, { s with choice := s.choice + 1 })

/-- An instruction term that stands for a hardware event: it has no encoding. -/
def isEvent (i : Instr) : Bool := i.enc.isNone && i.wf

/-! ### Placing a word at the next fetch (log 4) -/

/-- Words that only the control thread may execute (R330). -/
def controlWord (nbits w : Nat) : Bool :=
  match decodeTableWord nbits w with
  | some (.evpop _ _) | some (.evwait _ _) => true
  | _ => false

/-- The code page of `withFetchWord`: virtual page 0 of space 0 stands at physical 0x1_0000, with every permission. -/
def codeLeaf : Word := 0x101DF

/-- Service core 0 as it stands before the fetch: one thread live in supervisor mode at virtual address 0 of its rim space, and the next
cycle that thread's slot. -/
def armCore (s : State) (th : Nat) : State :=
  let s := s.modTile 65536 fun t => { t with vtn := 0xFFFFFFF0, handle := 0 }
  let s := s.modSite 65536 fun x => { x with cyc := x.cyc + BitVec.ofNat 64 ((th + 7 - x.cyc.toNat % 4) % 4) }
  s.modThread 65536 th fun t => { t with
    live := true, pc := 0x4000000000000000, tst := 1, park := none, popped := [], held := [], claims := [], relaxed := [], deferred := none
    spec := none, drain := [], dueTrap := none, cancelPending := false, dogPending := false }

/-- The space and the translation that the fetch needs: space 0 of the core's VD valid, its page 0 cached at station 52. -/
def armSpace (s : State) : State :=
  let vd := s.vdOf 65536
  let sp := s.vdSupSpace vd
  let s := if s.spaceValid vd sp then s
    else
      let s := s.setMcrN (vdOff vd 16) 4 (max (s.vdDirLen vd) (sp + 1))
      s.pokeN (rimKey (s.vdDirBase vd + 16 * sp)) 1 1
  let e : TlbEntry := { station := 52, vd := vd, space := sp, bits := 16, page := 0, leaf := codeLeaf, leafPa := 0 }
  { s with tlb := e :: s.tlb }

/-- A number of `n` halfwords, first lowest. -/
def halvesValue : List Half → Nat
  | [] => 0
  | h :: t => h.toNat + 65536 * halvesValue t

end State
end Sys2Proof.Machine
end

