-- ==== Sys2Proof/Machine/Dispatch.lean ====
section
/-! DEFINITION. The one dispatch of an instruction or event to its meaning. -/

namespace Sys2Proof.Machine

def exec (i : Instr) (s : State) : Host.Outcome State Fault Refusal :=
  match i with
  | .nop c => Sys2Proof.Machine.execNop c s
  | .trap c imm => Sys2Proof.Machine.execTrap c imm s
  | .eret c => Sys2Proof.Machine.execEret c s
  | .mfs c x r => Sys2Proof.Machine.execMfs c x r s
  | .mts c x r => Sys2Proof.Machine.execMts c x r s
  | .brk c imm => Sys2Proof.Machine.execBrk c imm s
  | .halt c => Sys2Proof.Machine.execHalt c s
  | .sleep c => Sys2Proof.Machine.execSleep c s
  | .align c tag => Sys2Proof.Machine.execAlign c tag s
  | .pref c x => Sys2Proof.Machine.execPref c x s
  | .tstop c x => Sys2Proof.Machine.execTstop c x s
  | .tsave c x y => Sys2Proof.Machine.execTsave c x y s
  | .tload c x y => Sys2Proof.Machine.execTload c x y s
  | .tgo c x => Sys2Proof.Machine.execTgo c x s
  | .tmap c x y => Sys2Proof.Machine.execTmap c x y s
  | .tquar c x => Sys2Proof.Machine.execTquar c x s
  | .zero c x y => Sys2Proof.Machine.execZero c x y s
  | .tlbinv c x y => Sys2Proof.Machine.execTlbinv c x y s
  | .vote c x => Sys2Proof.Machine.execVote c x s
  | .add c x y z => Sys2Proof.Machine.execAdd c x y z s
  | .sub c x y z => Sys2Proof.Machine.execSub c x y z s
  | .and c x y z => Sys2Proof.Machine.execAnd c x y z s
  | .or c x y z => Sys2Proof.Machine.execOr c x y z s
  | .xor c x y z => Sys2Proof.Machine.execXor c x y z s
  | .shl c x y z => Sys2Proof.Machine.execShl c x y z s
  | .shr c x y z => Sys2Proof.Machine.execShr c x y z s
  | .sar c x y z => Sys2Proof.Machine.execSar c x y z s
  | .addw c x y z => Sys2Proof.Machine.execAddw c x y z s
  | .subw c x y z => Sys2Proof.Machine.execSubw c x y z s
  | .andn c x y z => Sys2Proof.Machine.execAndn c x y z s
  | .orn c x y z => Sys2Proof.Machine.execOrn c x y z s
  | .xnor c x y z => Sys2Proof.Machine.execXnor c x y z s
  | .rol c x y z => Sys2Proof.Machine.execRol c x y z s
  | .ror c x y z => Sys2Proof.Machine.execRor c x y z s
  | .scadd c x y z => Sys2Proof.Machine.execScadd c x y z s
  | .mul c x y z => Sys2Proof.Machine.execMul c x y z s
  | .mulh c x y z => Sys2Proof.Machine.execMulh c x y z s
  | .mulhu c x y z => Sys2Proof.Machine.execMulhu c x y z s
  | .mulhsu c x y z => Sys2Proof.Machine.execMulhsu c x y z s
  | .div c x y z => Sys2Proof.Machine.execDiv c x y z s
  | .divu c x y z => Sys2Proof.Machine.execDivu c x y z s
  | .rem c x y z => Sys2Proof.Machine.execRem c x y z s
  | .remu c x y z => Sys2Proof.Machine.execRemu c x y z s
  | .slt c x y z => Sys2Proof.Machine.execSlt c x y z s
  | .sltu c x y z => Sys2Proof.Machine.execSltu c x y z s
  | .seq c x y z => Sys2Proof.Machine.execSeq c x y z s
  | .sne c x y z => Sys2Proof.Machine.execSne c x y z s
  | .min c x y z => Sys2Proof.Machine.execMin c x y z s
  | .max c x y z => Sys2Proof.Machine.execMax c x y z s
  | .minu c x y z => Sys2Proof.Machine.execMinu c x y z s
  | .maxu c x y z => Sys2Proof.Machine.execMaxu c x y z s
  | .clz c x y => Sys2Proof.Machine.execClz c x y s
  | .ctz c x y => Sys2Proof.Machine.execCtz c x y s
  | .popc c x y => Sys2Proof.Machine.execPopc c x y s
  | .brev c x y => Sys2Proof.Machine.execBrev c x y s
  | .bswap c x y => Sys2Proof.Machine.execBswap c x y s
  | .sexb c x y => Sys2Proof.Machine.execSexb c x y s
  | .sexh c x y => Sys2Proof.Machine.execSexh c x y s
  | .sexw c x y => Sys2Proof.Machine.execSexw c x y s
  | .hxy c x y z => Sys2Proof.Machine.execHxy c x y z s
  | .hidx c x y z => Sys2Proof.Machine.execHidx c x y z s
  | .sel c x y z => Sys2Proof.Machine.execSel c x y z s
  | .j c imm => Sys2Proof.Machine.execJ c imm s
  | .call c imm => Sys2Proof.Machine.execCall c imm s
  | .jr c x => Sys2Proof.Machine.execJr c x s
  | .callr c x => Sys2Proof.Machine.execCallr c x s
  | .ret c => Sys2Proof.Machine.execRet c s
  | .addi c x y imm => Sys2Proof.Machine.execAddi c x y imm s
  | .andi c x y imm => Sys2Proof.Machine.execAndi c x y imm s
  | .ori c x y imm => Sys2Proof.Machine.execOri c x y imm s
  | .xori c x y imm => Sys2Proof.Machine.execXori c x y imm s
  | .shli c x y imm => Sys2Proof.Machine.execShli c x y imm s
  | .shri c x y imm => Sys2Proof.Machine.execShri c x y imm s
  | .sari c x y imm => Sys2Proof.Machine.execSari c x y imm s
  | .li c x imm => Sys2Proof.Machine.execLi c x imm s
  | .lih c x imm => Sys2Proof.Machine.execLih c x imm s
  | .addpc c x imm => Sys2Proof.Machine.execAddpc c x imm s
  | .ldb c x y off => Sys2Proof.Machine.execLdb c x y off s
  | .ldh c x y off => Sys2Proof.Machine.execLdh c x y off s
  | .ldw c x y off => Sys2Proof.Machine.execLdw c x y off s
  | .ldd c x y off => Sys2Proof.Machine.execLdd c x y off s
  | .ldbs c x y off => Sys2Proof.Machine.execLdbs c x y off s
  | .ldhs c x y off => Sys2Proof.Machine.execLdhs c x y off s
  | .ldws c x y off => Sys2Proof.Machine.execLdws c x y off s
  | .ldf c x y off => Sys2Proof.Machine.execLdf c x y off s
  | .ldfd c x y off => Sys2Proof.Machine.execLdfd c x y off s
  | .ldfe c x y off => Sys2Proof.Machine.execLdfe c x y off s
  | .ldfed c x y off => Sys2Proof.Machine.execLdfed c x y off s
  | .vld c x y off => Sys2Proof.Machine.execVld c x y off s
  | .stb c x y off => Sys2Proof.Machine.execStb c x y off s
  | .sth c x y off => Sys2Proof.Machine.execSth c x y off s
  | .stw c x y off => Sys2Proof.Machine.execStw c x y off s
  | .std c x y off => Sys2Proof.Machine.execStd c x y off s
  | .ste c x y off => Sys2Proof.Machine.execSte c x y off s
  | .sted c x y off => Sys2Proof.Machine.execSted c x y off s
  | .stf c x y off => Sys2Proof.Machine.execStf c x y off s
  | .stfd c x y off => Sys2Proof.Machine.execStfd c x y off s
  | .vst c x y off => Sys2Proof.Machine.execVst c x y off s
  | .bz c x imm => Sys2Proof.Machine.execBz c x imm s
  | .bnz c x imm => Sys2Proof.Machine.execBnz c x imm s
  | .bltz c x imm => Sys2Proof.Machine.execBltz c x imm s
  | .bgez c x imm => Sys2Proof.Machine.execBgez c x imm s
  | .bq c q imm => Sys2Proof.Machine.execBq c q imm s
  | .bnq c q imm => Sys2Proof.Machine.execBnq c q imm s
  | .loop c x imm => Sys2Proof.Machine.execLoop c x imm s
  | .beq c x y imm => Sys2Proof.Machine.execBeq c x y imm s
  | .bne c x y imm => Sys2Proof.Machine.execBne c x y imm s
  | .blt c x y imm => Sys2Proof.Machine.execBlt c x y imm s
  | .bge c x y imm => Sys2Proof.Machine.execBge c x y imm s
  | .bltu c x y imm => Sys2Proof.Machine.execBltu c x y imm s
  | .bgeu c x y imm => Sys2Proof.Machine.execBgeu c x y imm s
  | .lrw c x y => Sys2Proof.Machine.execLrw c x y s
  | .sch c x y => Sys2Proof.Machine.execSch c x y s
  | .lro c x y => Sys2Proof.Machine.execLro c x y s
  | .sco c x y => Sys2Proof.Machine.execSco c x y s
  | .oinit c x y => Sys2Proof.Machine.execOinit c x y s
  | .aadd c x y => Sys2Proof.Machine.execAadd c x y s
  | .aand c x y => Sys2Proof.Machine.execAand c x y s
  | .aor c x y => Sys2Proof.Machine.execAor c x y s
  | .axor c x y => Sys2Proof.Machine.execAxor c x y s
  | .amin c x y => Sys2Proof.Machine.execAmin c x y s
  | .amax c x y => Sys2Proof.Machine.execAmax c x y s
  | .aminu c x y => Sys2Proof.Machine.execAminu c x y s
  | .amaxu c x y => Sys2Proof.Machine.execAmaxu c x y s
  | .aswap c x y => Sys2Proof.Machine.execAswap c x y s
  | .acas c x y => Sys2Proof.Machine.execAcas c x y s
  | .afadd c x y => Sys2Proof.Machine.execAfadd c x y s
  | .afaddo c x y => Sys2Proof.Machine.execAfaddo c x y s
  | .aaddw c x y => Sys2Proof.Machine.execAaddw c x y s
  | .aandw c x y => Sys2Proof.Machine.execAandw c x y s
  | .aorw c x y => Sys2Proof.Machine.execAorw c x y s
  | .axorw c x y => Sys2Proof.Machine.execAxorw c x y s
  | .aminw c x y => Sys2Proof.Machine.execAminw c x y s
  | .amaxw c x y => Sys2Proof.Machine.execAmaxw c x y s
  | .aminuw c x y => Sys2Proof.Machine.execAminuw c x y s
  | .amaxuw c x y => Sys2Proof.Machine.execAmaxuw c x y s
  | .aswapw c x y => Sys2Proof.Machine.execAswapw c x y s
  | .acasw c x y => Sys2Proof.Machine.execAcasw c x y s
  | .afaddw c x y => Sys2Proof.Machine.execAfaddw c x y s
  | .afaddow c x y => Sys2Proof.Machine.execAfaddow c x y s
  | .fence c => Sys2Proof.Machine.execFence c s
  | .fenceG c => Sys2Proof.Machine.execFenceG c s
  | .fenceM c => Sys2Proof.Machine.execFenceM c s
  | .fenceP c => Sys2Proof.Machine.execFenceP c s
  | .waitc c k y => Sys2Proof.Machine.execWaitc c k y s
  | .waitf c y => Sys2Proof.Machine.execWaitf c y s
  | .clrf c y => Sys2Proof.Machine.execClrf c y s
  | .take c x y => Sys2Proof.Machine.execTake c x y s
  | .bar c b => Sys2Proof.Machine.execBar c b s
  | .bars c b => Sys2Proof.Machine.execBars c b s
  | .barcfg c b x => Sys2Proof.Machine.execBarcfg c b x s
  | .barq c x b => Sys2Proof.Machine.execBarq c x b s
  | .barr c x b op => Sys2Proof.Machine.execBarr c x b op s
  | .put c x y k => Sys2Proof.Machine.execPut c x y k s
  | .putv c x y k => Sys2Proof.Machine.execPutv c x y k s
  | .get c x y k => Sys2Proof.Machine.execGet c x y k s
  | .send c x y => Sys2Proof.Machine.execSend c x y s
  | .cset c k x => Sys2Proof.Machine.execCset c k x s
  | .cinc c k x y => Sys2Proof.Machine.execCinc c k x y s
  | .crd c x k => Sys2Proof.Machine.execCrd c x k s
  | .post c x y => Sys2Proof.Machine.execPost c x y s
  | .arm c slot x y => Sys2Proof.Machine.execArm c slot x y s
  | .disarm c slot => Sys2Proof.Machine.execDisarm c slot s
  | .vadd c t x y z => Sys2Proof.Machine.execVadd c t x y z s
  | .vsub c t x y z => Sys2Proof.Machine.execVsub c t x y z s
  | .vmul c t x y z => Sys2Proof.Machine.execVmul c t x y z s
  | .vfma c t x y z => Sys2Proof.Machine.execVfma c t x y z s
  | .vmin c t x y z => Sys2Proof.Machine.execVmin c t x y z s
  | .vmax c t x y z => Sys2Proof.Machine.execVmax c t x y z s
  | .vaddmin c t x y z => Sys2Proof.Machine.execVaddmin c t x y z s
  | .vdiv c t x y z => Sys2Proof.Machine.execVdiv c t x y z s
  | .vsqrt c t x y => Sys2Proof.Machine.execVsqrt c t x y s
  | .vand c t x y z => Sys2Proof.Machine.execVand c t x y z s
  | .vor c t x y z => Sys2Proof.Machine.execVor c t x y z s
  | .vxor c t x y z => Sys2Proof.Machine.execVxor c t x y z s
  | .vshl c t x y z => Sys2Proof.Machine.execVshl c t x y z s
  | .vshr c t x y z => Sys2Proof.Machine.execVshr c t x y z s
  | .vsar c t x y z => Sys2Proof.Machine.execVsar c t x y z s
  | .vceq c t q y z => Sys2Proof.Machine.execVceq c t q y z s
  | .vclt c t q y z => Sys2Proof.Machine.execVclt c t q y z s
  | .vcle c t q y z => Sys2Proof.Machine.execVcle c t q y z s
  | .vsel c t x y z => Sys2Proof.Machine.execVsel c t x y z s
  | .vslu c t x y z => Sys2Proof.Machine.execVslu c t x y z s
  | .vsld c t x y z => Sys2Proof.Machine.execVsld c t x y z s
  | .vperm c t x y z => Sys2Proof.Machine.execVperm c t x y z s
  | .vbcst c t x y => Sys2Proof.Machine.execVbcst c t x y s
  | .vext c t x y lane => Sys2Proof.Machine.execVext c t x y lane s
  | .vins c t x y lane => Sys2Proof.Machine.execVins c t x y lane s
  | .vredadd c t x y => Sys2Proof.Machine.execVredadd c t x y s
  | .vcvt c t x y src => Sys2Proof.Machine.execVcvt c t x y src s
  | .vcvtq c t x y f => Sys2Proof.Machine.execVcvtq c t x y f s
  | .vsfu c t x y fn => Sys2Proof.Machine.execVsfu c t x y fn s
  | .vpeg c x y z => Sys2Proof.Machine.execVpeg c x y z s
  | .mtcfg c m y => Sys2Proof.Machine.execMtcfg c m y s
  | .mfcfg c x m => Sys2Proof.Machine.execMfcfg c x m s
  | .mld c m y => Sys2Proof.Machine.execMld c m y s
  | .mldl c m link => Sys2Proof.Machine.execMldl c m link s
  | .mst c m y => Sys2Proof.Machine.execMst c m y s
  | .mpass c m dir => Sys2Proof.Machine.execMpass c m dir s
  | .mzero c acc => Sys2Proof.Machine.execMzero c acc s
  | .mrda c acc y => Sys2Proof.Machine.execMrda c acc y s
  | .mwra c acc y => Sys2Proof.Machine.execMwra c acc y s
  | .mscl c m y => Sys2Proof.Machine.execMscl c m y s
  | .mma c acc m n => Sys2Proof.Machine.execMma c acc m n s
  | .scfg c h y => Sys2Proof.Machine.execScfg c h y s
  | .sadv c h y => Sys2Proof.Machine.execSadv c h y s
  | .sqry c x h => Sys2Proof.Machine.execSqry c x h s
  | .sclr c h => Sys2Proof.Machine.execSclr c h s
  | .cpy c x y => Sys2Proof.Machine.execCpy c x y s
  | .cpyg c x y => Sys2Proof.Machine.execCpyg c x y s
  | .cpys c x y => Sys2Proof.Machine.execCpys c x y s
  | .cpyz c x y => Sys2Proof.Machine.execCpyz c x y s
  | .cjoin c x => Sys2Proof.Machine.execCjoin c x s
  | .evpop c x => Sys2Proof.Machine.execEvpop c x s
  | .evwait c x => Sys2Proof.Machine.execEvwait c x s
  | .launch c x => Sys2Proof.Machine.execLaunch c x s
  | .cancel c x => Sys2Proof.Machine.execCancel c x s
  | .gwait c x => Sys2Proof.Machine.execGwait c x s
  | .gqry c x y => Sys2Proof.Machine.execGqry c x y s
  | .spawn c x y => Sys2Proof.Machine.execSpawn c x y s
  | .seed c x => Sys2Proof.Machine.execSeed c x s
  | .crdig c x d => Sys2Proof.Machine.execCrdig c x d s
  | .cron c => Sys2Proof.Machine.execCron c s
  | .croff c => Sys2Proof.Machine.execCroff c s
  | .crstat c x y => Sys2Proof.Machine.execCrstat c x y s
  | .instructionFetchFill agent line => Sys2Proof.Machine.execInstructionFetchFill agent line s
  | .alignTimeout agent thread => Sys2Proof.Machine.execAlignTimeout agent thread s
  | .threadUnpark agent thread => Sys2Proof.Machine.execThreadUnpark agent thread s
  | .accessPerformed a => Sys2Proof.Machine.execAccessPerformed a s
  | .deferredFault agent thread => Sys2Proof.Machine.execDeferredFault agent thread s
  | .translationWalkDone station index => Sys2Proof.Machine.execTranslationWalkDone station index s
  | .walkRetry station => Sys2Proof.Machine.execWalkRetry station s
  | .stationReplayWrite station value => Sys2Proof.Machine.execStationReplayWrite station value s
  | .reservationRevoke agent thread => Sys2Proof.Machine.execReservationRevoke agent thread s
  | .queueTableReadmit bank => Sys2Proof.Machine.execQueueTableReadmit bank s
  | .oinitRetry agent thread => Sys2Proof.Machine.execOinitRetry agent thread s
  | .barrierComplete handle gang ident level group => Sys2Proof.Machine.execBarrierComplete handle gang ident level group s
  | .specRollback agent thread => Sys2Proof.Machine.execSpecRollback agent thread s
  | .putLand msg => Sys2Proof.Machine.execPutLand msg s
  | .getRequestServe msg => Sys2Proof.Machine.execGetRequestServe msg s
  | .getResponse msg => Sys2Proof.Machine.execGetResponse msg s
  | .sendLand msg => Sys2Proof.Machine.execSendLand msg s
  | .cincLand msg => Sys2Proof.Machine.execCincLand msg s
  | .inboxRefill agent => Sys2Proof.Machine.execInboxRefill agent s
  | .postAppend msg => Sys2Proof.Machine.execPostAppend msg s
  | .messageRefused msg => Sys2Proof.Machine.execMessageRefused msg s
  | .outboundAck agent msg => Sys2Proof.Machine.execOutboundAck agent msg s
  | .tileFault handle gang => Sys2Proof.Machine.execTileFault handle gang s
  | .triggerAction agent => Sys2Proof.Machine.execTriggerAction agent s
  | .gangStallReport handle gang => Sys2Proof.Machine.execGangStallReport handle gang s
  | .mmaComplete agent => Sys2Proof.Machine.execMmaComplete agent s
  | .matrixTransferComplete agent => Sys2Proof.Machine.execMatrixTransferComplete agent s
  | .copyStart agent slot => Sys2Proof.Machine.execCopyStart agent slot s
  | .copyComplete agent slot => Sys2Proof.Machine.execCopyComplete agent slot s
  | .copyFault agent slot => Sys2Proof.Machine.execCopyFault agent slot s
  | .copyBudgetWindow => Sys2Proof.Machine.execCopyBudgetWindow s
  | .launchAccept msg => Sys2Proof.Machine.execLaunchAccept msg s
  | .dealRound node handle => Sys2Proof.Machine.execDealRound node handle s
  | .gangStart handle gang => Sys2Proof.Machine.execGangStart handle gang s
  | .tileRetire agent => Sys2Proof.Machine.execTileRetire agent s
  | .gridComplete handle => Sys2Proof.Machine.execGridComplete handle s
  | .cancelAccept agent thread => Sys2Proof.Machine.execCancelAccept agent thread s
  | .cancelReachYard handle yard => Sys2Proof.Machine.execCancelReachYard handle yard s
  | .moduleLeavePod module => Sys2Proof.Machine.execModuleLeavePod module s
  | .yardWithhold yard => Sys2Proof.Machine.execYardWithhold yard s
  | .yardRecover yard => Sys2Proof.Machine.execYardRecover yard s
  | .watchdogExpire handle gang => Sys2Proof.Machine.execWatchdogExpire handle gang s
  | .quantumExpiry handle gang => Sys2Proof.Machine.execQuantumExpiry handle gang s
  | .gangSwapOut handle gang => Sys2Proof.Machine.execGangSwapOut handle gang s
  | .tileStopDone agent => Sys2Proof.Machine.execTileStopDone agent s
  | .gangSwapIn handle gang => Sys2Proof.Machine.execGangSwapIn handle gang s
  | .rerunSiteReclaim vd => Sys2Proof.Machine.execRerunSiteReclaim vd s
  | .rerunVerdict handle gang => Sys2Proof.Machine.execRerunVerdict handle gang s
  | .cruiseHoldClear handle => Sys2Proof.Machine.execCruiseHoldClear handle s
  | .entropyTestFail test => Sys2Proof.Machine.execEntropyTestFail test s
  | .entropyRecover => Sys2Proof.Machine.execEntropyRecover s
  | .seedLogHeadWrite value => Sys2Proof.Machine.execSeedLogHeadWrite value s
  | .replaySourceSizeWrite value => Sys2Proof.Machine.execReplaySourceSizeWrite value s
  | .queueRecordAppend index => Sys2Proof.Machine.execQueueRecordAppend index s
  | .hostWrite core addr size data => Sys2Proof.Machine.execHostWrite core addr size data s
  | .hostRead core addr size => Sys2Proof.Machine.execHostRead core addr size s
  | .hostLaunchDoorbell queue tail => Sys2Proof.Machine.execHostLaunchDoorbell queue tail s
  | .hostLaunchRecordRead queue => Sys2Proof.Machine.execHostLaunchRecordRead queue s
  | .hostRecordRetry queue => Sys2Proof.Machine.execHostRecordRetry queue s
  | .hostQueueResume queue => Sys2Proof.Machine.execHostQueueResume queue s
  | .hostLinkDown port => Sys2Proof.Machine.execHostLinkDown port s
  | .featureRequestWrite value => Sys2Proof.Machine.execFeatureRequestWrite value s
  | .attestationRequest => Sys2Proof.Machine.execAttestationRequest s
  | .vdEntryWrite vd offset value => Sys2Proof.Machine.execVdEntryWrite vd offset value s
  | .vaultZeroDone site => Sys2Proof.Machine.execVaultZeroDone site s
  | .sitePowerWrite site bits => Sys2Proof.Machine.execSitePowerWrite site bits s
  | .mcrWrite offset value => Sys2Proof.Machine.execMcrWrite offset value s
  | .podRequest module vd space addr size write data => Sys2Proof.Machine.execPodRequest module vd space addr size write data s
  | .podFlitReplay port => Sys2Proof.Machine.execPodFlitReplay port s
  | .podLinkDown port => Sys2Proof.Machine.execPodLinkDown port s
  | .podPortsDownTimeout module => Sys2Proof.Machine.execPodPortsDownTimeout module s
  | .moduleBoot => Sys2Proof.Machine.execModuleBoot s
  | .overcurrentTrip => Sys2Proof.Machine.execOvercurrentTrip s
  | .voltageWindow => Sys2Proof.Machine.execVoltageWindow s
  | .stackThermalChange stack tenths => Sys2Proof.Machine.execStackThermalChange stack tenths s
  | .linkWordArrive index => Sys2Proof.Machine.execLinkWordArrive index s
  | .voltageRampDone course => Sys2Proof.Machine.execVoltageRampDone course s

end Sys2Proof.Machine
end

