-- ==== Sys2Proof/Machine/Step.lean ====
section
/-! DEFINITION. One step of the machine: the next move is a cycle of an agent or a hardware event; and a word placed where the
next step fetches. -/

namespace Sys2Proof.Machine

/-- One step. -/
def step (s : State) : Host.Outcome State Fault Refusal :=
  match s.nextMove with
  | (.cycle a ready split, s) => match s.slot a ready split with
    | .run i s => exec i s
    | .over o => o
  | (.event e, s) => if State.isEvent e then exec e s else .next s

/-- The instruction whose bits are `w` stands where service core 0 fetches next, and its thread issues next: thread 1, or thread 0
for an instruction of the control thread (log 4). -/
def State.withFetchWord (s : State) (nbits w : Nat) : State :=
  let th := if State.controlWord nbits w then 0 else 1
  let s := (s.armCore th).armSpace
  let s := s.pokeN (rimKey 0x10000) 10 (State.halvesValue (tableHalves nbits w))
  { s with
    poison := NSet.eraseRange s.poison 0x10000 0x10010
    agenda := [.cycle 65536 (1#4 <<< th) false] }

end Sys2Proof.Machine
end

