-- ==== Sys2Proof/Safety.lean ====
section
/-! DEFINITION. The terms in which claims are stated: when an instruction issues with its operands at hand, what its operands give,
and how it leaves the issuing thread. -/

namespace Sys2Proof.Machine.State

/-- The issuing thread meets what an instruction asks of it before its own effect: a thread of the right kind (R38 step 3), the mode
(R38 step 4), a guard that holds (R39), and neither a hold of speculation (R229) nor an outstanding relaxed access in its way (R161). -/
def admits (s : State) (r : Op.Rules) (c : Chain) : Bool :=
  decide (s.cur.2 < 4)
    && !(r.compute && s.cur.2 == 0) && !(r.control && s.cur.2 != 0)
    && (!r.privileged || s.me.sup) && (!r.core || isCore s.cur.1)
    && (!r.guarded || Op.guardHolds s c)
    && (!r.held || s.me.spec.isNone)
    && (!r.drained || s.me.relaxed.isEmpty)

/-- Every operand of an instruction can be taken at once, without a trap or a wait (R98, R104, R248, R313), and the instruction
issues for the first time. -/
def atHand (s : State) (reads dests : List OpRef) : Bool :=
  s.me.held.isEmpty && s.me.popped.isEmpty && !(s.me.spec.isSome && (reads ++ dests).any Op.heldInSpec)
    && s.readiness s.cur.1 s.cur.2 reads dests == .ready

/-- A general source of the issuing thread, with the state after its read (R40, R100). What it pops stays with the instruction until
that completes (R170). -/
def src (s : State) (n : RegNum) : Word × State :=
  let r := s.readG s.cur.1 s.cur.2 n
  (r.1, if Op.pops n then r.2.modMe fun t => t.setPops (t.popped ++ [(s.popName s.cur.1 n, r.1.setWidth 128)]) t.held else s)

/-- A vector source of the issuing thread (R42). -/
def srcV (s : State) (n : RegNum) : VReg × State :=
  let r := s.readV s.cur.1 s.cur.2 n
  (r.1, if isHandle n then r.2.modMe fun t => t.setPops (t.popped ++ [(s.popName s.cur.1 n, r.1)]) t.held else s)

/-- A general destination of the issuing thread, by an instruction of a latency (R40, R96, R101). -/
def dst (s : State) (n : RegNum) (v : Word) (lat : Nat := 1) : State := s.writeG s.cur.1 s.cur.2 n v lat

/-- A vector destination of the issuing thread (R42, R96). -/
def dstV (s : State) (n : RegNum) (v : VReg) (lat : Nat := 1) : State := s.writeV s.cur.1 s.cur.2 n v lat

/-- The address after the base word of the issuing thread's instruction (R60). -/
def after (s : State) (c : Chain) : Word := s.me.pc + BitVec.ofNat 64 (2 * c.len)

/-- The issuing thread's instruction completes with a next PC, which passes the loop step (R127). -/
def went (s : State) (next : Word) (taken : Bool) : State := s.modMe fun t => t.complete next taken

/-- It completes and falls through. -/
def fell (s : State) (c : Chain) : State := s.went (s.after c) false

end Sys2Proof.Machine.State
end

