-- ==== Sys2Proof/Certificates/Slice0/Obligations.lean ====
section
/-! DEFINITION. The statements for the provers, by the rules of the spec, with the tables that they are stated in. -/

set_option autoImplicit false

namespace Sys2Proof.Claims

open Sys2Proof.Machine

/-! ### Scalar instructions: results as the tables of R106 to R115 state them -/

/-- Shift amount: bits 5 to 0. -/
def amount (b : Word) : Nat := b.toNat % 64

/-- A two-source scalar instruction: its chain, X, Y, Z, its latency in turns and its result (R106 to R109). -/
def scalar3 : Instr → Option (Chain × RegNum × RegNum × RegNum × Nat × (Word → Word → Word))
  | .add c x y z => some (c, x, y, z, 1, fun a b => BitVec.ofNat 64 (a.toNat + b.toNat))
  | .sub c x y z => some (c, x, y, z, 1, fun a b => BitVec.ofInt 64 (a.toInt - b.toInt))
  | .and c x y z => some (c, x, y, z, 1, fun a b => a &&& b)
  | .or c x y z => some (c, x, y, z, 1, fun a b => a ||| b)
  | .xor c x y z => some (c, x, y, z, 1, fun a b => a ^^^ b)
  | .shl c x y z => some (c, x, y, z, 1, fun a b => BitVec.ofNat 64 (a.toNat * 2 ^ amount b))
  | .shr c x y z => some (c, x, y, z, 1, fun a b => BitVec.ofNat 64 (a.toNat / 2 ^ amount b))
  | .sar c x y z => some (c, x, y, z, 1, fun a b => BitVec.ofInt 64 (a.toInt / 2 ^ amount b))
  | .addw c x y z => some (c, x, y, z, 1, fun a b => BitVec.ofInt 64 ((a.toInt + b.toInt).bmod (2 ^ 32)))
  | .subw c x y z => some (c, x, y, z, 1, fun a b => BitVec.ofInt 64 ((a.toInt - b.toInt).bmod (2 ^ 32)))
  | .andn c x y z => some (c, x, y, z, 1, fun a b => a &&& ~~~b)
  | .orn c x y z => some (c, x, y, z, 1, fun a b => a ||| ~~~b)
  | .xnor c x y z => some (c, x, y, z, 1, fun a b => ~~~(a ^^^ b))
  | .rol c x y z => some (c, x, y, z, 1, fun a b =>
      if amount b = 0 then a else (a <<< amount b) ||| (a >>> (64 - amount b)))
  | .ror c x y z => some (c, x, y, z, 1, fun a b =>
      if amount b = 0 then a else (a >>> amount b) ||| (a <<< (64 - amount b)))
  | .scadd c x y z => some (c, x, y, z, 1, fun a b => BitVec.ofNat 64 (a.toNat + 8 * b.toNat))
  | .mul c x y z => some (c, x, y, z, 2, fun a b => BitVec.ofNat 64 (a.toNat * b.toNat))
  | .mulh c x y z => some (c, x, y, z, 2, fun a b => BitVec.ofInt 64 (a.toInt * b.toInt / 2 ^ 64))
  | .mulhu c x y z => some (c, x, y, z, 2, fun a b => BitVec.ofNat 64 (a.toNat * b.toNat / 2 ^ 64))
  | .mulhsu c x y z => some (c, x, y, z, 2, fun a b => BitVec.ofInt 64 (a.toInt * (b.toNat : Int) / 2 ^ 64))
  | .div c x y z => some (c, x, y, z, 18, fun a b =>
      if b = 0 then BitVec.allOnes 64
      else if a = 0x8000000000000000#64 ∧ b = BitVec.allOnes 64 then 0x8000000000000000#64
      else BitVec.ofInt 64 (Int.tdiv a.toInt b.toInt))
  | .divu c x y z => some (c, x, y, z, 18, fun a b =>
      if b = 0 then BitVec.allOnes 64 else BitVec.ofNat 64 (a.toNat / b.toNat))
  | .rem c x y z => some (c, x, y, z, 18, fun a b =>
      if b = 0 then a
      else if a = 0x8000000000000000#64 ∧ b = BitVec.allOnes 64 then 0
      else BitVec.ofInt 64 (a.toInt - b.toInt * Int.tdiv a.toInt b.toInt))
  | .remu c x y z => some (c, x, y, z, 18, fun a b =>
      if b = 0 then a else BitVec.ofNat 64 (a.toNat - b.toNat * (a.toNat / b.toNat)))
  | .slt c x y z => some (c, x, y, z, 1, fun a b => if a.toInt < b.toInt then 1 else 0)
  | .sltu c x y z => some (c, x, y, z, 1, fun a b => if a.toNat < b.toNat then 1 else 0)
  | .seq c x y z => some (c, x, y, z, 1, fun a b => if a = b then 1 else 0)
  | .sne c x y z => some (c, x, y, z, 1, fun a b => if a ≠ b then 1 else 0)
  | .min c x y z => some (c, x, y, z, 1, fun a b => if a.toInt ≤ b.toInt then a else b)
  | .max c x y z => some (c, x, y, z, 1, fun a b => if b.toInt ≤ a.toInt then a else b)
  | .minu c x y z => some (c, x, y, z, 1, fun a b => if a.toNat ≤ b.toNat then a else b)
  | .maxu c x y z => some (c, x, y, z, 1, fun a b => if b.toNat ≤ a.toNat then a else b)
  | _ => none

/-- A one-source scalar instruction: its chain, X, Y and its result (R111, R114, R115). -/
def scalar2 : Instr → Option (Chain × RegNum × RegNum × (Word → Word))
  | .brev c x y => some (c, x, y, fun a => BitVec.ofNat 64 ((List.range 64).foldl (fun r i => 2 * r + (a.toNat / 2 ^ i) % 2) 0))
  | .bswap c x y => some (c, x, y, fun a => BitVec.ofNat 64 ((List.range 8).foldl (fun r i => 256 * r + (a.toNat / 256 ^ i) % 256) 0))
  | .sexb c x y => some (c, x, y, fun a => BitVec.ofInt 64 ((a.toNat : Int).bmod (2 ^ 8)))
  | .sexh c x y => some (c, x, y, fun a => BitVec.ofInt 64 ((a.toNat : Int).bmod (2 ^ 16)))
  | .sexw c x y => some (c, x, y, fun a => BitVec.ofInt 64 ((a.toNat : Int).bmod (2 ^ 32)))
  | .addi c x y i => some (c, x, y, fun a => BitVec.ofNat 64 (a.toNat + i.toNat))
  | .andi c x y i => some (c, x, y, fun a => a &&& i)
  | .ori c x y i => some (c, x, y, fun a => a ||| i)
  | .xori c x y i => some (c, x, y, fun a => a ^^^ i)
  | .shli c x y i => some (c, x, y, fun a => BitVec.ofNat 64 (a.toNat * 2 ^ amount i))
  | .shri c x y i => some (c, x, y, fun a => BitVec.ofNat 64 (a.toNat / 2 ^ amount i))
  | .sari c x y i => some (c, x, y, fun a => BitVec.ofInt 64 (a.toInt / 2 ^ amount i))
  | .lih c x i => some (c, x, x, fun a => BitVec.ofNat 64 (i.toNat % 2 ^ 32 * 2 ^ 32 + a.toNat % 2 ^ 32))
  | _ => none

/-- A counting instruction: its chain, X, Y, and what its result is of its source (R111). -/
def counting : Instr → Option (Chain × RegNum × RegNum × (Word → Nat → Prop))
  | .clz c x y => some (c, x, y, fun a n => n ≤ 64 ∧ (∀ i, 64 - n ≤ i → i < 64 → a.getLsbD i = false) ∧ (n < 64 → a.getLsbD (63 - n) = true))
  | .ctz c x y => some (c, x, y, fun a n => n ≤ 64 ∧ (∀ i, i < n → a.getLsbD i = false) ∧ (n < 64 → a.getLsbD n = true))
  | .popc c x y => some (c, x, y, fun a n => n = ((List.range 64).filter fun i => a.getLsbD i).length)
  | _ => none

/-- A branch on general registers: its chain, its sources in the order read, its offset and when it is taken (R119, R120). -/
def branchG : Instr → Option (Chain × RegNum × Option RegNum × Word × (Word → Word → Prop))
  | .bz c x o => some (c, x, none, o, fun a _ => a = 0)
  | .bnz c x o => some (c, x, none, o, fun a _ => a ≠ 0)
  | .bltz c x o => some (c, x, none, o, fun a _ => a.toInt < 0)
  | .bgez c x o => some (c, x, none, o, fun a _ => 0 ≤ a.toInt)
  | .beq c x y o => some (c, x, some y, o, fun a b => a = b)
  | .bne c x y o => some (c, x, some y, o, fun a b => a ≠ b)
  | .blt c x y o => some (c, x, some y, o, fun a b => a.toInt < b.toInt)
  | .bge c x y o => some (c, x, some y, o, fun a b => b.toInt ≤ a.toInt)
  | .bltu c x y o => some (c, x, some y, o, fun a b => a.toNat < b.toNat)
  | .bgeu c x y o => some (c, x, some y, o, fun a b => b.toNat ≤ a.toNat)
  | _ => none

/-- The target of a direct branch: the chain's first halfword plus twice the offset (R118). -/
def target (s : State) (o : Word) : Word := s.me.pc + 2 * o

end Sys2Proof.Claims

open Sys2Proof Sys2Proof.Machine Sys2Proof.Claims

/-- R106 to R109: a scalar instruction of two sources reads Y, then Z, and writes X with the result of its table at its latency, and
its thread falls through. It covers ADD, SUB, AND, OR, XOR, SHL, SHR, SAR, ADDW, SUBW, ANDN, ORN, XNOR, ROL, ROR, SCADD, MUL, MULH,
MULHU, MULHSU, DIV, DIVU, REM, REMU, SLT, SLTU, SEQ, SNE, MIN, MAX, MINU and MAXU, for every register number. -/
def Obligations.ScalarTwoSourceResult : Prop :=
  ∀ (i : Instr) (c : Chain) (x y z : RegNum) (lat : Nat) (f : Word → Word → Word) (s : State),
    scalar3 i = some (c, x, y, z, lat, f) → s.admits {} c = true → s.atHand [.g y, .g z] [.g x] = true →
    exec i s = .next ((((s.src y).2.src z).2.dst x (f (s.src y).1 ((s.src y).2.src z).1) lat).fell c)

/-- R110, R111, R114, R115: a scalar instruction of one source writes X with its result and falls through: BREV, BSWAP, SEXB, SEXH, SEXW,
ADDI, ANDI, ORI, XORI, SHLI, SHRI, SARI and LIH. CLZ, CTZ and POPC write the count that the table states. SEL copies Y where bit 0 of the
predicate, complemented by the sense bit, is 1, and Z otherwise, whatever its guard; LI writes its immediate; ADDPC writes the chain's
address plus twice its immediate. -/
def Obligations.ScalarOneSourceResult : Prop :=
  (∀ (i : Instr) (c : Chain) (x y : RegNum) (f : Word → Word) (s : State),
    scalar2 i = some (c, x, y, f) → s.admits {} c = true → s.atHand [.g y] [.g x] = true →
    exec i s = .next (((s.src y).2.dst x (f (s.src y).1)).fell c)) ∧
  (∀ (i : Instr) (c : Chain) (x y : RegNum) (p : Word → Nat → Prop) (s : State),
    counting i = some (c, x, y, p) → s.admits {} c = true → s.atHand [.g y] [.g x] = true →
    ∃ n : Nat, p (s.src y).1 n ∧ exec i s = .next (((s.src y).2.dst x (BitVec.ofNat 64 n)).fell c)) ∧
  (∀ (c : Chain) (x y z : RegNum) (s : State), s.admits { guarded := false } c = true → s.atHand [.g y, .g z] [.g x] = true →
    exec (.sel c x y z) s = .next ((((s.src y).2.src z).2.dst x
      (if (s.readQ s.cur.1 s.cur.2 c.pred.toNat).getLsbD 0 ^^ c.sense then (s.src y).1 else ((s.src y).2.src z).1)).fell c)) ∧
  (∀ (c : Chain) (x : RegNum) (v : Word) (s : State), s.admits {} c = true → s.atHand [] [.g x] = true →
    exec (.li c x v) s = .next ((s.dst x v).fell c) ∧
    exec (.addpc c x v) s = .next ((s.dst x (s.me.pc + 2 * v)).fell c))

/-- R112, R113: HXY and HIDX write the packed coordinates and the index, all ones where the order is not 1 to 8; and for every order
from 1 to 8, HIDX of HXY of d is d. -/
def Obligations.HilbertResult : Prop :=
  (∀ (c : Chain) (x y z : RegNum) (s : State), s.admits {} c = true → s.atHand [.g y, .g z] [.g x] = true →
    exec (.hxy c x y z) s = .next ((((s.src y).2.src z).2.dst x (hxyW (s.src y).1 ((s.src y).2.src z).1) 2).fell c) ∧
    exec (.hidx c x y z) s = .next ((((s.src y).2.src z).2.dst x (hidxW (s.src y).1 ((s.src y).2.src z).1) 2).fell c)) ∧
  (∀ d n : Word, (n = 0 ∨ 8 < n.toNat) → hxyW d n = BitVec.allOnes 64 ∧ hidxW d n = BitVec.allOnes 64) ∧
  (∀ n d : Nat, 1 ≤ n → n ≤ 8 → d < 4 ^ n →
    hidxW (hxyW (BitVec.ofNat 64 d) (BitVec.ofNat 64 n)) (BitVec.ofNat 64 n) = BitVec.ofNat 64 d)

/-- R118 to R122, R126: a branch on one or two general registers goes to its target where its condition holds and falls through elsewhere;
the target counts as taken for the loop step (R127): BZ, BNZ, BLTZ, BGEZ, BEQ, BNE, BLT, BGE, BLTU and BGEU. BQ and BNQ branch on any lane
bit or none; J goes to its target; CALL and CALLR also write lk with the address after the base word and step LDEPTH up; JR and RET go to an
even register value, RET stepping LDEPTH down. -/
def Obligations.BranchResult : Prop :=
  (∀ (i : Instr) (c : Chain) (x : RegNum) (y : Option RegNum) (o : Word) (p : Word → Word → Prop) (s : State),
    branchG i = some (c, x, y, o, p) → s.admits {} c = true → s.atHand (.g x :: (y.map OpRef.g).toList) [] = true →
    let a := s.src x
    let b := match y with
      | some y => a.2.src y
      | none => (0, a.2)
    (p a.1 b.1 → exec i s = .next (b.2.went (target s o) true)) ∧ (¬ p a.1 b.1 → exec i s = .next (b.2.fell c))) ∧
  (∀ (c : Chain) (s : State) (o : Word), s.admits {} c = true →
    (∀ q : BitVec 3,
      exec (.bq c q o) s = .next (if s.readQ s.cur.1 s.cur.2 q.toNat ≠ 0 then s.went (target s o) true else s.fell c) ∧
      exec (.bnq c q o) s = .next (if s.readQ s.cur.1 s.cur.2 q.toNat = 0 then s.went (target s o) true else s.fell c)) ∧
    exec (.j c o) s = .next (s.went (target s o) true) ∧
    (s.atHand [] [.g 1] = true →
      exec (.call c o) s = .next (((s.dst 1 (s.after c)).modMe fun t => { t with ldepth := depthUp t.ldepth }).went (target s o) false)) ∧
    (∀ x : RegNum, s.atHand [.g x] [] = true → (s.src x).1.getLsbD 0 = false →
      exec (.jr c x) s = .next ((s.src x).2.went (s.src x).1 true)) ∧
    (∀ x : RegNum, s.atHand [.g x] [.g 1] = true → (s.src x).1.getLsbD 0 = false →
      exec (.callr c x) s = .next ((((s.src x).2.dst 1 (s.after c)).modMe
        fun t => { t with ldepth := depthUp t.ldepth }).went (s.src x).1 false)) ∧
    (s.atHand [.g 1] [] = true → (s.src 1).1.getLsbD 0 = false →
      exec (.ret c) s = .next (((s.src 1).2.modMe Thread.loopReturn).went (s.src 1).1 false)))

/-- R125: LOOP makes entry 0 if it is free, else entry 1, of the body from the next address to its end with the count and LDEPTH, and
goes on; a zero count goes to the end. -/
def Obligations.LoopResult : Prop :=
  ∀ (c : Chain) (x : RegNum) (o : Word) (s : State), s.admits {} c = true → s.atHand [.g x] [] = true →
    (s.after c).toNat < (target s o).toNat →
    ((s.src x).1 = 0 → exec (.loop c x o) s = .next ((s.src x).2.went (target s o) false)) ∧
    ((s.src x).1 ≠ 0 → s.me.loop1.valid = false →
      exec (.loop c x o) s = .next (((s.src x).2.modMe fun t =>
        let e : LoopEntry := ⟨s.after c, target s o, (s.src x).1, t.ldepth, true⟩
        if t.loop0.valid then { t with loop1 := e } else { t with loop0 := e }).went (s.after c) false))

namespace Sys2Proof.Claims

open Sys2Proof.Machine

/-! ### Memory -/

/-- An access of the issuing thread passes conditions 1 to 3 of R137. -/
def addressed (s : State) (addr : Word) (n : Nat) (u : Use) : Bool := (s.checkAddress s.cur.1 s.cur.2 addr n u).isNone

/-- It leads, past conditions 4 to 7 and without a wait, to the memory byte of a key. -/
def goesTo (s : State) (addr : Word) (u : Use) (key : Nat) : Bool :=
  match s.resolve s.cur.1 s.cur.2 addr u with
  | .ok (.mem k) => k == key
  | _ => false

/-- The thread does not speculate, has no relaxed access outstanding, and the instruction's relaxed bit is clear. -/
def plainly (s : State) (c : Chain) : Bool := s.me.spec.isNone && s.me.relaxed.isEmpty && !c.relaxed

/-- The plain and signed loads: chain, X, Y, offset, bytes, sign (R164). -/
def loadOf : Instr → Option (Chain × RegNum × RegNum × Word × Nat × Bool)
  | .ldb c x y o => some (c, x, y, o, 1, false)
  | .ldh c x y o => some (c, x, y, o, 2, false)
  | .ldw c x y o => some (c, x, y, o, 4, false)
  | .ldd c x y o => some (c, x, y, o, 8, false)
  | .ldbs c x y o => some (c, x, y, o, 1, true)
  | .ldhs c x y o => some (c, x, y, o, 2, true)
  | .ldws c x y o => some (c, x, y, o, 4, true)
  | _ => none

/-- The plain stores: chain, X, Y, offset, bytes (R164). -/
def storeOf : Instr → Option (Chain × RegNum × RegNum × Word × Nat)
  | .stb c x y o => some (c, x, y, o, 1)
  | .sth c x y o => some (c, x, y, o, 2)
  | .stw c x y o => some (c, x, y, o, 4)
  | .std c x y o => some (c, x, y, o, 8)
  | _ => none

/-- The full/empty loads: chain, X, Y, offset, bytes, whether they empty the words (R165). -/
def feLoadOf : Instr → Option (Chain × RegNum × RegNum × Word × Nat × Bool)
  | .ldf c x y o => some (c, x, y, o, 4, false)
  | .ldfd c x y o => some (c, x, y, o, 8, false)
  | .ldfe c x y o => some (c, x, y, o, 4, true)
  | .ldfed c x y o => some (c, x, y, o, 8, true)
  | _ => none

/-- The full/empty stores: chain, X, Y, offset, bytes, whether they wait for empty words (R165). -/
def feStoreOf : Instr → Option (Chain × RegNum × RegNum × Word × Nat × Bool)
  | .ste c x y o => some (c, x, y, o, 4, true)
  | .sted c x y o => some (c, x, y, o, 8, true)
  | .stf c x y o => some (c, x, y, o, 4, false)
  | .stfd c x y o => some (c, x, y, o, 8, false)
  | _ => none

/-- The value of a loaded number of `n` bytes in a register (R164). -/
def loaded (signed : Bool) (n v : Nat) : Word := if signed then BitVec.ofInt 64 ((v : Int).bmod (2 ^ (8 * n))) else BitVec.ofNat 64 v

/-- No request waits at the doubleword of a key in a full/empty list (R166). -/
def noFe (s : State) (key : Nat) : Bool := !s.fe.any fun r => State.dwordOf r.key == State.dwordOf key

/-- Words of an access full, or empty (R165). -/
def wordsAre (s : State) (key n : Nat) (full : Bool) : Bool :=
  s.isFull key == full && (n != 8 || s.isFull (key + 4) == full)

/-- The words of an access marked (R165). -/
def mark (s : State) (key n : Nat) (full : Bool) : State :=
  let s := s.setFull key full
  if n = 8 then s.setFull (key + 4) full else s

/-- The doubleword has no holder and no waiting request, and its bank's queue table has room and no rejected request (R200). -/
def bankFree (s : State) (key : Nat) : Bool :=
  !(s.holders.any fun h => h.key == State.dwordOf key) && !(s.resv.any fun r => State.dwordOf r.key == State.dwordOf key)
    && !(s.rejected.any fun q => State.bankOf q.key == State.bankOf key) && decide (s.queueLoad (State.bankOf key) < 32)

/-- A counted store of the issuing thread at its home: its digest terms and its bytes (R161, R365). -/
def stored (s : State) (addr : Word) (key n v : Nat) : State := (s.digest s.cur.1 s.me.cx addr n v).storeAs s.cur.1 key n v

/-- An access of the issuing thread has gone through the translation of its page, where it has one (R154). -/
def used (s : State) (addr : Word) : State := s.usePage s.cur.1 addr

/-- An access leads, past conditions 4 to 7 and without a wait, to a place that is not memory. -/
def leadsTo (s : State) (addr : Word) (u : Use) : Option Target :=
  match s.resolve s.cur.1 s.cur.2 addr u with
  | .ok t => some t
  | .error _ => none

/-- The atomics: chain, X, Y, bytes, operation, and whether X + 1 is read too (R210, R212). -/
def atomicOf : Instr → Option (Chain × RegNum × RegNum × Nat × AtomOp × Bool)
  | .aadd c x y => some (c, x, y, 8, .add, false)
  | .aand c x y => some (c, x, y, 8, .and, false)
  | .aor c x y => some (c, x, y, 8, .or, false)
  | .axor c x y => some (c, x, y, 8, .xor, false)
  | .amin c x y => some (c, x, y, 8, .min, false)
  | .amax c x y => some (c, x, y, 8, .max, false)
  | .aminu c x y => some (c, x, y, 8, .minu, false)
  | .amaxu c x y => some (c, x, y, 8, .maxu, false)
  | .aswap c x y => some (c, x, y, 8, .swap, false)
  | .acas c x y => some (c, x, y, 8, .cas, true)
  | .afadd c x y => some (c, x, y, 8, .fadd, false)
  | .afaddo c x y => some (c, x, y, 8, .faddo, true)
  | .aaddw c x y => some (c, x, y, 4, .add, false)
  | .aandw c x y => some (c, x, y, 4, .and, false)
  | .aorw c x y => some (c, x, y, 4, .or, false)
  | .axorw c x y => some (c, x, y, 4, .xor, false)
  | .aminw c x y => some (c, x, y, 4, .min, false)
  | .amaxw c x y => some (c, x, y, 4, .max, false)
  | .aminuw c x y => some (c, x, y, 4, .minu, false)
  | .amaxuw c x y => some (c, x, y, 4, .maxu, false)
  | .aswapw c x y => some (c, x, y, 4, .swap, false)
  | .acasw c x y => some (c, x, y, 4, .cas, true)
  | .afaddw c x y => some (c, x, y, 4, .fadd, false)
  | .afaddow c x y => some (c, x, y, 4, .faddo, true)
  | _ => none

/-- What an integer atomic stores, none where ACAS finds another value (R210). -/
def atomicNew (op : AtomOp) (n old x second : Nat) : Option Nat :=
  let signed (v : Nat) : Int := (v : Int).bmod (2 ^ (8 * n))
  match op with
  | .add => some ((old + x) % 2 ^ (8 * n))
  | .and => some (old &&& x)
  | .or => some (old ||| x)
  | .xor => some (old ^^^ x)
  | .min => some (if signed old ≤ signed x then old else x)
  | .max => some (if signed x ≤ signed old then old else x)
  | .minu => some (Nat.min old x)
  | .maxu => some (Nat.max old x)
  | .swap => some x
  | .cas => if old = x then some second else none
  | .fadd | .faddo => some (if n = 8 then Fp.fp64.addBits 1 0 old x else Fp.fp32.addBits 1 0 old x).1

/-- The flags of a floating-point atomic (R210, R212). -/
def atomicFlags (op : AtomOp) (n old x : Nat) : BitVec 5 :=
  match op with
  | .fadd | .faddo => (if n = 8 then Fp.fp64.addBits 1 0 old x else Fp.fp32.addBits 1 0 old x).2
  | _ => 0

end Sys2Proof.Claims

/-- R136, R146, R162, R164: a plain load of LDB, LDH, LDW, LDD, LDBS, LDHS or LDWS reads its bytes, little-endian, at the base plus the
offset times the access size, and writes X zero- or sign-extended, with the turns of its home as its latency (those of rim memory are
free, log 67); a load of the control window and of a module register reads what those hold (R141, R145). -/
def Obligations.LoadResult : Prop :=
  ∀ (i : Instr) (c : Chain) (x y : RegNum) (o : Word) (n : Nat) (signed : Bool) (s : State) (key : Nat),
    loadOf i = some (c, x, y, o, n, signed) → s.admits {} c = true → s.atHand [.g y] [.g x] = true → plainly s c = true →
    let u := (s.src y).2
    let addr := (s.src y).1 + o * BitVec.ofNat 64 n
    addressed u addr n Use.load = true →
    (goesTo u addr Use.load key = true → u.poisonedAs s.cur.1 key n = false →
      exec i s = .next (((used u addr).dst x (loaded signed n (u.viewN s.cur.1 key n)) (u.homeTurns s.cur.1 key)).fell c)) ∧
    (∀ off, leadsTo u addr Use.load = some (.window off) →
      exec i s = .next (((used u addr).dst x (loaded signed n (u.windowRead s.cur.1 off n)) 1).fell c)) ∧
    (∀ off, leadsTo u addr Use.load = some (.mcr off) →
      exec i s = .next (((used u addr).dst x (loaded signed n (u.mcrRead off).toNat) (u.homeTurns s.cur.1 (mcrKey off))).fell c))

/-- R136, R160, R164: a plain store of STB, STH, STW or STD reads its base Y, then its data X, and stores the low bytes of X at its
address; the thread falls through. A store to a module register writes it (R145). -/
def Obligations.StoreResult : Prop :=
  ∀ (i : Instr) (c : Chain) (x y : RegNum) (o : Word) (n : Nat) (s : State) (key : Nat),
    storeOf i = some (c, x, y, o, n) → s.admits {} c = true → s.atHand [.g y, .g x] [] = true → plainly s c = true →
    let u := ((s.src y).2.src x).2
    let addr := (s.src y).1 + o * BitVec.ofNat 64 n
    let v := ((s.src y).2.src x).1.toNat % 256 ^ n
    addressed u addr n Use.store = true →
    (goesTo u addr Use.store key = true → exec i s = .next ((used (stored u addr key n v) addr).fell c)) ∧
    (∀ off, leadsTo u addr Use.store = some (.mcr off) → exec i s = .next ((u.mcrWrite off (BitVec.ofNat 64 v)).fell c))

/-- R167, R172: VLD and VST move 16 bytes as two doublewords. Both are performed in one step where the move does not set them apart; where
it does, the first is performed and the thread is kept until the second has been. That the low
doubleword is the first is the model's choice (log 63): R172 gives no order. -/
def Obligations.VectorMoveResult : Prop :=
  ∀ (c : Chain) (x y : RegNum) (o : Word) (s : State) (k1 : Nat), s.admits { compute := true } c = true → plainly s c = true →
    let addr := (s.src y).1 + o * 16
    (s.atHand [.g y] [.v x] = true →
      let u := (s.src y).2
      let lo := u.viewN s.cur.1 k1 8
      let w := used u addr
      addressed u addr 16 Use.load = true → goesTo u addr Use.load k1 = true → u.poisonedAs s.cur.1 k1 8 = false →
      (s.split = true → exec (.vld c x y o) s = .next ((w.modMe fun t => { t with relaxed := t.relaxed ++
        [{ addr := addr, size := 16, store := false, dest := x, vector := true, first := some (BitVec.ofNat 64 lo) }] }).parkMe c (.half addr))) ∧
      (∀ k2, s.split = false → goesTo w (addr + 8) Use.load k2 = true → w.poisonedAs s.cur.1 k2 8 = false →
        exec (.vld c x y o) s = .next (((used w (addr + 8)).dstV x (BitVec.ofNat 128 (lo + 2 ^ 64 * w.viewN s.cur.1 k2 8))
          (max (u.homeTurns s.cur.1 k1) (w.homeTurns s.cur.1 k2))).fell c))) ∧
    (s.atHand [.g y, .v x] [] = true →
      let u := ((s.src y).2.srcV x).2
      let d := ((s.src y).2.srcV x).1
      let w := used (stored u addr k1 8 (d.toNat % 2 ^ 64)) addr
      addressed u addr 16 Use.store = true → goesTo u addr Use.store k1 = true →
      (s.split = true → exec (.vst c x y o) s = .next ((w.modMe fun t => { t with relaxed := t.relaxed ++
        [{ addr := addr, size := 16, store := true, data := d, cx := s.me.cx, first := some 0 }] }).parkMe c (.half addr))) ∧
      (∀ k2, s.split = false → goesTo w (addr + 8) Use.store k2 = true →
        exec (.vst c x y o) s = .next ((used (stored w (addr + 8) k2 8 (d.toNat / 2 ^ 64)) (addr + 8)).fell c)))

/-- R161: an access whose relaxed bit is set, of a thread that does not speculate and has fewer than eight outstanding, joins the
outstanding accesses and the thread goes on: the loads and stores of R164. A load of the control window keeps what it holds at its issue
(R141). -/
def Obligations.RelaxedAccessIssues : Prop :=
  (∀ (i : Instr) (c : Chain) (x y : RegNum) (o : Word) (n : Nat) (signed : Bool) (s : State),
    loadOf i = some (c, x, y, o, n, signed) → s.admits {} c = true → s.atHand [.g y] [.g x] = true →
    c.relaxed = true → s.me.spec = none → s.me.relaxed.length < 8 →
    let u := (s.src y).2
    let addr := (s.src y).1 + o * BitVec.ofNat 64 n
    addressed u addr n { Use.load with relaxed := true } = true →
    exec i s = .next ((u.modMe fun t => { t with relaxed := t.relaxed ++
      [{ addr := addr, size := n, store := false, signed := signed, dest := x, cx := t.cx, window := windowNow u addr n
         at_ := u.cyc s.cur.1 }] }).fell c)) ∧
  (∀ (i : Instr) (c : Chain) (x y : RegNum) (o : Word) (n : Nat) (s : State),
    storeOf i = some (c, x, y, o, n) → s.admits {} c = true → s.atHand [.g y, .g x] [] = true →
    c.relaxed = true → s.me.spec = none → s.me.relaxed.length < 8 →
    let u := ((s.src y).2.src x).2
    let addr := (s.src y).1 + o * BitVec.ofNat 64 n
    addressed u addr n { Use.store with relaxed := true } = true →
    exec i s = .next ((u.modMe fun t => { t with relaxed := t.relaxed ++
      [{ addr := addr, size := n, store := true, data := BitVec.ofNat 128 (((s.src y).2.src x).1.toNat % 256 ^ n), cx := t.cx
         at_ := u.cyc s.cur.1 }] }).fell c))

/-- R165, R166: with no earlier request at the doubleword, a full/empty load of full words reads them and, for LDFE and LDFED, empties
them; STE and STED fill empty words; STF and STFD fill words whatever their state; in one step. -/
def Obligations.FullEmptyResult : Prop :=
  (∀ (i : Instr) (c : Chain) (x y : RegNum) (o : Word) (n : Nat) (clear : Bool) (s : State) (key : Nat),
    feLoadOf i = some (c, x, y, o, n, clear) → s.admits { held := true, drained := true } c = true → s.atHand [.g y] [.g x] = true →
    let u := (s.src y).2
    let addr := (s.src y).1 + o * BitVec.ofNat 64 n
    let use : Use := { read := true, write := clear, fe := true, plain := false }
    addressed u addr n use = true → goesTo u addr use key = true → noFe u key = true → wordsAre u key n true = true →
    u.poisonedAs s.cur.1 key n = false → u.shadows s.cur.1 key = false →
    exec i s = .next (((if clear then mark (used u addr) key n false else used u addr).dst x (BitVec.ofNat 64 (u.readN key n)) (u.homeTurns s.cur.1 key)).fell c)) ∧
  (∀ (i : Instr) (c : Chain) (x y : RegNum) (o : Word) (n : Nat) (waits : Bool) (s : State) (key : Nat),
    feStoreOf i = some (c, x, y, o, n, waits) → s.admits { held := true, drained := true } c = true → s.atHand [.g y, .g x] [] = true →
    let u := ((s.src y).2.src x).2
    let addr := (s.src y).1 + o * BitVec.ofNat 64 n
    let use : Use := { write := true, fe := true, plain := false, parks := !waits, kind := .store }
    addressed u addr n use = true → goesTo u addr use key = true → noFe u key = true → (waits = true → wordsAre u key n false = true) →
    u.shadows s.cur.1 key = false →
    exec i s = .next ((mark (stored (used u addr) addr key n (((s.src y).2.src x).1.toNat % 256 ^ n)) key n true).fell c))

/-- R201, R208: LRW, and LRO with the next ticket of its doubleword, of a thread that holds no reservation, are granted at once on a
free doubleword: the doubleword is held, its value goes to X and the reservation into the synchronisation record.
That they take no trap on a poisoned doubleword is the model's reading (log 39). -/
def Obligations.ReservationGranted : Prop :=
  (∀ (c : Chain) (x y : RegNum) (s : State) (key : Nat), s.admits { held := true, drained := true } c = true →
    s.atHand [.g y] [.g x] = true → s.me.sync = {} →
    let u := (s.src y).2
    let addr := (s.src y).1
    addressed u addr 8 Use.atomic = true → State.syncSpace false addr = true → goesTo u addr Use.atomic key = true → bankFree u key = true →
    exec (.lrw c x y) s = .next ((({ used u addr with holders := u.holders ++ [Holder.mk (State.dwordOf key) s.cur.1 s.cur.2] }.modMe fun t =>
      { t with sync := { heldAddr := addr, heldKind := 1, revoked := false, ticket := 0, heldKey := some (State.dwordOf key) } }).dst x
        (BitVec.ofNat 64 (u.viewN s.cur.1 (State.dwordOf key) 8)) (u.homeTurns s.cur.1 key)).fell c)) ∧
  (∀ (c : Chain) (x y : RegNum) (s : State) (key : Nat), s.admits { held := true, drained := true } c = true →
    s.atHand [.g y, .g x] [.g x] = true → s.me.sync = {} →
    let u := ((s.src y).2.src x).2
    let addr := (s.src y).1
    let t := ((s.src y).2.src x).1
    addressed u addr 8 Use.atomic = true → State.syncSpace true addr = true → goesTo u addr Use.atomic key = true → bankFree u key = true →
    u.ticketOf key = some t →
    exec (.lro c x y) s = .next ((({ used u addr with holders := u.holders ++ [Holder.mk (State.dwordOf key) s.cur.1 s.cur.2] }.modMe fun r =>
      { r with sync := { heldAddr := addr, heldKind := 2, revoked := false, ticket := t, heldKey := some (State.dwordOf key) } }).dst x
        (BitVec.ofNat 64 (u.viewN s.cur.1 (State.dwordOf key) 8)) (u.homeTurns s.cur.1 key)).fell c))

/-- R202, R209: SCH of the thread's own reservation stores, hands the doubleword on and writes 0; SCO also steps the ticket; without
that reservation both write 2 and store nothing. -/
def Obligations.HandOffResult : Prop :=
  ∀ (c : Chain) (x y : RegNum) (s : State) (key : Nat) (ordered : Bool), s.admits { held := true, drained := true } c = true →
    s.atHand [.g y, .g x] [.g x] = true →
    let i : Instr := if ordered then .sco c x y else .sch c x y
    let kind : BitVec 8 := if ordered then 2 else 1
    let u := ((s.src y).2.src x).2
    let addr := (s.src y).1
    let v := ((s.src y).2.src x).1.toNat
    addressed u addr 8 Use.atomic = true → State.syncSpace ordered addr = true → goesTo u addr Use.atomic key = true →
    (s.me.sync.heldKind = kind → s.me.sync.heldAddr = addr → s.me.sync.revoked = false →
      let w := stored (used u addr) addr key 8 v
      exec i s = .next ((((if ordered then w.ticketStep key else w).dropHold s.cur.1 s.cur.2 false).dst x 0).fell c)) ∧
    (s.me.sync.heldKind = kind → s.me.sync.heldAddr = addr → s.me.sync.revoked = true →
      exec i s = .next ((((used u addr).modMe fun t => { t with sync := {} }).dst x 1).fell c)) ∧
    ((s.me.sync.heldKind ≠ kind ∨ s.me.sync.heldAddr ≠ addr) → exec i s = .next (((used u addr).dst x 2).fell c))

/-- R210: an atomic on a free doubleword, AFADDO with its doubleword's next ticket, reads the old value into X, stores the new one where
there is one, and goes on, in one step; R212: AFADDO also steps the
ticket. That an atomic takes no trap on a poisoned operand is the model's reading (log 39). -/
def Obligations.AtomicResult : Prop :=
  ∀ (i : Instr) (c : Chain) (x y : RegNum) (n : Nat) (op : AtomOp) (pair : Bool) (s : State) (key : Nat),
    atomicOf i = some (c, x, y, n, op, pair) → s.admits { held := true, drained := true } c = true →
    s.atHand (if pair then [.g y, .g x, .g (x + 1)] else [.g y, .g x]) [.g x] = true →
    let u1 := ((s.src y).2.src x).2
    let u := if pair then (u1.src (x + 1)).2 else u1
    let addr := (s.src y).1
    let v := ((s.src y).2.src x).1.toNat % 2 ^ (8 * n)
    let v2 := if pair then (u1.src (x + 1)).1 else 0
    let old := u.viewN s.cur.1 key n
    addressed u addr n Use.atomic = true → State.syncSpace (op == .faddo) addr = true → goesTo u addr Use.atomic key = true →
    bankFree u key = true → u.shadows s.cur.1 key = false → (op = .faddo → u.ticketOf key = some v2) →
    let w := match atomicNew op n old v (v2.toNat % 2 ^ (8 * n)) with
      | some new => ((used u addr).digest s.cur.1 s.me.cx addr n (if op.counts then v else new)).store key n new
      | none => (used u addr).rollWatchers key n
    let w := if op = .faddo then w.ticketStep key else w
    exec i s = .next (((w.raise s.cur.1 s.cur.2 (atomicFlags op n old v)).dst x (BitVec.ofNat 64 old) (u.atomTurns s.cur.1 key op)).fell c)

/-- R180, R194 to R196, R199, R102, R207: WAITF goes on at once where its word is full, and CLRF empties its word. A FENCE of any scope goes on
where nothing in its scope is outstanding; WAITC goes on where the counter has reached its threshold; TAKE reads a full shared register and
empties it from the next cycle; OINIT sets a doubleword's next ticket, whoever holds the doubleword. -/
def Obligations.FenceWaitTakeOinit : Prop :=
  (∀ (c : Chain) (y : RegNum) (s : State) (key : Nat), s.admits { held := true, drained := true } c = true → s.atHand [.g y] [] = true →
    let u := (s.src y).2
    let addr := (s.src y).1
    noFe u key = true →
    (let use : Use := { read := true, fe := true, plain := false }
     addressed u addr 4 use = true → goesTo u addr use key = true → u.isFull key = true →
     exec (.waitf c y) s = .next ((used u addr).fell c)) ∧
    (let use : Use := { write := true, fe := true, plain := false, parks := true, kind := .store }
     addressed u addr 4 use = true → goesTo u addr use key = true → u.shadows s.cur.1 key = false →
     exec (.clrf c y) s = .next (((used u addr).setFull key false).fell c))) ∧
  ∀ (c : Chain) (s : State),
    (s.admits { drained := true } c = true → exec (.fence c) s = .next (s.fell c)) ∧
    (s.admits { held := true, drained := true } c = true →
      (s.fenceClear s.cur.1 s.cur.2 1 = true → exec (.fenceG c) s = .next (s.fell c)) ∧
      (s.fenceClear s.cur.1 s.cur.2 2 = true → exec (.fenceM c) s = .next (s.fell c)) ∧
      (s.fenceClear s.cur.1 s.cur.2 3 = true → exec (.fenceP c) s = .next (s.fell c)) ∧
      (∀ (k : BitVec 4) (y : RegNum), s.atHand [.g y] [] = true →
        (s.src y).1.toNat % 2 ^ 32 ≤ (vget ((s.src y).2.tile s.cur.1).c k.toNat 0).toNat →
        exec (.waitc c k y) s = .next ((s.src y).2.fell c)) ∧
      (∀ (x y : RegNum) (key : Nat), s.atHand [.g y, .g x] [] = true →
        let u := ((s.src y).2.src x).2
        let addr := (s.src y).1
        let t := ((s.src y).2.src x).1
        addressed u addr 8 Use.atomic = true → State.syncSpace true addr = true → goesTo u addr Use.atomic key = true →
        let rest := u.orders.filter fun o => o.key != State.dwordOf key
        let w : State := { used u addr with orders := if t = BitVec.allOnes 64 then rest else rest ++ [OrderEntry.mk (State.dwordOf key) t] }
        u.oinitReady key t = true →
        (bankFree u key = true → exec (.oinit c x y) s = .next (w.fell c)) ∧
        (u.holders.any (fun h => h.key == State.dwordOf key) = true →
          exec (.oinit c x y) s = .next (w.fell c)))) ∧
    (s.admits { held := true } c = true → ∀ (x y : RegNum), s.atHand [.g y] [.g x] = true → isShared y = true →
      exec (.take c x y) s = .next (((s.src y).2.modTile s.cur.1 (fun t => t.addChange ⟨y.toNat - 32, s.cyc s.cur.1 + 1, none, s.cur.2⟩)).dst x
        (s.src y).1 |>.fell c))

namespace Sys2Proof.Claims

open Sys2Proof.Machine

/-! ### Barriers and messages -/

/-- `some t` where a condition holds. -/
def when (b : Bool) (t : State) : Option State := if b then some t else none

/-- The rules of an instruction that waits while its thread speculates and for its outstanding relaxed accesses (R161, R229). -/
def settled : Op.Rules := { held := true, drained := true }

/-- A thread parked at a barrier with its arrival noted (R219), and the place it has reserved for a result (R160). -/
def arrived (s : State) (c : Chain) (b : Nat) (w : BarWait) (v : Word) (claims : List RegNum := s.me.claims) : State :=
  ((s.modMe fun t => { t with
    park := some (.barrier b), parkNext := s.after c, popped := t.popped ++ t.held, held := [], claims := claims }).modTile s.cur.1 fun t =>
    { t with
      arrived := vset t.arrived b (vget t.arrived b 0 ||| (1#4 <<< s.cur.2))
      barWait := vset t.barWait s.cur.2 w
      contrib := vset t.contrib s.cur.2 v }).decideGroup s.cur.1 b

/-- What a barrier instruction does where it need not wait before its own effect (R215 to R225). -/
def barrierEffect (i : Instr) (s : State) : Option State :=
  let a := s.cur.1
  let th := s.cur.2
  let clear := s.fenceClear a th 1
  match i with
  | .bar c b =>
    if s.participates a th b.toNat then when (s.admits settled c && clear && s.me.popped.isEmpty && s.me.held.isEmpty)
      (arrived s c b.toNat { kind := 1, ident := b } 0)
    else when (s.admits { held := true } c) (s.fell c)
  | .bars c b =>
    if s.participates a th b.toNat then
      let waits := th == 0 || !s.feature 2 || (s.tile a).specUsed.getLsbD (4 * b.toNat + th)
      let check : Spec := { bar := b.toNat, barsPc := s.me.pc, pc := s.after c, g := s.me.g, v := s.me.v, q := s.me.q, fst := s.me.fst,
                            srcnt := s.me.srcnt, loop0 := s.me.loop0, loop1 := s.me.loop1, ldepth := s.me.ldepth }
      let entered := (s.modTile a fun t => { t with
        arrived := vset t.arrived b.toNat (vget t.arrived b.toNat 0 ||| (1#4 <<< th))
        barWait := vset t.barWait th { kind := 1, ident := b }
        contrib := vset t.contrib th 0 }).decideGroup a b.toNat
      when (s.admits settled c && clear && s.me.popped.isEmpty && s.me.held.isEmpty)
        (if waits || entered.isDecided a th b.toNat then arrived s c b.toNat { kind := 1, ident := b } 0
         else (entered.modMe fun t => { t with spec := some check }).fell c)
    else when (s.admits { held := true } c) (s.fell c)
  | .barr c x b op =>
    let r := s.src x
    if s.participates a th b.toNat then when (s.admits settled c && s.atHand [.g x] [.g x] && clear)
      (arrived r.2 c b.toNat { kind := 2, ident := b, op := op, dest := x } r.1
        (if (40 ≤ x.toNat && x.toNat ≤ 43) || isHandle x then [x] else []))
    else when (s.admits { held := true } c && s.atHand [.g x] [.g x]) ((r.2.dst x r.1).fell c)
  | .barcfg c b x =>
    let r := s.src x
    let w := r.2.modTile a fun t => { t with barCfg := vset t.barCfg b.toNat (r.1.setWidth 16 &&& 0x0F1F#16) }
    let w := match (r.2.membersOf a b.toNat).filter (· != a) with
      | o :: _ => w.decideGroup o b.toNat
      | [] => w
    when (s.admits { held := true } c && s.atHand [.g x] [] && vget (s.tile a).arrived b.toNat 0 == 0) ((w.decideGroup a b.toNat).fell c)
  | .barq c x b =>
    let t := s.tile a
    let waiting := [0, 1, 2, 3].any fun u => (vget t.arrived b.toNat 0).getLsbD u && !s.isDecided a u b.toNat
    let past := s.me.spec.any fun sp => sp.bar == b.toNat
    when (s.admits {} c && s.atHand [] [.g x])
      ((s.dst x (BitVec.ofNat 64 ((vget t.phase b.toNat 0).toNat + (if waiting then 4 else 0) + (if past then 8 else 0)
        + 256 * (vget t.barCfg b.toNat 0).toNat))).fell c)
  | _ => none

/-- A message in flight of the issuing thread, handed over with an outbound entry (R239). -/
def handedOver (s : State) (kind : MsgKind) (dest : BitVec 32) (site : Option Nat) (gen : BitVec 16) : State :=
  let t := s.tile s.cur.1
  let m : Msg := { id := s.nextMsg, kind := kind, agent := s.cur.1, thread := s.cur.2, vtn := t.vtn, handle := t.handle,
                   vd := s.vdOf s.cur.1, dest := dest, site := site, gen := gen, mark := t.mark, sup := s.me.sup, at_ := s.cyc s.cur.1 }
  { s with net := s.net ++ [m], nextMsg := s.nextMsg + 1 }.modTile s.cur.1 fun t => { t with outb := t.outb ++ [m.id] }

/-- The same for a virtual tile, at the site that translation gives (R257). -/
def postedTo (s : State) (kind : MsgKind) (dest : BitVec 32) : State :=
  let r := s.route s.cur.1 (s.tile s.cur.1).handle (s.tile s.cur.1).mark dest
  match r.1 with
  | .site b g => handedOver r.2 kind dest (some b) g
  | .absent | .gone | .away => handedOver r.2 kind dest none 0

/-- A new value of a counter, with the threads that it releases and its trigger evaluation (R199, R241). -/
def counterSet (s : State) (a k : Nat) (v : BitVec 32) : State :=
  (((s.modTile a fun t => { t with c := vset t.c k v }).releaseWaitc a k).wakeSleepers a).evaluate a { ctr := k }

/-- A local update of a counter that an armed slot watches may fire it: the thread's relaxed accesses come first (R178; log 81). -/
def counterRules (s : State) (k : BitVec 4) : Op.Rules :=
  { held := true, drained := (s.tile s.cur.1).trig.any fun g => g.cfg.getLsbD 47 && (g.cfg.extractLsb' 32 4).toNat == k.toNat }

/-- What a message, counter or trigger instruction does in a gang's first run (R240 to R256). -/
def messageEffect (i : Instr) (s : State) : Option State :=
  let a := s.cur.1
  let room := decide ((s.tile a).outb.length < 16)
  let first := (s.tile a).mark == .original
  match i with
  | .put c x y k =>
    let addr := s.src y
    let v := addr.2.src x
    when (s.admits settled c && s.atHand [.g y, .g x] [] && room && first && remotePad s addr.1 && addr.1.toNat % 8 == 0)
      ((postedTo (v.2.digest a s.me.cx addr.1 8 v.1.toNat) (.put (addr.1.toNat % 65536) k.toNat v.1) (addr.1.extractLsb' 16 32)).fell c)
  | .putv c x y k =>
    let addr := s.src y
    let v := addr.2.srcV x
    when (s.admits { held := true, drained := true, compute := true } c && s.atHand [.g y, .v x] [] && room && first
        && remotePad s addr.1 && addr.1.toNat % 16 == 0)
      ((postedTo (v.2.digest a s.me.cx addr.1 16 v.1.toNat) (.putv (addr.1.toNat % 65536) k.toNat v.1) (addr.1.extractLsb' 16 32)).fell c)
  | .get c x y k =>
    let addr := s.src y
    let l := addr.2.src x
    when (s.admits settled c && s.atHand [.g y, .g x] [] && room && first && remotePad s addr.1 && addr.1.toNat % 8 == 0
        && inPad l.1 8 && l.1.toNat % 8 == 0)
      ((postedTo l.2 (.getReq (addr.1.toNat % 65536) (l.1.toNat % 65536) k.toNat) (addr.1.extractLsb' 16 32)).fell c)
  | .send c x y =>
    let v := s.src y
    let w := v.2.src x
    when (s.admits settled c && s.atHand [.g y, .g x] [] && room && first && tileNumber s v.1)
      ((postedTo w.2 (.send w.1) (v.1.setWidth 32)).fell c)
  | .cinc c k x y =>
    if y = 0 then
      let n := s.src x
      when (s.admits (counterRules s k) c && s.atHand [.g x] [])
        ((counterSet n.2 a k.toNat (vget (n.2.tile a).c k.toNat 0 + n.1.setWidth 32)).fell c)
    else
      let v := s.src y
      let n := v.2.src x
      when (s.admits settled c && s.atHand [.g y, .g x] [] && room && first && tileNumber s v.1)
        ((postedTo n.2 (.cinc k.toNat (n.1.setWidth 32)) (v.1.setWidth 32)).fell c)
  | .cset c k x =>
    let v := s.src x
    when (s.admits (counterRules s k) c && s.atHand [.g x] []) ((counterSet v.2 a k.toNat (v.1.setWidth 32)).fell c)
  | .crd c x k =>
    when (s.admits { held := true } c && s.atHand [] [.g x]) ((s.dst x ((vget (s.tile a).c k.toNat 0).setWidth 64)).fell c)
  | .post c x y =>
    let d := s.src y
    let p := d.2.src x
    when (s.admits settled c && s.atHand [.g y, .g x] [] && room && first && inPad p.1 32 && p.1.toNat % 32 == 0
        && State.tagOf d.1 == 4 && d.1.toNat % 64 == 0)
      ((handedOver p.2 (.post d.1 (BitVec.ofNat 256 (p.2.readN (tileKey a (p.1.toNat % 65536)) 32))) 0 none 0).fell c)
  | .arm c slot x y =>
    let p := s.src y
    let cfg := p.2.src x
    let key := tileKey a (p.1.toNat % 65536)
    -- bits 46 to 43 are reserved and read 0; bit 47, ARMED, is set
    let g : Trigger := { cfg := BitVec.ofNat 64 (cfg.1.toNat % 2 ^ 43 + 2 ^ 47 + cfg.1.toNat / 2 ^ 48 * 2 ^ 48),
                         d1 := s.read64 key, d2 := s.read64 (key + 8), d3 := s.read64 (key + 16) }
    when (s.admits settled c && s.atHand [.g y, .g x] [] && inPad p.1 24 && p.1.toNat % 8 == 0
        && (armFault s (cfg.1.toNat / 2 ^ 40 % 8) g.d1 g.d2).isNone)
      (((cfg.2.modTile a fun t => { t with trig := vset t.trig slot.toNat g }).evaluate a
        { ctr := cfg.1.toNat / 2 ^ 32 % 16, z := slot.toNat, only := some slot.toNat }).fell c)
  | .disarm c slot =>
    let g := vget (s.tile a).trig slot.toNat {}
    let off : Trigger := { g with cfg := g.cfg &&& ~~~(1#64 <<< 47) }
    when (s.admits { held := true } c) ((s.modTile a fun t => { t with trig := vset t.trig slot.toNat off }).fell c)
  | _ => none

/-- A record at the tail of a ring of 32-byte records: TAIL, the record's slot, DOOR (R255, R256). -/
def appended (s : State) (hdr : Nat) (rec : BitVec 256) : State :=
  let tail := s.readN (rimKey (hdr + 16)) 8
  let slot := rimKey (s.readN (rimKey hdr) 8 + 32 * (tail % s.ringCapOf hdr))
  (((s.store (rimKey (hdr + 16)) 8 (tail + 1)).store slot 32 rec.toNat).store (rimKey (hdr + 32)) 8 (s.readN (rimKey (hdr + 32)) 8 + 1))

/-- The record of a SEND's word for a rank (R259): kind 7, the rank in bytes 4 and 5, the sender in bytes 8 to 11, the word in bytes 16
to 23. -/
def sendWord (rank : Nat) (sender : BitVec 32) (w : Word) : BitVec 256 :=
  BitVec.ofNat 256 (7 + rank % 2 ^ 16 * 2 ^ 32 + sender.toNat * 2 ^ 64 + w.toNat * 2 ^ 128)

/-- The NOTE of a queue descriptor (R256): one more in a counter of a tile of the issuer's grid, as a message of its own, or a failure
where it names no tile of the grid. -/
def noted (s : State) (m : Msg) (desc note : Word) : State :=
  let v : BitVec 32 := note.setWidth 32
  if State.isCore m.agent || !note.getLsbD 63 then s
  else match s.grid? m.handle with
    | none => s
    | some g =>
      if g.desc.gcnt ≤ State.gangOf v || g.desc.gsz ≤ State.rankOf v then s.failMsg m 0x03 desc
      else
        let r := s.route m.agent m.handle m.mark v
        let n : Msg := { m with
          id := s.nextMsg, at_ := s.cyc m.agent, kind := .cinc (note.toNat / 2 ^ 32 % 16) 1, dest := v, slot := some 9
          site := match r.1 with
            | .site b _ => some b
            | .absent | .gone | .away => none
          gen := match r.1 with
            | .site _ g => g
            | .absent | .gone | .away => 0 }
        { s with net := s.net ++ [n], nextMsg := s.nextMsg + 1 }

/-- A message in flight that is next of its tile to its destination and stands at a site that takes it (R176, R258). -/
def landing (s : State) (id : Nat) : Option (Msg × Nat) :=
  match s.msg? id with
  | some m => match m.site with
    | some b => if m.phase == .flight && s.inTurn m && s.accepts m then some (m, b) else none
    | none => none
  | none => none

/-- What the arrival of a message does (R242 to R246), and what a barrier's completion, a link word and an acknowledgement do. -/
def arrivalEffect (i : Instr) (s : State) : Option State :=
  match i with
  | .putLand id => match landing s id with
    | some (m, b) => match m.kind with
      | .put off k v =>
        let w := s.store (tileKey b off) 8 v.toNat
        some ((counterSet w b k (vget (w.tile b).c k 0 + 1)).ackMsg m)
      | .putv off k v =>
        let w := s.store (tileKey b off) 16 v.toNat
        some ((counterSet w b k (vget (w.tile b).c k 0 + 1)).ackMsg m)
      | .handle off v => some ((s.store (tileKey b off) 8 v.toNat).ackMsg m)
      | _ => none
    | none => none
  | .getRequestServe id => match landing s id with
    | some (m, b) => match m.kind with
      | .getReq off l k => some ((s.respond m.handle m.mark m.vtn m.dest l k (s.read64 (tileKey b off)) (s.isPoisoned (tileKey b off))).ackMsg m)
      | _ => none
    | none => none
  | .getResponse id => match landing s id with
    | some (m, b) => match m.kind with
      | .getResp off k v p =>
        let w := if p then s.storePoisoned (tileKey b off) v else s.store (tileKey b off) 8 v.toNat
        some ((counterSet w b k (vget (w.tile b).c k 0 + 1)).ackMsg m)
      | _ => none
    | none => none
  | .sendLand id => match landing s id with
    | some (m, b) => match m.kind with
      | .send v =>
        let hdr := s.ovfHdr (s.tile b).handle (State.gangOf (s.tile b).vtn)
        if s.hasContinuation b then none
        else if s.inboxUsed b < 64 && (s.outside b).isNone then
          some (((s.modTile b fun t => { t with inbox := t.inbox ++ [v] }).wakeSleepers b).ackMsg m)
        else if !s.hasRings b then none
        else if s.ringUsed hdr < s.ringCapOf hdr then
          some ((appended s hdr (sendWord (State.rankOf (s.tile b).vtn) m.vtn v)).ackMsg m)
        else when (m.mark == .original) (s.modMsg id fun x => { x with hold := some (.ringFull (State.gangOf m.dest)) })
      | _ => none
    | none => none
  | .cincLand id => match landing s id with
    | some (m, b) => match m.kind with
      | .cinc k n => some ((counterSet s b k (vget (s.tile b).c k 0 + n)).ackMsg m)
      | _ => none
    | none => none
  | .outboundAck a id => match s.msg? id with
    | some m => when (m.phase == .acked && (s.tile a).outb.contains id)
      ({ s with net := s.net.filter fun x => x.id != id }.modTile a fun t => { t with outb := t.outb.filter (· != id) })
    | none => none
  | .inboxRefill a => match s.outside a with
    | some (hdr, j) => when (decide (s.inboxUsed a < 64))
      (((s.consume hdr j).modTile a fun t => { t with inbox := t.inbox ++ [BitVec.ofNat 64 ((s.ringRecord hdr j).toNat / 2 ^ 128)] }).wakeSleepers a)
    | none => none
  | .linkWordArrive 0 => match s.links with
    | l :: rest =>
      match s.gangs.find? fun g => g.handle == l.handle && g.index + 65536 * g.mark.no == l.gang with
      | some g => match g.sites[l.rank]? with
        | some b =>
          let x := s.tile b
          when (x.handle == l.handle && x.vtn == BitVec.ofNat 32 (l.gang % 65536 * 65536 + l.rank) && x.mark.no == l.gang / 65536 && !x.sealed)
            ({ s with links := rest }.modTile b fun t =>
              if l.fromBelow then { t with lp := t.lp ++ [FifoWord.mk l.word l.sent] } else { t with ln := t.ln ++ [FifoWord.mk l.word l.sent] })
        | none => none
      | none => none
    | [] => none
  | .messageRefused id => match s.msg? id with
    | some m =>
      let w := if s.hasTile m.agent
        then s.modTile m.agent fun t => { t with resCache := t.resCache.filter fun e => !(e.handle == m.handle && e.gang == State.gangOf m.dest) }
        else s
      let r := w.route m.agent m.handle m.mark m.dest
      let posted := match m.kind with
        | .post _ _ | .launch _ => true
        | _ => false
      let poisoned := match m.kind with
        | .getResp _ _ _ p => p
        | _ => false
      if m.phase == .flight && s.inTurn m && !s.accepts m && !posted && m.mark == .original then
        match r.1 with
        | .site b g => some (r.2.modMsg id fun m => { m with site := some b, gen := g, hold := none })
        | .absent => match r.2.skidAppend m.handle (State.gangOf m.dest) (State.recordOf m) with
          | some t => some ((if poisoned then t.poisonLast m.handle (State.gangOf m.dest) else t).ackMsg m)
          | none => some (r.2.modMsg id fun m => { m with hold := some (.ringFull (State.gangOf m.dest)) })
        | .gone => none
        | .away => some (r.2.modMsg id fun m => { m with site := none, hold := none })
      else none
    | none => none
  | .triggerAction a => match (s.tile a).evalQ with
    | e :: _ => match State.nextFire (s.tile a) e (e.value.getD (vget (s.tile a).c e.ctr 0)) with
      | some z =>
        let g := vget (s.tile a).trig z {}
        let w := (s.fireAction a z g).modTile a fun t => { t with trig := vset t.trig z (State.Trig.advance (vget t.trig z {})) }
        let v := w.settleEvals a ((w.tile a).evalQ.length + 1)
        when (s.actionReady a g) (if (v.tile a).evalQ.isEmpty then v.modTile a fun t => { t with replaying := false } else v)
      | none => none
    | [] => none
  | .specRollback a th => match (s.thread a th).spec with
    | some sp => when (s.thread a th).rollback
      (({ s with
          watches := s.watches.filter fun w => !(w.agent == a && w.thread == th)
          oldWatches := s.oldWatches ++ s.watches.filter fun (w : Watch) => w.agent == a && w.thread == th }.modThread a th fun t =>
        { t with
          g := sp.g, v := sp.v, q := sp.q, fst := sp.fst, srcnt := sp.srcnt, loop0 := sp.loop0, loop1 := sp.loop1
          ldepth := sp.ldepth, pc := sp.barsPc, parkNext := sp.pc, park := some (.barrier sp.bar), spec := none
          rollback := false, popped := [], held := [], claims := [], relaxed := [] }).modTile a fun t =>
        { t with specUsed := t.specUsed ||| (1#16 <<< (4 * sp.bar + th)), rollbacks := t.rollbacks + 1 })
    | none => none
  | .barrierComplete h g b k n => match s.decided.find? fun d => d.group == ⟨h, g, b, k, n⟩ with
    | some d => when (s.deliverable d) (s.deliver d)
    | none => none
  | .postAppend id => match s.msg? id with
    | some m => match m.kind with
      | .post d rec =>
        let q := s.askerOf m
        let mayAct := m.phase == .flight && s.postTurn m && s.spaceValid q.vd q.space && match m.hold with
          | some (.pageFault _) => false
          | _ => true
        match s.translateAt q d { read := true, write := true, plain := false, kind := .engineWrite } with
        | .ok key =>
          let u := s.usedBy q d
          let tail := m.taken.getD (u.read64 (key + 16))
          -- TAIL moves first; from then on the POST holds its slot
          let w := match m.taken with
            | some _ => u
            | none => (u.store (key + 16) 8 (tail + 1).toNat).modMsg id fun x => { x with taken := some tail, hold := none }
          let slot := w.read64 key + BitVec.ofNat 64 (32 * (tail.toNat % max 1 (w.readN (key + 8) 4)))
          let full := m.taken.isNone && decide (max 1 (u.readN (key + 8) 4) ≤ (tail - u.read64 (key + 24)).toNat)
          if full then when mayAct (u.modMsg id fun x => { x with hold := some .posted })
          else if !(State.tagOf slot == 4 && State.fieldOf slot 56 4 == 0) then none
          else match w.translateAt q slot { write := true, plain := false, kind := .engineWrite } with
            | .ok dst =>
              let x := (w.usedBy q slot).store dst 32 rec.toNat
              let x := x.store (key + 32) 8 (x.read64 (key + 32) + 1).toNat
              when mayAct ((noted x m d (x.read64 (key + 40))).ackMsg m)
            | .error (.park p) => when mayAct (w.modMsg id fun x => { x with hold := some p })
            | .error _ => none
        | .error _ => none
      | _ => none
    | none => none
  | _ => none

end Sys2Proof.Claims

/-- R215 to R225: where a barrier instruction need not wait before its own effect, it notes its arrival and parks, goes on speculating,
falls through, or changes or reads its group, as the table above says. It covers BAR, BARS, BARR, BARCFG and BARQ. -/
def Obligations.BarrierResult : Prop :=
  ∀ (i : Instr) (s t : State), barrierEffect i s = some t → exec i s = .next t

/-- R240 to R256: where an outbound entry is free and its operands are legal, a message instruction hands its message on and falls through;
counter and trigger instructions change the counter or the slot of their own tile. It covers PUT, PUTV, GET, SEND, CINC, CSET, CRD, POST,
ARM and DISARM. -/
def Obligations.MessageResult : Prop :=
  ∀ (i : Instr) (s t : State), messageEffect i s = some t → exec i s = .next t

/-- R176, R220, R231, R242 to R246, R258: where the event can occur, a message lands at the site of its tile with its counter step and its
acknowledgement, and a barrier completion, a link word, a trigger action and a rollback have the effect that the table above says. It covers
PUT_LAND, GET_REQUEST_SERVE, GET_RESPONSE, SEND_LAND, CINC_LAND, OUTBOUND_ACK, INBOX_REFILL, LINK_WORD_ARRIVE, MESSAGE_REFUSED,
TRIGGER_ACTION, SPEC_ROLLBACK, BARRIER_COMPLETE and POST_APPEND. -/
def Obligations.ArrivalResult : Prop :=
  ∀ (i : Instr) (s t : State), arrivalEffect i s = some t → exec i s = .next t

namespace Sys2Proof.Claims

open Sys2Proof.Machine

/-! ### Vectors -/

/-- A lane's bits as a signed number (R266). -/
def signedLane (t : VTy) (v : Nat) : Int := (v : Int).bmod (2 ^ laneBits t)

/-- A signed number's low bits as a lane. -/
def lowBits (t : VTy) (i : Int) : Nat := (i % (2 ^ laneBits t : Nat)).toNat

/-- A lane operation on type, rounding code, draw and two elements; its bits and flags. -/
abbrev Lane2 := VTy → Nat → Nat → Nat → Nat → Nat × BitVec 5

/-- Integer lanes by a function on them; floating-point lanes by another. -/
def lane2 (int : VTy → Nat → Nat → Nat) (fp : Fp → Nat → Nat → Nat → Nat → Nat × BitVec 5) : Lane2 :=
  fun t mode draw a b => if t.isFloat then fp (fpOf t) mode draw a b else (int t a b, 0)

/-- The turns of a vector instruction of two sources: 8 for a division, else 1 (R271). -/
def vectorTurns : Instr → Nat
  | .vdiv _ _ _ _ _ => 8
  | _ => 1

/-- The vector instructions of two sources, lane by lane, over active lanes (R273, R275, R276). -/
def vectorOf : Instr → Option (Chain × VTy × RegNum × RegNum × RegNum × Lane2)
  | .vadd c t x y z => some (c, t, x, y, z, lane2 (fun t a b => lowBits t (signedLane t a + signedLane t b)) fun f m d a b => f.addBits m d a b)
  | .vsub c t x y z => some (c, t, x, y, z, lane2 (fun t a b => lowBits t (signedLane t a - signedLane t b)) fun f m d a b =>
      let v := FVal.add m (f.decode a) (f.decode b).neg
      let r := f.roundTo none m d v.1
      (r.1, v.2 ||| r.2))
  | .vmul c t x y z => some (c, t, x, y, z, lane2 (fun t a b => lowBits t (signedLane t a * signedLane t b)) fun f m d a b => f.mulBits m d a b)
  | .vmin c t x y z => some (c, t, x, y, z, lane2 (fun t a b => if signedLane t a ≤ signedLane t b then a else b) fun f _ _ a b => f.fmin a b)
  | .vmax c t x y z => some (c, t, x, y, z, lane2 (fun t a b => if signedLane t b ≤ signedLane t a then a else b) fun f _ _ a b => f.fmax a b)
  | .vdiv c t x y z => some (c, t, x, y, z, fun t m d a b => (fpOf t).divBits m d a b)
  | .vand c t x y z => some (c, t, x, y, z, fun _ _ _ a b => (a &&& b, 0))
  | .vor c t x y z => some (c, t, x, y, z, fun _ _ _ a b => (a ||| b, 0))
  | .vxor c t x y z => some (c, t, x, y, z, fun _ _ _ a b => (a ^^^ b, 0))
  | .vshl c t x y z => some (c, t, x, y, z, fun t _ _ a b => (a * 2 ^ (b % laneBits t) % 2 ^ laneBits t, 0))
  | .vshr c t x y z => some (c, t, x, y, z, fun t _ _ a b => (a / 2 ^ (b % laneBits t), 0))
  | .vsar c t x y z => some (c, t, x, y, z, fun t _ _ a b => (lowBits t (signedLane t a / 2 ^ (b % laneBits t)), 0))
  | _ => none

/-- The compares: what makes a lane of the predicate 1 (R277). -/
def compareOf : Instr → Option (Chain × VTy × BitVec 3 × RegNum × RegNum × (VTy → Nat → Nat → Bool))
  | .vceq c t q y z => some (c, t, q, y, z, fun t a b =>
      if t.isFloat then ((fpOf t).decode a).eq ((fpOf t).decode b) else decide (a = b))
  | .vclt c t q y z => some (c, t, q, y, z, fun t a b =>
      if t.isFloat then ((fpOf t).decode a).lt ((fpOf t).decode b) else decide (signedLane t a < signedLane t b))
  | .vcle c t q y z => some (c, t, q, y, z, fun t a b =>
      if t.isFloat then ((fpOf t).decode a).lt ((fpOf t).decode b) || ((fpOf t).decode a).eq ((fpOf t).decode b)
      else decide (signedLane t a ≤ signedLane t b))
  | _ => none

/-- The moves of lanes: what lane `l` of the result is, of Y, Z and the lane number (R279, R280). -/
def laneMoveOf : Instr → Option (Chain × VTy × RegNum × RegNum × RegNum × (VTy → VReg → VReg → Nat → Nat))
  | .vslu c t x y z => some (c, t, x, y, z, fun t a b l =>
      if l = 0 then getLane b (laneBits t) (t.lanes - 1) else getLane a (laneBits t) (l - 1))
  | .vsld c t x y z => some (c, t, x, y, z, fun t a b l =>
      if l + 1 = t.lanes then getLane b (laneBits t) 0 else getLane a (laneBits t) (l + 1))
  | .vperm c t x y z => some (c, t, x, y, z, fun t a b l =>
      let i := getLane b (laneBits t) l
      if i < t.lanes then getLane a (laneBits t) i else 0)
  | _ => none

/-- The rules of a vector instruction: compute threads only; the predicate masks lanes and is no guard (R265, R267). -/
def byLane : Op.Rules := { compute := true, guarded := false }

/-- The inactive lanes' source: the old register, or zero for a handle (R267, R273). -/
def before (s : State) (x : RegNum) : VReg := if x.toNat < 32 then vget s.me.v x.toNat 0 else 0

/-- Results of active lanes over `n` lanes of `bits` bits in a register, one mask bit for each `step` bytes; the flags ORed. -/
def overLanes (n bits step : Nat) (m : BitVec 16) (d : VReg) (f : Nat → Nat × BitVec 5) : VReg × BitVec 5 :=
  (List.range n).foldl (fun r l =>
    if m.getLsbD (step * l) then (setLane r.1 bits l (f l).1, r.2 ||| (f l).2) else r) (d, 0)

/-- The draw of a lane under code 6, and 0 elsewhere (R82). -/
def drawOf (s : State) (c : Chain) (l : Nat) : Nat := if s.roundCode c = 6 then s.draw l else 0

/-- A vector result written at its latency, its flags raised, SRCNT stepped where the instruction rounds under code 6, and the thread
fallen through. -/
def vectorDone (s : State) (c : Chain) (x : RegNum) (float : Bool) (r : VReg × BitVec 5) (lat : Nat := 1) : State :=
  let w := (s.dstV x r.1 lat).raise s.cur.1 s.cur.2 r.2
  (if float then w.stepSrcnt (w.roundCode c) else w).fell c

/-- The rest of the vector instructions (R273, R274, R275, R278, R281 to R286). -/
def vectorEffect (i : Instr) (s : State) : Option State :=
  match i with
  | .vfma c t x y z =>
    let a := s.srcV y
    let b := a.2.srcV z
    let d := b.2.srcV x
    let u := d.2
    let n := laneBits t
    let f (l : Nat) : Nat × BitVec 5 :=
      let p := getLane a.1 n l
      let q := getLane b.1 n l
      let r := getLane d.1 n l
      if t.isFloat then (fpOf t).fmaBits (u.roundCode c) (drawOf u c l) p q r
      else (lowBits t (signedLane t r + signedLane t p * signedLane t q), 0)
    when (s.admits byLane c && s.atHand [.v y, .v z, .v x] [.v x])
      (vectorDone u c x t.isFloat (overLanes t.lanes n (laneBytes t) (vmask u c) d.1 f))
  | .vaddmin c t x y z =>
    let a := s.srcV y
    let b := a.2.srcV z
    let d := b.2.srcV x
    let u := d.2
    let n := laneBits t
    let f (l : Nat) : Nat × BitVec 5 :=
      let p := getLane a.1 n l
      let q := getLane b.1 n l
      let r := getLane d.1 n l
      if t.isFloat then let k := laneAddMin t (u.roundCode c) (drawOf u c l) p q r; (k.bits, k.flags)
      else (lowBits t (max (-(2 ^ (n - 1) : Int)) (min (signedLane t r) (signedLane t p + signedLane t q))), 0)
    when (s.admits byLane c && s.atHand [.v y, .v z, .v x] [.v x])
      (vectorDone u c x t.isFloat (overLanes t.lanes n (laneBytes t) (vmask u c) d.1 f))
  | .vsqrt c t x y =>
    let a := s.srcV y
    when (s.admits byLane c && s.atHand [.v y] [.v x])
      (vectorDone a.2 c x t.isFloat (overLanes t.lanes (laneBits t) (laneBytes t) (vmask a.2 c) (before a.2 x)
        fun l => (fpOf t).sqrtBits (a.2.roundCode c) (drawOf a.2 c l) (getLane a.1 (laneBits t) l)) 8)
  | .vsel c t x y z =>
    let a := s.srcV y
    let b := a.2.srcV z
    when (s.admits byLane c && s.atHand [.v y, .v z] [.v x])
      (vectorDone b.2 c x t.isFloat (overLanes t.lanes (laneBits t) (laneBytes t) (vmask b.2 c) b.1
        fun l => (getLane a.1 (laneBits t) l, 0)))
  | .vbcst c t x y =>
    let a := s.src y
    when (s.admits byLane c && s.atHand [.g y] [.v x])
      (vectorDone a.2 c x t.isFloat (overLanes t.lanes (laneBits t) (laneBytes t) (vmask a.2 c) (before a.2 x)
        fun _ => (a.1.toNat % 2 ^ laneBits t, 0)))
  | .vext c t x y l =>
    let a := s.srcV y
    let v := getLane a.1 (laneBits t) l.toNat
    let w := if (vmask a.2 c).getLsbD (laneBytes t * l.toNat)
      then a.2.dst x (if t.isFloat then BitVec.ofNat 64 v else BitVec.ofInt 64 (signedLane t v)) else a.2
    when (s.admits byLane c && s.atHand [.v y] [.g x]) ((if t.isFloat then w.stepSrcnt (w.roundCode c) else w).fell c)
  | .vins c t x y l =>
    let a := s.src y
    let d := a.2.srcV x
    when (s.admits byLane c && s.atHand [.g y, .v x] [.v x])
      (vectorDone d.2 c x t.isFloat (if (vmask d.2 c).getLsbD (laneBytes t * l.toNat)
        then setLane d.1 (laneBits t) l.toNat (a.1.toNat % 2 ^ laneBits t) else d.1, 0))
  | .vredadd c t x y =>
    let a := s.srcV y
    let lane (i : Nat) : Option Nat :=
      if (vmask a.2 c).getLsbD (laneBytes t * i) then some (getLane a.1 (laneBits t) i) else none
    let r := (redNode t (a.2.roundCode c) a.2.draw lane (Nat.log2 t.lanes) 0).getD ⟨0, 0⟩
    when (s.admits byLane c && s.atHand [.v y] [.v x]) (vectorDone a.2 c x t.isFloat (BitVec.ofNat 128 r.bits, r.flags) 4)
  | .vcvt c t x y src =>
    let a := s.srcV y
    let u := a.2
    let n := min t.lanes src.lanes
    -- a mask bit stands at the start of each element of the wider type; bytes above the elements are zero
    when (s.admits byLane c && s.atHand [.v y] [.v x])
      (vectorDone u c x true (overLanes n (laneBits t) (16 / n) (vmask u c) (BitVec.ofNat 128 ((before u x).toNat % 2 ^ (laneBits t * n)))
        fun l => let e := cvtLane src t u.me.sat (u.roundCode c) (drawOf u c l) (getLane a.1 (laneBits src) l); (e.bits, e.flags)))
  | .vcvtq c t x y q =>
    let a := s.srcV y
    let u := a.2
    let g := (qfmtOf q).1
    let narrow := (qfmtOf q).2
    let from_ := if narrow then laneBits t else g.width
    let to_ := if narrow then g.width else laneBits t
    let old := if narrow then BitVec.ofNat 128 ((before u x).toNat % 2 ^ ((g.width * t.lanes + 7) / 8 * 8)) else before u x
    when (s.admits byLane c && s.atHand [.v y] [.v x])
      (vectorDone u c x true (overLanes t.lanes to_ (laneBytes t) (vmask u c) old fun l =>
        let v := getLane a.1 from_ l
        let e := if narrow then cvtqLane (fpOf t) g u.me.sat (u.roundCode c) (drawOf u c l) v
          else cvtqLane g (fpOf t) u.me.sat (u.roundCode c) (drawOf u c l) v
        (e.bits, e.flags)))
  | .vsfu c t x y fn =>
    let a := s.srcV y
    let u := a.2
    when (s.admits byLane c && s.atHand [.v y] [.v x])
      (vectorDone u c x true (overLanes t.lanes (laneBits t) (laneBytes t) (vmask u c) (before u x) fun l =>
        sfuLane (fpOf t) fn (u.roundCode c) (drawOf u c l) (getLane a.1 (laneBits t) l)) 4)
  | .vpeg c x y z =>
    let a := s.srcV y
    let k := a.2.src z
    when (s.admits byLane c && s.atHand [.v y, .g z] [.v x])
      (vectorDone k.2 c x false (overLanes 4 32 4 (vmask k.2 c) (before k.2 x)
        fun l => ((peg k.1 (BitVec.ofNat 32 (getLane a.1 32 l))).toNat, 0)) 2)
  | _ => none

end Sys2Proof.Claims

/-- R267, R271, R273, R275, R276: VADD, VSUB, VMUL, VMIN, VMAX, VDIV, VAND, VOR, VXOR, VSHL, VSHR and VSAR read Y, then Z, and write each lane
whose mask bit is 1 with the result of its table, the flags of those lanes ORed into FST; the other lanes keep the old register's bits,
or are zero where X is a handle. -/
def Obligations.VectorTwoSourceResult : Prop :=
  ∀ (i : Instr) (c : Chain) (t : VTy) (x y z : RegNum) (f : Lane2) (s : State),
    vectorOf i = some (c, t, x, y, z, f) → s.admits byLane c = true → s.atHand [.v y, .v z] [.v x] = true →
    let a := s.srcV y
    let b := a.2.srcV z
    exec i s = .next (vectorDone b.2 c x t.isFloat (overLanes t.lanes (laneBits t) (laneBytes t) (vmask b.2 c) (before b.2 x)
      fun l => f t (b.2.roundCode c) (drawOf b.2 c l) (getLane a.1 (laneBits t) l) (getLane b.1 (laneBits t) l)) (vectorTurns i))

/-- R277, R279, R280: VCEQ, VCLT and VCLE set all bits of each active lane of their predicate, or clear them; a signalling NaN raises NV.
VSLU, VSLD and VPERM move lanes of Y, and of Z, to the active lanes of X. -/
def Obligations.VectorCompareResult : Prop :=
  (∀ (i : Instr) (c : Chain) (t : VTy) (q : BitVec 3) (y z : RegNum) (p : VTy → Nat → Nat → Bool) (s : State),
    compareOf i = some (c, t, q, y, z, p) → s.admits byLane c = true → s.atHand [.v y, .v z] [] = true →
    let a := s.srcV y
    let b := a.2.srcV z
    let u := b.2
    let m := vmask u c
    let get (v : VReg) (j : Nat) : Nat := getLane v (laneBits t) (j / laneBytes t)
    let active (j : Nat) : Bool := m.getLsbD (j / laneBytes t * laneBytes t)
    ∃ (r : BitVec 16) (fl : BitVec 5),
      (∀ j, j < 16 → r.getLsbD j = if active j then p t (get a.1 j) (get b.1 j) else (u.readQ s.cur.1 s.cur.2 q.toNat).getLsbD j) ∧
      fl = (if t.isFloat && (List.range 16).any (fun j => active j &&
        (((fpOf t).decode (get a.1 j)).isSnan || ((fpOf t).decode (get b.1 j)).isSnan)) then flagNV else 0) ∧
      exec i s = .next (let w := (u.writeQ s.cur.1 s.cur.2 q.toNat r).raise s.cur.1 s.cur.2 fl
        (if t.isFloat then w.stepSrcnt (w.roundCode c) else w).fell c)) ∧
  (∀ (i : Instr) (c : Chain) (t : VTy) (x y z : RegNum) (f : VTy → VReg → VReg → Nat → Nat) (s : State),
    laneMoveOf i = some (c, t, x, y, z, f) → s.admits byLane c = true → s.atHand [.v y, .v z] [.v x] = true →
    let a := s.srcV y
    let b := a.2.srcV z
    exec i s = .next (vectorDone b.2 c x t.isFloat (overLanes t.lanes (laneBits t) (laneBytes t) (vmask b.2 c) (before b.2 x)
      fun l => (f t a.1 b.1 l, 0))))

/-- R271, R273, R274, R275, R278, R281 to R286: VFMA, VADDMIN, VSQRT, VSEL, VBCST, VEXT, VINS, VREDADD, VCVT, VCVTQ, VSFU and VPEG. -/
def Obligations.VectorResult : Prop :=
  ∀ (i : Instr) (s t : State), vectorEffect i s = some t → exec i s = .next t

namespace Sys2Proof.Claims

open Sys2Proof.Machine

/-! ### Matrix and engines -/

/-- The place that a waiting instruction with a pushing destination has reserved there (R160). -/
def reservedAt (x : RegNum) : List RegNum := if (40 ≤ x.toNat && x.toNat ≤ 43) || isHandle x then [x] else []

/-- The issuing thread kept on its instruction until the instruction completes, after which it goes on behind the base word. -/
def kept (s : State) (c : Chain) (p : Park) (claims : List RegNum := s.me.claims) : State :=
  s.modMe fun t => { t with
    park := some p, parkNext := t.pc + BitVec.ofNat 64 (2 * c.len), popped := t.popped ++ t.held, held := [], claims := claims }

/-- Rules of a matrix instruction, and of one that accesses memory (R291, R309, R161). -/
def matrixAt : Op.Rules := { compute := true, held := true }
def matrixMem : Op.Rules := { compute := true, held := true, drained := true }

/-- A transfer begun: the tile's transfer path works for the thread (R292, R298, R302, R303). -/
def begun (s : State) (c : Chain) (k : XferKind) (r : BitVec 2) (addr : Word) (total start : Nat) : State :=
  kept (s.modTile s.cur.1 fun t => { t with xfer := some { thread := s.cur.2, kind := k, reg := r, addr := addr, total := total, done := start } })
    c .matrixOwn

/-- The path and the parts of a transfer are free (R306). -/
def pathFree (s : State) (k : XferKind) (r : BitVec 2) : Bool :=
  (s.tile s.cur.1).xfer.isNone && s.partsFree s.cur.1 (State.xferParts k r.toNat)

/-- A memory transfer of `bytes` bytes at an aligned address of the pad or the rim (R298). -/
def memoryBegun (s : State) (c : Chain) (k : XferKind) (r : BitVec 2) (y : RegNum) (bytes : Nat) : Option State :=
  let p := s.src y
  when (s.admits matrixMem c && s.atHand [.g y] [] && pathFree s k r && (p.2.spanFault s.cur.1 s.cur.2 p.1 bytes).isNone)
    (begun p.2 c k r p.1 bytes 0)

/-- Bytes of a tile register: its rows times its row length (R288, R298). -/
def tileBytes (s : State) (m : BitVec 2) : Nat :=
  let v := (vget (s.tile s.cur.1).mcfg m.toNat 0x2080).toNat
  v / 16 % 16 * (16 * (v / 256 % 64))

/-- Doublewords a stopped link transfer of this chain has moved already (R305). -/
def progress (s : State) : Nat := if s.me.mprogAddr = s.me.pc ∧ s.me.mprogAddr ≠ 0 then s.me.mprogBytes.toNat else 0

/-- What a matrix instruction does at issue (R293 to R303), and what its completions do (R295, R299). -/
def matrixEffect (i : Instr) (s : State) : Option State :=
  let a := s.cur.1
  match i with
  | .mtcfg c m y =>
    let v := s.src y
    let w : Word := v.1 &&& 0x13FF7#64
    when (s.admits matrixAt c && s.atHand [.g y] [] && s.partsFree a { writes := [8 + m.toNat] } && cfgOk w)
      ((v.2.modTile a fun t => { t with mcfg := vset t.mcfg m.toNat w }).fell c)
  | .mfcfg c x m =>
    when (s.admits { compute := true } c && s.atHand [] [.g x] && s.partsFree a { reads := [8 + m.toNat] })
      ((s.dst x (vget (s.tile a).mcfg m.toNat 0x2080)).fell c)
  | .mld c m y => memoryBegun s c .mld m y (tileBytes s m)
  | .mst c m y => memoryBegun s c .mst m y (tileBytes s m)
  | .mscl c m y => memoryBegun s c .mscl m y (32 * ((vget (s.tile a).mcfg m.toNat 0x2080).toNat / 16 % 16))
  | .mrda c m y => memoryBegun s c .mrda m y 256
  | .mwra c m y => memoryBegun s c .mwra m y 256
  | .mldl c m l =>
    let far := match l with
      | .ln | .lnf => s.linkPeer a .up
      | .lp | .lpf => s.linkPeer a .down
    when (s.admits matrixAt c && s.me.popped.isEmpty && s.me.held.isEmpty && pathFree s (.mldl l) m && far.isSome)
      (begun s c (.mldl l) m 0 (tileBytes s m) (progress s))
  | .mpass c m d =>
    when (s.admits matrixAt c && s.me.popped.isEmpty && s.me.held.isEmpty && pathFree s (.mpass d) m && (s.linkPeer a d).isSome)
      (begun s c (.mpass d) m 0 (tileBytes s m) (progress s))
  | .mzero c acc =>
    when (s.admits matrixAt c && s.partsFree a { writes := [12 + acc.toNat] })
      ({ s with mem := Mem.clear s.mem (tileKey a (0xA800 + 256 * acc.toNat)) 256 }.fell c)
  | .mma c acc m n =>
    when (s.admits matrixAt c && s.me.popped.isEmpty && s.me.held.isEmpty && (s.tile a).mma.isNone
        && s.partsFree a (State.mmaParts acc.toNat m.toNat n.toNat)
        && State.pairOk (vget (s.tile a).mcfg m.toNat 0x2080) (vget (s.tile a).mcfg n.toNat 0x2080))
      (kept (s.modTile a fun t => { t with mma := some { thread := s.cur.2, acc := acc, a := m, b := n } }) c .matrixOwn)
  | .mmaComplete b => (s.tile b).mma.map fun j =>
      let rows (m : BitVec 2) : Nat := (vget (s.tile b).mcfg m.toNat 0x2080).toNat / 16 % 16
      let cells := (List.range (rows j.a)).flatMap fun i => (List.range (rows j.b)).map fun k => (i, k)
      let new (p : Nat × Nat) : Nat × BitVec 5 := s.mmaElement b j.acc.toNat j.a.toNat j.b.toNat p.1 p.2
      let w := cells.foldl (fun w p => w.pokeN (tileKey b (0xA800 + 256 * j.acc.toNat + 32 * p.1 + 4 * p.2)) 4 (new p).1) s
      ((w.raise b j.thread (cells.foldl (fun f p => f ||| (new p).2) 0)).modTile b fun t => { t with mma := none }).modThread b j.thread
        fun t => t.complete t.parkNext false
  | .matrixTransferComplete b => match (s.tile b).xfer with
    | some j =>
      let linked := match j.kind with
        | .mldl _ | .mpass _ => true
        | .mld | .mst | .mscl | .mrda | .mwra => false
      when (decide (j.total ≤ j.done))
        ((s.modTile b fun t => { t with xfer := none }).modThread b j.thread fun t =>
          let t := if linked then { t with mprogAddr := 0, mprogBytes := 0 } else t
          t.complete t.parkNext false)
    | none => none
  | _ => none

/-- The rules of an engine instruction (R311). -/
def engineAt : Op.Rules := { held := true }

/-- A stream handle of the issuing tile (R312). -/
def handleOf (s : State) (h : BitVec 3) : Stream := vget (s.tile s.cur.1).streams h.toNat {}

/-- The handle changed. -/
def withHandle (s : State) (h : BitVec 3) (v : Stream) : State := s.modTile s.cur.1 fun t => { t with streams := vset t.streams h.toNat v }

/-- The lowest free copy slot of a tile (R319). -/
def freeSlot (s : State) (a : Nat) : Option Nat := [0, 1, 2, 3].find? fun i => (vget (s.tile a).copies i none).isNone

/-- A copy command placed in the lowest free slot, its descriptor read from the pad (R319, R320). -/
def copyPlaced (s : State) (kind : CopyKind) (c : Chain) (x y : RegNum) : Option State :=
  let a := s.cur.1
  let d := s.src y
  let key := tileKey a (d.1.toNat % 65536)
  let n := (d.2.tile a).nextCmd
  match freeSlot d.2 a with
  | none => none
  | some slot =>
    let cmd : CopyCmd := {
      kind := kind, number := n, src := d.2.read64 key, dst := d.2.read64 (key + 8), idx := d.2.read64 (key + 16)
      len := BitVec.ofNat 32 (d.2.readN (key + 24) 4), esz := BitVec.ofNat 8 (d.2.readN (key + 28) 1)
      stream := BitVec.ofNat 8 (d.2.readN (key + 29) 1), fin := BitVec.ofNat 8 (d.2.readN (key + 30) 1)
      resv := BitVec.ofNat 8 (d.2.readN (key + 31) 1), desc := d.1, cx := s.me.cx, thread := s.cur.2, age := d.2.nextCopy }
    when (s.admits { held := true, drained := true } c && s.atHand [.g y] [.g x] && inPad d.1 32 && d.1.toNat % 32 == 0)
      ((({ d.2 with nextCopy := d.2.nextCopy + 1 }.modTile a fun t => { t with copies := vset t.copies slot (some cmd), nextCmd := if n = BitVec.allOnes 32 then 1 else n + 1 }).dst x
        (n.setWidth 64)).fell c)

/-- The oldest event taken into X and the next register (R330). -/
def eventTaken (s : State) (c : Chain) (x : RegNum) (e : EventRec) : State := (((s.popEvent s.cur.1 e).dst x e.lo).dst (x + 1) e.hi).fell c

/-- What a stream, copy or event instruction does (R315 to R330), and what the copy engine does by itself (R322, R324, R327). -/
def engineEffect (i : Instr) (s : State) : Option State :=
  let a := s.cur.1
  match i with
  | .scfg c h y =>
    let v := s.src y
    let n : Stream := { cfg := v.1, rd := 0, wr := 0, valid := true }
    when (s.admits engineAt c && s.atHand [.g y] [] && !(handleOf s h).pcl && !(handleOf s h).ccl && configValid v.1)
      ((withHandle v.2 h { n with wr := if v.1.getLsbD 63 then BitVec.ofNat 32 n.count else 0 }).fell c)
  | .sadv c h y =>
    let v := s.src y
    let st := handleOf v.2 h
    let n := v.1.toNat % 2 ^ 32
    -- no push of the thread to a handle is on its way (R316)
    let pushing := (s.tile a).pushes.any fun p => p.thread == s.cur.2 && match p.to_ with
      | .stream _ => true
      | .link _ => false
    when (s.admits { held := true, drained := true } c && !pushing && s.atHand [.g y] [] && st.valid && v.1.toNat / 2 ^ 32 % 2 ^ 31 == 0
        && decide (n ≤ st.count)
        && (if v.1.getLsbD 63 then decide (n ≤ v.2.freeSlots a s.cur.2 h.toNat) && !st.pcl else decide (n ≤ st.filled) && !st.ccl))
      ((withHandle v.2 h (if v.1.getLsbD 63 then { st with wr := st.wr + BitVec.ofNat 32 n } else { st with rd := st.rd + BitVec.ofNat 32 n })).fell c)
  | .sqry c x h =>
    let st := handleOf s h
    when (s.admits engineAt c && s.atHand [] [.g x])
      ((s.dst x (BitVec.ofNat 64 (st.filled % 2 ^ 16 + st.room % 2 ^ 16 * 2 ^ 16 + (if st.valid then 2 ^ 32 else 0) + (if st.pcl then 2 ^ 33 else 0)
        + (if st.ccl then 2 ^ 34 else 0)))).fell c)
  | .sclr c h => when (s.admits engineAt c && !(handleOf s h).pcl && !(handleOf s h).ccl) ((withHandle s h {}).fell c)
  | .cpy c x y => copyPlaced s .cpy c x y
  | .cpyg c x y => copyPlaced s .cpyg c x y
  | .cpys c x y => copyPlaced s .cpys c x y
  | .cpyz c x y => copyPlaced s .cpyz c x y
  | .cjoin c x =>
    let v := s.src x
    when (s.admits engineAt c && s.atHand [.g x] [] && (v.2.slotOf a (v.1.setWidth 32)).isNone) (v.2.fell c)
  | .evpop c x =>
    when (s.admits { held := true, control := true } c && s.atHand [] [.g x, .g (x + 1)]) (match (s.tile a).events with
      | e :: _ => eventTaken s c x e
      | [] => ((s.dst x 0).dst (x + 1) 0).fell c)
  | .evwait c x => match (s.tile a).events with
    | e :: _ => when (s.admits { held := true, control := true } c && s.atHand [] [.g x, .g (x + 1)]) (eventTaken s c x e)
    | [] => none
  | .copyStart b slot => match vget (s.tile b).copies slot none with
    | some k => when (s.copyGoes b && k.phase == .waiting && !s.claimBlocked b k) (match s.copyCheck b k with
      | some f => s.modCopy b slot fun k => { k with phase := .failing, cause := f.1, faultAddr := f.2, holds := [], beats := [] }
      | none => if k.len = 0 then s.finishCopy b slot k else (s.setClaims b k true).modCopy b slot fun k => { k with phase := .running })
    | none => none
  | .copyComplete b slot => match vget (s.tile b).copies slot none with
    | some k => when (s.copyGoes b && k.phase == .running && k.units == k.unitCount (s.handleSize b k.handle))
        (s.finishCopy b slot k)
    | none => none
  | .copyFault b slot => match vget (s.tile b).copies slot none with
    | some k => when (s.copyGoes b && k.phase == .failing) (s.reportCopy b slot k)
    | none => none
  | .copyBudgetWindow =>
    let fresh := (s.time.toNat + 1) % 100000 = 0
    when (decide (s.time.toNat < 8 * s.windows)) { s with
      budgetUsed := [], time := s.time + 1
      gangs := mapIf (fun r => r.phase == .resident && !s.gangWithheld r) (fun r => { r with resident := r.resident + 1 }) s.gangs
      rerunService := if fresh then [] else s.rerunService
      rerunWindow := if fresh then [] else s.rerunWindow }
  | _ => none

end Sys2Proof.Claims

/-- R293 to R303: where the tile path and the parts that it names are free, a matrix instruction completes or begins its work, and the
completion of that work has the effect that the table above says. It covers MTCFG, MFCFG, MLD, MST, MSCL, MRDA, MWRA, MLDL, MPASS, MZERO,
MMA, MMA_COMPLETE and MATRIX_TRANSFER_COMPLETE. -/
def Obligations.MatrixResult : Prop :=
  ∀ (i : Instr) (s t : State), matrixEffect i s = some t → exec i s = .next t

/-- R315 to R330: where its operands are legal, a stream, copy or event instruction has the effect that the table above says, and so have
the events of the copy engine. That SCFG, SCLR and SQRY do not wait for relaxed accesses, and that the windows of a re-run share begin at
multiples of 100,000 microseconds, are choices of the model (logs 77, 79). It covers SCFG, SADV, SQRY, SCLR, CPY, CPYG, CPYS, CPYZ, CJOIN,
EVPOP, EVWAIT, COPY_START, COPY_COMPLETE, COPY_FAULT and COPY_BUDGET_WINDOW. -/
def Obligations.EngineResult : Prop :=
  ∀ (i : Instr) (s t : State), engineEffect i s = some t → exec i s = .next t

namespace Sys2Proof.Claims

open Sys2Proof.Machine

/-! ### System, gangs and grids -/

/-- The rules of a privileged instruction, and of a tile-management instruction (R379, R397). -/
def privilegedAt : Op.Rules := { held := true, privileged := true }
def manageAt : Op.Rules := { held := true, privileged := true, drained := true }

/-- The instruction issues for the first time. -/
def firstIssue (s : State) : Bool := s.me.popped.isEmpty && s.me.held.isEmpty

/-- A thread at its handler (R383): what it saves, TST with S and TEN set and PS the old S, LDEPTH one deeper, PC at TVEC. -/
def entered (t : Thread) (cause : BitVec 9) (epc v : Word) : Thread :=
  let sup := t.tst.getLsbD 0
  { t with
    tcause := cause, tepc := epc, tval := v
    tst := BitVec.ofNat 4 ((if t.tst.getLsbD 3 then 8 else 0) + 4 + (if sup then 2 else 0) + 1)
    ldepth := BitVec.ofNat 16 (min 65535 (t.ldepth.toNat + 1))
    pc := t.tvec, park := none, parkNext := 0, popped := [], held := [], claims := [] }

/-- A status written to X, and the thread fallen through (R397). -/
def statusDone (s : State) (c : Chain) (x : RegNum) (n : Nat) : State := (s.dst x (BitVec.ofNat 64 n)).fell c

/-- A site operand the issuer may name (R397). -/
def namesSite (s : State) (w : Word) : Bool :=
  decide (w.toNat < 65536) && (State.isCore s.cur.1 || (decide (s.pbaseOf s.cur.1 ≤ w.toNat) && decide (w.toNat < s.pbaseOf s.cur.1 + s.plenOf s.cur.1)))

/-- An address of a tile image: rim, a multiple of 4,096 (R399). -/
def imageAt (s : State) (i : Word) : Bool :=
  State.tagOf i == 4 && s.addressOk s.cur.1 s.cur.2 i 8 Use.load && i.toNat % 4096 == 0

/-- What a system, hint or tile-management instruction does (R45, R134, R135, R343, R381 to R387, R397 to R406). -/
def systemEffect (i : Instr) (s : State) : Option State :=
  let a := s.cur.1
  let th := s.cur.2
  match i with
  | .nop c => when (s.admits { guarded := false } c) (s.fell c)
  | .align c tag =>
    let mates := (s.courseMates a).filter fun b => (s.thread b th).live && (s.thread b th).park.isNone
    when (s.admits { guarded := false } c && firstIssue s)
      (if !s.fretless a || s.me.spec.isSome then s.fell c
       else if mates.isEmpty then (s.alignSeen a th tag).fell c
       else (kept s c (.align tag [] (s.cyc a))).alignSeen a th tag)
  | .pref c x =>
    let v := s.src x
    let f : Fill := { agent := a, thread := th, course := State.courseOf a, vd := s.vdOf a, space := s.fetchSpace a th,
                      line := v.1.toNat % 2 ^ 56 / 64, ahead := true }
    let there := v.2.icache.any fun l => l.course == f.course && l.vd == f.vd && l.space == f.space && l.line == f.line
    when (s.admits { guarded := false } c && firstIssue s) (if s.atHand [.g x] []
      then (if !State.isCore a && v.1.toNat / 2 ^ 56 == 0x40 && !there then { v.2 with fills := v.2.fills ++ [f] } else v.2).fell c
      else s.fell c)
  | .halt c => when (s.admits { held := true, drained := true } c) (s.haltThread a th)
  | .trap c imm => when (s.admits { held := true } c && !s.me.tst.getLsbD 2)
      ((s.fell c).modMe fun t => entered t 0x008 t.pc imm)
  | .brk c imm => when (s.admits { held := true } c && !s.me.tst.getLsbD 2 && firstIssue s) (s.modMe fun t => entered t 0x007 t.pc imm)
  | .eret c => when (s.admits privilegedAt c && (s.me.tcause.toNat % 256 != 9 || s.me.relaxed.isEmpty))
      (if s.me.tcause.toNat % 256 = 9 then (s.fell c).haltThread a th
       else s.modMe fun t =>
         let t := t.loopReturn
         { t with pc := t.tepc &&& ~~~1#64, parkNext := 0, park := none, popped := [], held := [], claims := []
                  tst := BitVec.ofNat 4 ((if t.tst.getLsbD 3 then 8 else 0) + (if t.tst.getLsbD 1 then 3 else 0)) })
  | .sleep c => when (s.admits { held := true } c && firstIssue s) (kept s c .sleep)
  | .mfs c x r =>
    when (s.admits { compute := State.computeOnly r, privileged := State.sysPrivileged r false } c && s.atHand [] [.g x])
      ((s.dst x (s.sysRead a th r)).fell c)
  | .mts c x r =>
    let w := s.src x
    let done := (w.2.sysWrite a th r w.1).fell c
    when (s.admits { compute := State.computeOnly r, privileged := State.sysPrivileged r true, held := true } c && s.atHand [.g x] []
        && (r != .clkdiv || (decide (w.1.toNat % 8 < 4) && !w.2.clockHeld a (w.1.toNat % 4))))
      (if r == .tst && w.1.getLsbD 3 then (if State.isCore a then done.haltThread a th else done.endGang a th 0 0) else done)
  | .tstop c x =>
    let b := s.src x
    let n := b.1.toNat
    let w := b.2
    let k := kept w c (.tstop n x) (reservedAt x)
    let t := k.tile n
    let moved := if t.mark == .original then k.modEntry t.handle (State.gangOf t.vtn) fun e => State.bumpGen (State.setMove true e) else k
    let late := (moved.gangOfTile n).any fun g => g.cancelTrap
    if s.admits manageAt c && s.atHand [.g x] [.g x] && namesSite w b.1 then match w.siteState n with
      | .running => some (moved.modSite n fun y =>
          { y with state := .stopping, stopBy := some (.tstop a th), stopAt := if late then y.stopAt else y.cyc, atRest := false })
      | .stopping => some k
      | .stopped => some (if (w.site n).stopBy == some .scheduler then k else statusDone w c x 0)
      | .loaded | .free | .quarantined | .defective => some (statusDone w c x 1)
    else none
  | .tsave c x y =>
    let m := s.src y
    let b := m.2.src x
    let w := b.2
    let ok := s.admits manageAt c && s.atHand [.g y, .g x] [.g x] && namesSite w b.1 && imageAt w m.1
    if w.siteState b.1.toNat != .stopped then when ok (statusDone w c x 1)
    else match w.segments (w.threadAsker a th) m.1 State.imageSize { write := true, plain := false, kind := .store } with
      | .ok l => when ok (statusDone (((w.usedRange (w.threadAsker a th) m.1 State.imageSize).keepRests b.1.toNat).putPieces l (w.imageCells b.1.toNat) (w.imagePoison b.1.toNat)) c x 0)
      | .error _ => none
  | .tload c x y =>
    let m := s.src y
    let b := m.2.src x
    let n := b.1.toNat
    let w := b.2
    let ok := s.admits manageAt c && s.atHand [.g y, .g x] [.g x] && namesSite w b.1 && imageAt w m.1
      && !(w.siteState n == .stopped && (w.site n).stopBy == some .scheduler)
    if w.siteState n != .free && w.siteState n != .stopped then when ok (statusDone w c x 1)
    else match w.segments (w.threadAsker a th) m.1 State.imageSize { read := true, plain := false } with
      | .ok l =>
        let w := w.usedRange (w.threadAsker a th) m.1 State.imageSize
        let im := w.getPieces l
        let v : BitVec 32 := BitVec.ofNat 32 (Mem.readN im.1 0x6304 4)
        match w.headerGrid a (Mem.readN im.1 0x631C 1) (BitVec.ofNat 64 (Mem.readN im.1 0x6308 8)) with
        | none => when ok (statusDone w c x 2)
        | some g =>
          let clear := if w.siteState n == .stopped then w.discardTile n else w
          let there := ((((clear.setMcrN (0x60000 + n) 1 0).installImage n im.1 im.2 .original g.vd g.handle).modSite n
            fun z => { z with state := .loaded, stopBy := none }).moveRank g.handle v n).unbench n
          when ok (if Mem.readN im.1 0x6300 4 ≠ 1 || g.desc.gcnt ≤ State.gangOf v || g.desc.gsz ≤ State.rankOf v then statusDone w c x 2
            else statusDone (there.modTile n fun t => { t with sealed := there.gangHeld g.handle (State.gangOf v) }) c x 0)
      | .error _ => none
  | .tgo c x =>
    let b := s.src x
    let n := b.1.toNat
    let w := b.2
    let armed := if w.siteState n == .stopped then w.modTile n fun t => { t with threads := t.threads.map State.rearm } else w
    let going := ((armed.modSite n fun z => { z with state := .running, stopBy := none }).rejoin n).decideTile n
    when (s.admits manageAt c && s.atHand [.g x] [.g x] && namesSite w b.1 && !(w.siteState n == .stopped && (w.site n).stopBy == some .scheduler))
      (if w.siteState n == .loaded || w.siteState n == .stopped
       then statusDone (if (going.tile n).mark == .original then going.openMoved (going.tile n).handle (State.gangOf (going.tile n).vtn)
         else going.openRerun n) c x 0
       else statusDone w c x 1)
  | .tmap c x y =>
    let b := s.src y
    let key := tileKey a (b.1.toNat % 65536)
    let r := b.2.mapBlock a key
    when (s.admits manageAt c && s.atHand [.g y] [.g x] && inPad b.1 64 && b.1.toNat % 64 == 0
        && ((List.range 8).all fun i => !b.2.isPoisoned (key + 8 * i)) && !b.2.mapBusy a key) (statusDone r.2 c x r.1)
  | .tquar c x =>
    let b := s.src x
    let dead := b.2.siteState b.1.toNat == .quarantined || b.2.siteState b.1.toNat == .defective
    when (s.admits { manageAt with core := true } c && s.atHand [.g x] [.g x] && namesSite b.2 b.1)
      (if dead then statusDone b.2 c x 1 else statusDone (b.2.quarantine b.1.toNat) c x 0)
  | .zero c x y =>
    let n := s.src y
    let p := n.2.src x
    let lo := p.1.toNat % 2 ^ 36
    let key := vaultKey (s.pbaseOf a) lo
    when (s.admits manageAt c && s.atHand [.g y, .g x] [.g x] && State.tagOf p.1 == 2 && p.1.toNat / 2 ^ 36 % 2 ^ 24 == 0
        && decide (lo + n.1.toNat ≤ s.plenOf a * 1048576) && p.1.toNat % 8 == 0 && n.1.toNat % 8 == 0
        && !(s.zeroing.any fun z => vaultKey z 0 < key + n.1.toNat && key < vaultKey (z + 1) 0))
      (statusDone (p.2.zeroVaults key n.1.toNat) c x 0)
  | .tlbinv c x y =>
    let b := s.src y
    let w := b.2.src x
    let vd := if State.isCore a then w.1.toNat % 256 else s.vdOf a
    let n := w.1.toNat / 2 ^ 32
    let space := if w.1.getLsbD 8 then some (w.1.toNat / 2 ^ 16 % 2 ^ 16) else none
    let range := if w.1.getLsbD 9 then some (b.1.toNat / 2 ^ 16 % 2 ^ 40 * 65536, (if n = 0 then 2 ^ 32 else n) * 65536) else none
    when (s.admits manageAt c && s.atHand [.g y, .g x] [.g x]) (statusDone (w.2.invalidate vd space range).retryOutside c x 0)
  | .vote c x =>
    let w := s.src x
    let vd := if State.isCore a then w.1.toNat / 2 ^ 8 % 256 else s.vdOf a
    let k := w.1.toNat % 128
    when (s.admits manageAt c && s.atHand [.g x] [.g x])
      (statusDone { w.2 with votes := if k = 127 then Tab.erase w.2.votes vd else Tab.set w.2.votes vd (min k 40) } c x
        ((Tab.get? w.2.votes vd).getD 127))
  | _ => none

/-- The rules of a gang instruction (R337). -/
def gangAt : Op.Rules := { held := true }

/-- What a gang or cruise instruction does (R337 to R345, R375 to R377). -/
def gangEffect (i : Instr) (s : State) : Option State :=
  let a := s.cur.1
  let th := s.cur.2
  let rerun := (s.tile a).mark != .original
  match i with
  | .launch c x =>
    let d := s.src x
    when (s.admits { held := true, drained := true } c && s.atHand [.g x] [.g x] && decide ((s.tile a).outb.length < 16)
        && State.tagOf d.1 == 4 && s.addressOk a th d.1 8 Use.load && d.1.toNat % 128 == 0)
      (if rerun then (d.2.dst x 0x8000000000000000).fell c
       else ((handedOver d.2 (.launch d.1) 0 none 0).modMe fun t => { t with launching := t.launching ++ [(x, s.nextMsg)] }).fell c)
  | .cancel c x =>
    let h := s.src x
    let vd := s.vdOf a
    let known := (h.2.lookupGrid vd h.1).isSome || s.homedAway h.1
    -- what a re-run's CANCEL answers is not stated: a free value (log 28)
    when (s.admits gangAt c && s.atHand [.g x] [.g x])
      (if rerun then ({ h.2 with free := h.2.free + 1 }.dst x (Config.openValue h.2.free)).fell c
       else kept h.2 c (.dispatcher (if known then State.gidOf vd h.1 else BitVec.allOnes 64) x) (reservedAt x))
  | .gwait c x =>
    let h := s.src x
    let vd := s.vdOf a
    let free := Config.podData h.2.free
    let u := { h.2 with free := h.2.free + 1 }
    when (s.admits gangAt c && s.atHand [.g x] [.g x])
      (if rerun then (h.2.dst x 3).fell c
       -- whether a grid homed on another module is complete, its home dispatcher answers: a free value (log 1)
       else if s.homedAway h.1 then (if free.getLsbD 63 then (u.dst x 3).fell c else kept u c (.grid (State.gidOf vd h.1) x) (reservedAt x))
       else match h.2.lookupGrid vd h.1 with
        | none => (h.2.dst x 3).fell c
        | some g => if g.complete then (h.2.dst x (State.statusWord (some g))).fell c else kept h.2 c (.grid g.handle x) (reservedAt x))
  | .gqry c x y =>
    let h := s.src y
    when (s.admits gangAt c && s.atHand [.g y] [.g x])
      (if rerun then (h.2.dst x 3).fell c
       else ({ h.2 with free := h.2.free + 1 }.dst x (h.2.statusBy h.1 (h.2.lookupGrid (s.vdOf a) h.1) (Config.podData h.2.free))).fell c)
  | .spawn c x y =>
    let w := s.src y
    let e := w.2.src x
    let r := e.2.spawnOn a e.1 w.1
    when (s.admits { held := true, drained := true } c && s.atHand [.g y, .g x] [.g x]) ((r.2.dst x (BitVec.ofNat 64 r.1)).fell c)
  | .seed c x =>
    let counted (s : State) : State := s.modMe fun t => { t with seedSeq := t.seedSeq + 1 }
    let ok := s.admits gangAt c && s.atHand [] [.g x]
    if s.seedMode a == .normal then
      let v := Config.entropy s.free
      when (ok && s.entropyFailing.isNone && s.seedRoom) ((counted (({ s with free := s.free + 1 }.seedAppend a th v).dst x v)).fell c)
    else match s.seedReplay a th with
      | some v => when ok ((counted (s.dst x v)).fell c)
      | none => none
  | .crdig c x k =>
    let d (i : Nat) : Word := (vget (s.tile a).digest i 0).setWidth 64
    when (s.admits gangAt c && s.atHand [] [.g x])
      ((s.dst x (if k = 0 then d 0 + 2 ^ 32 * d 1 else d 2 + 2 ^ 32 * d 3)).fell c)
  | .cron c => when (s.admits gangAt c) ((s.modMe fun t => { t with cx := false }).fell c)
  | .croff c => when (s.admits gangAt c) ((s.modMe fun t => { t with cx := true }).fell c)
  | .crstat c x y =>
    let w := s.src y
    let z := w.2.site w.1.toNat
    when (s.admits privilegedAt c && s.atHand [.g y] [.g x] && namesSite w.2 w.1)
      ((w.2.dst x (BitVec.ofNat 64 (z.score.toNat + (if w.2.siteState w.1.toNat == .quarantined then 256 else 0) + (if z.pend then 512 else 0)
        + w.2.clean % 2 ^ 20 * 2 ^ 16))).fell c)
  | _ => none

end Sys2Proof.Claims

/-- R45, R134, R135, R343, R381 to R387, R397 to R406: where its operands are legal and the mode admits it, a system, hint or
tile-management instruction has the effect that the table above says. That ERET takes bit 0 of TEPC as 0, and that a thread held by another
ALIGN counts as parked, are choices of the model (logs 71, 72). It covers NOP, ALIGN, PREF, HALT, TRAP, BRK, ERET, SLEEP, MFS, MTS, TSTOP,
TSAVE, TLOAD, TGO, TMAP, TQUAR, ZERO, TLBINV and VOTE. -/
def Obligations.SystemResult : Prop :=
  ∀ (i : Instr) (s t : State), systemEffect i s = some t → exec i s = .next t

/-- R337 to R345, R375 to R377: where its operands are at hand, a gang or cruise instruction has the effect that the table above says. What
it answers of grids homed on other modules is free (log 1), so is the answer of a CANCEL in a cruise re-run (log 28), and SEED in replay
reads the record that log 60 describes. It covers LAUNCH, CANCEL, GWAIT, GQRY, SPAWN, SEED, CRDIG, CRON, CROFF and CRSTAT. -/
def Obligations.GangResult : Prop :=
  ∀ (i : Instr) (s t : State), gangEffect i s = some t → exec i s = .next t

namespace Sys2Proof.Claims

open Sys2Proof.Machine

/-! ### Events of waits, memory and the schedulers -/

/-- A thread's waiting instruction completes: its next PC takes the loop step (R127). -/
def resumed (s : State) (a th : Nat) : State := s.modThread a th fun t => t.complete t.parkNext false

/-- An event of a thread's wait, of an access, of translation or of a bank, where it can occur (R95 to R206). -/
def waitEvent (i : Instr) (s : State) : Option State :=
  match i with
  | .instructionFetchFill a line => match s.fills.find? fun f => f.agent == a && f.line == State.lineOf line with
    | some f => match s.fillArrive f with
      | .ok t => some t
      | .error _ => none
    | none => if State.isCore a then none else match s.ownLine a line with
      | some l => some (s.parityError a l)
      | none => (s.aheadThread a line).map fun th => s.fetchAhead a th line
  | .alignTimeout a th => match (s.thread a th).park with
    | some (.align _ _ since) => when (decide (since.toNat + 256 ≤ (s.cyc a).toNat)) (resumed s a th)
    | _ => none
  | .threadUnpark a th => match (s.thread a th).park with
    | some .draining => when (s.thread a th).live ((s.drainThread a th).settleEnded a th)
    | some (.rearmed w) => when ((s.thread a th).live && w.kind != 3 && s.rearmedReady a th w) (s.modThread a th fun t => { t with park := none })
    | some (.operands _ _) => none
    | some (.align _ seen _) => when ((s.thread a th).live && (s.alignMates a th seen).isEmpty) (resumed s a th)
    | some p => when ((s.thread a th).live && s.mayUnpark a th p) (s.modThread a th fun t => { t with park := none })
    | none => none
  | .accessPerformed r => match r with
    | .relaxed a th k => match s.relaxedStep a th k with
      | .ok t => some t
      | .error _ => none
    | .matrix a => match (s.tile a).xfer with
      | some j => when (decide (j.done < j.total)) (s.xferStep a j)
      | none => none
    | .copy a slot u last => match s.copyStep a slot u last with
      | .ok t => some t
      | .error _ => none
    | .pod a th => match s.podStep a th with
      | .ok t => some t
      | .error _ => none
    | .strike key corrected => some (s.strike key corrected)
  | .deferredFault a th => match (s.thread a th).deferred with
    | some d =>
      let w := (s.withdraw a th).modThread a th fun t => { t with deferred := none }
      when ((s.thread a th).park != some .matrixOwn) (w.takeTrap a th d.cause false (w.thread a th).pc d.value)
    | none => none
  | .translationWalkDone st k => ((s.walking st)[k]?).map fun w => (s.finishWalk w).retryOutside
  | .walkRetry st => some { s with walks := s.admitWalks st s.walks }
  | .stationReplayWrite st v => some (s.mcrWrite (0x2000 + 8 * st) v).retryOutside
  | .reservationRevoke a th => when (s.holdsUp a th) (s.dropHold a th true)
  | .queueTableReadmit bank => match splitFirst (fun r => State.bankOf r.key == bank) s.rejected with
    | some (pre, r, post) => when (decide (s.queueLoad bank < 32)) ({ s with rejected := pre ++ post, resv := s.resv ++ [r] }.regrant r.key)
    | none => none
  | .oinitRetry a th => match (s.thread a th).park with
    | some (.orderTable key v) => when (s.oinitReady key v) (resumed (s.oinitAt key v) a th)
    | _ => none
  | _ => none

/-- An event of a grid, a gang or the scheduler, where it can occur (R24 to R26, R260, R264, R334 to R360, R392, R393, R407). -/
def gangEvent (i : Instr) (s : State) : Option State :=
  match i with
  | .launchAccept id => match s.msg? id with
    | some m => match m.kind with
      | .launch d => match m.checked with
        | some c => some (s.acceptLaunch m d c.1 c.2)
        | none => when (m.phase == .flight && s.launchTurn m none) (s.checkLaunch m d)
      | _ => none
    | none => none
  | .dealRound node h => match s.grid? h with
    | some g => when (!State.placesAt node g.desc.gsz) (match s.dealtImage g with
      | (none, u) => u
      | (some g, u) => u.dealRound g node)
    | none => some (s.dealtHere h)
  | .gangStart h k => match s.grid? h with
    | some g =>
      if State.markOf k == .original then some (s.startGang g k)
      else match (s.oldestRerun g.vd).filter fun x => x.handle == h && x.gang == k % 65536 with
        | some x => when (!x.placed && State.auditMark x == State.markOf k && s.rerunTurn x.vd) (s.startRerun g x)
        | none => none
    | none => none
  | .tileRetire a => match s.gangOfTile a with
    | some g =>
      let w := s.retireTile a
      when (s.hasTile a && s.siteState a == .running && g.phase == .resident && !g.retiredRanks.contains (State.rankOf (s.tile a).vtn)
          && !s.tileHeld a && s.tileDone a)
        (match w.gangOfTile a with
         | some g => if g.sites.length ≤ g.retiredRanks.length then w.retireGang g else w
         | none => w)
    | none => none
  | .gridComplete h =>
    if s.homedAway (State.handleOf h) then some (gridCompleteAway h s) else match s.grid? h with
    | some g =>
      let w := s.addRemote g
      match w.grid? h with
      | some x =>
        let close (u : State) : State :=
          let v := u.modGrid h fun y => { y with recorded := true }
          (v.closeGrid x).getD v
        when (!g.complete && s.gridDrained g) (if x.desc.crec = 0 ∨ x.recorded then close w
          else match w.attempt x.recHold (w.writeRange (State.dispAsker x.vd x.desc.space false) x.desc.crec 128 (State.completionRecord x)) with
            | .ok u => close u
            | .wait p u => u.modGrid h fun y => { y with recHold := some p }
            | .bad cause _ => close (w.addRecord (.supervisor x.vd) (record256 [(0, 8, x.desc.crec.toNat), (8, 1, cause.toNat), (10, 1, x.vd),
                (11, 1, 13), (16, 8, (State.handleOf h).toNat)])))
      | none => none
    | none => none
  | .cancelAccept a th => match (s.thread a th).park with
    | some (.dispatcher gid x) =>
      let answer (w : State) (n : Nat) : State := resumed (w.writeG a th x (BitVec.ofNat 64 n) 1) a th
      let away := gid != BitVec.allOnes 64 && s.homedAway (State.handleOf gid)
      let n := (Config.podData s.free).toNat % 4
      let w := if away then { s with free := s.free + 1 } else s
      some (match w.grid? gid with
        | none => answer w (if away then n else 2)
        | some g => if g.complete ∨ g.joined then answer w 1 else if g.cancelled then answer w 3 else if away ∧ n ≠ 0 then answer w n
          else answer (w.acceptCancel g) 0)
    | _ => none
  | .cancelReachYard h yard => match s.grid? h with
    | some g =>
      let away := s.homedAway (State.handleOf h)
      let u := if away && !g.cancelled && !g.complete then s.acceptCancel g else s
      when (g.cancelled || (away && !g.complete))
        (let w := u.modGrid h fun g => { g with reached := NSet.insert g.reached yard }
         (w.gangs.filter fun x => x.handle == h && x.mark == RunMark.original && State.yardOf x == yard && !x.cancelTrap).foldl State.cancelGang w)
    | none => none
  | .moduleLeavePod m => when (!s.inPod m)
      { s with grids := mapIf (fun g => !g.complete && g.desc.mask.getLsbD m) (fun g => { g with lost := true }) s.grids }
  | .yardWithhold y =>
    let back (r : DealRange) : DealRange := { r with node := 256 + y / 64 }
    when (!s.withheld.contains y && decide (y < 256))
      { s with withheld := NSet.insert s.withheld y, grids := s.grids.map fun g => { g with ranges := mapIf (fun r => r.node == y) back g.ranges } }
  | .yardRecover y => some { s with withheld := NSet.erase s.withheld y }
  | .watchdogExpire h k => match s.runOf h k with
    | some r =>
      let w := s.modRun r.handle r.index r.mark fun g => { g with dog := 0, dogReached := r.dog }
      when (s.vdWatchdog r.vd != 0 && decide (2 ^ s.vdWatchdog r.vd ≤ r.dog))
        ((s.standing r).foldl (fun w a => [0, 1, 2, 3].foldl (fun w th =>
          if (w.thread a th).live then (w.modThread a th fun t => { t with dogPending := true }).pressThread a th else w) w) w)
    | none => none
  | .quantumExpiry h k => match s.runOf h k with
    | some r => when (r.phase == .resident && decide (s.vdQuantum r.vd ≤ r.resident))
        (s.modRun r.handle r.index r.mark fun g => { g with quantumOver := true })
    | none => none
  | .gangSwapOut h k => match s.runOf h k with
    | some r =>
      if r.phase == .stopping then
        (if s.cancelRetires r then some (s.retireGang r) else if (s.standing r).all fun a => s.siteState a == .stopped then s.saveRun r else none)
      else (s.swapReason r).map fun dormant => s.beginStop r dormant
    | none => none
  | .tileStopDone a => if s.siteState a != .stopping then none else (s.atRest a).map fun u =>
      let w := u.stopTile a
      if w.siteState a != .stopped then w
      else
        let v := if (u.site a).stopBy == some .scheduler then w else w.finishTstop a 0
        match (v.gangOfTile a).filter v.cancelRetires with
        | some g => v.retireGang g
        | none => v
  | .gangSwapIn h k => match s.runOf h k, s.grid? h with
    | some r, some g =>
      let fits (l : List Nat) : Bool := r.mark != .original || (s.leavesRerun r.vd l && !(g.cancelled && g.reached.contains (l.headD 0 / 256)))
      if r.phase == .swappedOut && !r.dormant && !r.cancelTrap && s.swapInTurn r
        then ((s.placeAny r.vd (s.runAvoid r) g.desc.gsz).filter fits).map fun sites => s.restoreOn g r sites else none
    | _, _ => none
  | .tileFault h k => when (s.tileFaults.contains (h, k)) (s.modGang h k fun g => { g with dormant := false })
  | .rerunSiteReclaim vd => if s.rerunShort vd && !s.stopping vd && s.rerunWaits vd
    then (s.victim vd fun _ => true).map fun r => s.beginStop r false else none
  | .gangStallReport h k => match s.runOf h k with
    | some r =>
      let f := s.firstWaiter r
      when (!r.stalled && decide (2 ^ 20 ≤ r.stall))
        ((s.addRecord (.supervisor r.vd) (record256 [(0, 8, (State.handleOf h).toNat), (8, 1, 0x0F), (9, 1, (s.waitKind f.1 f.2).toNat),
          (10, 1, r.vd), (11, 1, 11), (12, 4, (s.tile f.1).vtn.toNat), (16, 1, f.2), (18, 2, r.index)])).modRun r.handle r.index r.mark
          fun g => { g with stalled := true })
    | none => none
  | .rerunVerdict h k => match s.grid? h, s.audits.find? fun x => x.handle == h && x.gang == k with
    | some g, some x => some (s.auditStep g x)
    | _, _ => none
  | .cruiseHoldClear h => match s.grid? h with
    | some g => when (g.holds && s.auditsOver g) (s.clearHolds g).retryOutside
    | none => none
  | _ => none

/-- The boundary of a window: the energy of the one that ends, then every course (R424, R425). -/
def windowOver (s : State) : State := { (List.range 4096).foldl State.windowAt s.chargeEnergy with windows := s.windows + 1 }

/-- An event of the platform, the host or the pod, where it can occur (R85 to R88, R158, R159, R409 to R428, R456). -/
def platformEvent (i : Instr) (s : State) : Option State :=
  match i with
  | .entropyTestFail k => when s.entropyFailing.isNone ({ s with entropyFailing := some k }.healthRecord 3 k 0 0 0)
  | .entropyRecover => when s.entropyFailing.isSome ({ s with entropyFailing := none }.healthRecord 4 0 0 0 0)
  | .seedLogHeadWrite v => some (s.mcrWrite 0x1010 v)
  | .replaySourceSizeWrite v => some (s.mcrWrite 0x1028 v)
  | .queueRecordAppend k => match s.records[k]? with
    | some r => match s.recordHdr r.queue with
      | some hdr => if (s.records.take k).all (fun x => x.queue != r.queue)
        then (s.ringAppend hdr r.bytes).map fun w => { w with records := w.records.eraseIdx k } else none
      | none => none
    | none => none
  | .hostWrite core addr n d => some (s.hostArrive { core := core, addr := addr, size := n, write := true, data := d })
  | .hostRead core addr n => some (s.hostArrive { core := core, addr := addr, size := n, write := false })
  | .hostLaunchDoorbell q tail => some (s.setMcrN (0x1100 + 32 * q + 12) 4 tail.toNat)
  | .hostLaunchRecordRead q => match Tab.get? s.hostQueues q with
    | some (.reading n p) => some (s.hlqRead q n (some p))
    | some (.storing r v p) => some (s.hlqResult q r v p)
    | some (.retry _) | some (.launched _) => none
    | none => when (decide (s.hlqHead q ≠ s.hlqTail q) && !s.hlqErr q) (s.hlqRead q 0 none)
  | .hostRecordRetry q => match Tab.get? s.hostQueues q with
    | some (.retry n) => some (s.hlqRead q n none)
    | _ => none
  | .hostQueueResume q => some (s.setMcrN (0x1100 + 32 * q + 24) 1 (s.mcrN (0x1100 + 32 * q + 24) 1 / 2 * 2))
  | .hostLinkDown port => some { s with hostDown := NSet.insert s.hostDown port }
  | .featureRequestWrite v => some (s.writeFeatures v)
  | .attestationRequest => when (s.mcrN 0x220 8 == 1) s.attest
  | .vdEntryWrite vd off v => some (s.mcrWrite (0x10000 + 512 * vd + off) v)
  | .vaultZeroDone site => when (s.zeroing.contains site) { s.zeroVault site with zeroing := s.zeroing.filter (· != site) }
  | .sitePowerWrite site b => some (s.writePower site b.toNat)
  | .mcrWrite off v => some (s.mcrWrite off v)
  | .podRequest m vd sp addr n w d =>
    let r : PodReq := { module := m, tile := (Config.podData s.free).toNat % 65536, id := s.nextMsg, vd := vd, space := sp, addr := addr, size := n, write := w, data := d }
    let u := { s.flitThrough m with podPending := s.podPending ++ [r], nextMsg := s.nextMsg + 1, free := s.free + 1 }
    when (s.inPod m && s.podUp m && decide (m ≠ s.moduleNo)) (if State.tagOf addr = 1 then (s.flitThrough m).podPost m vd addr d else u.podPump m)
  | .podFlitReplay p => when (!s.portsDown.contains p)
      { s with flitReplays := Tab.set s.flitReplays p ((Tab.get? s.flitReplays p).getD 0 + 1) }
  | .podLinkDown p => when (!s.portsDown.contains p && decide (64 ≤ (Tab.get? s.flitReplays p).getD 0))
      ({ s with portsDown := NSet.insert s.portsDown p, downAt := Tab.set s.downAt p s.time.toNat, flitReplays := Tab.erase s.flitReplays p }.healthRecord 6 p 0 0 0)
  | .podPortsDownTimeout m =>
    let e := s.mcrN (0x4000 + 8 * m) 2
    let down (p : Nat) : Bool := s.portsDown.contains p && decide ((Tab.get? s.downAt p).getD 0 + 10000 ≤ s.time.toNat)
    when (decide (m ≠ s.moduleNo) && s.inPod m && down (e % 64) && down (e / 256 % 64))
      { s with podLeft := NSet.insert s.podLeft m }
  | .moduleBoot =>
    let recovery := s.bootSlot.isNone || !s.signedNow 4
    let w := { s.writeBootStatus recovery with booted := true, recovery := recovery, measured := s.bootSlot.toList.flatMap s.measurements }
    when (!s.booted) (if recovery then w else [0, 1, 2, 3].foldl State.bootCore w.writeIdentity)
  | .overcurrentTrip => some ({ State.reset with agenda := s.agenda, choice := s.choice, free := s.free, flash := s.flash }.setMcrN 0x120 8 1)
  | .voltageWindow => when (decide (8 * s.windows ≤ s.time.toNat)) (windowOver s)
  | .voltageRampDone k =>
    when (decide (s.voltsOf k = s.codeOf k)) (s.freeClocks k)
  | .stackThermalChange k t =>
    let old := (Tab.get? s.stackStep k).getD 0
    let step := State.nextStep old t
    let w := { s with stackStep := Tab.set s.stackStep k step, free := s.free + 1 }
    let w := w.setMcrN (0x81000 + 8 * k) 8 (w.thermalWord k t)
    some (if step = old then w else w.derateRecords k)
  | _ => none

end Sys2Proof.Claims

/-- R95 to R206: where it can occur, an event of a wait, an access, a translation or a bank has the effect that the table above says. Where
a memory error strikes, and which mates end an ALIGN hold, are choices of the model (logs 15, 72). It covers INSTRUCTION_FETCH_FILL,
ALIGN_TIMEOUT, THREAD_UNPARK, ACCESS_PERFORMED, DEFERRED_FAULT, TRANSLATION_WALK_DONE, WALK_RETRY, STATION_REPLAY_WRITE, RESERVATION_REVOKE,
QUEUE_TABLE_READMIT and OINIT_RETRY. -/
def Obligations.WaitEventResult : Prop :=
  ∀ (i : Instr) (s t : State), waitEvent i s = some t → exec i s = .next t

/-- R24 to R26, R260, R264, R334 to R360, R392, R393, R407: where it can occur, an event of a grid, a gang or the scheduler has the effect
that the table above says. What is known of grids homed on other modules is free (log 1), and where a gang that comes back is placed, and in
which order, are choices of the model (logs 29, 52). It covers LAUNCH_ACCEPT, DEAL_ROUND, GANG_START, TILE_RETIRE, GRID_COMPLETE,
CANCEL_ACCEPT, CANCEL_REACH_YARD, MODULE_LEAVE_POD, YARD_WITHHOLD, YARD_RECOVER, WATCHDOG_EXPIRE, QUANTUM_EXPIRY, GANG_SWAP_OUT,
TILE_STOP_DONE, GANG_SWAP_IN, TILE_FAULT, RERUN_SITE_RECLAIM, GANG_STALL_REPORT, RERUN_VERDICT and CRUISE_HOLD_CLEAR. -/
def Obligations.GangEventResult : Prop :=
  ∀ (i : Instr) (s t : State), gangEvent i s = some t → exec i s = .next t

/-- R85 to R88, R158, R159, R409 to R428, R456: where it can occur, an event of the platform, the host or the pod has the effect that the
table above says. The request field of attestation, the boot blocks, the sender of a pod request and the thermal word of a full bandwidth
are choices of the model or free values (logs 1, 10, 22, 28, 31). It covers ENTROPY_TEST_FAIL, ENTROPY_RECOVER, SEED_LOG_HEAD_WRITE,
REPLAY_SOURCE_SIZE_WRITE, QUEUE_RECORD_APPEND, HOST_WRITE, HOST_READ, HOST_LAUNCH_DOORBELL, HOST_LAUNCH_RECORD_READ, HOST_RECORD_RETRY,
HOST_QUEUE_RESUME, HOST_LINK_DOWN, FEATURE_REQUEST_WRITE, ATTESTATION_REQUEST, VD_ENTRY_WRITE, VAULT_ZERO_DONE, SITE_POWER_WRITE, MCR_WRITE,
POD_REQUEST, POD_FLIT_REPLAY, POD_LINK_DOWN, POD_PORTS_DOWN_TIMEOUT, MODULE_BOOT, OVERCURRENT_TRIP, VOLTAGE_WINDOW, VOLTAGE_RAMP_DONE and
STACK_THERMAL_CHANGE. -/
def Obligations.PlatformEventResult : Prop :=
  ∀ (i : Instr) (s t : State), platformEvent i s = some t → exec i s = .next t

namespace Sys2Proof.Claims

open Sys2Proof.Machine

/-! ### Traps, guards and steps -/

/-- The vector, matrix and compute-only instructions, illegal on the control thread (R38, R52, R53, R76, R265). -/
def computeOnly : Instr → Bool
  | .vadd .. | .vsub .. | .vmul .. | .vfma .. | .vmin .. | .vmax .. | .vaddmin .. | .vdiv .. | .vsqrt .. => true
  | .vand .. | .vor .. | .vxor .. | .vshl .. | .vshr .. | .vsar .. | .vceq .. | .vclt .. | .vcle .. | .vsel .. => true
  | .vslu .. | .vsld .. | .vperm .. | .vbcst .. | .vext .. | .vins .. | .vredadd .. | .vcvt .. | .vcvtq .. | .vsfu .. | .vpeg .. => true
  | .vld .. | .vst .. | .putv .. => true
  | .mtcfg .. | .mfcfg .. | .mld .. | .mst .. | .mldl .. | .mpass .. | .mzero .. | .mrda .. | .mwra .. | .mscl .. | .mma .. => true
  | .mfs _ _ r | .mts _ _ r => r == .fctl || r == .fst || r == .srkey || r == .srcnt
  | _ => false

/-- The instructions of the control thread alone (R330). -/
def controlOnly : Instr → Bool
  | .evpop .. | .evwait .. => true
  | _ => false

/-- The privileged instructions (R379): ERET, page 1 of major 0x0, CRSTAT, and MFS or MTS where the access of R380 is privileged. -/
def privilegedUse : Instr → Bool
  | .eret .. | .tstop .. | .tsave .. | .tload .. | .tgo .. | .tmap .. | .tquar .. | .zero .. | .tlbinv .. | .vote .. | .crstat .. => true
  | .mfs _ _ r => [SysReg.tcause, .tepc, .tval, .tvec, .tscratch, .clkdiv, .eccnt, .psite, .age].contains r
  | .mts _ _ r => [SysReg.tst, .tcause, .tepc, .tval, .tvec, .tscratch, .clkdiv, .eccnt].contains r
  | _ => false

/-- The instructions whose MOD predicate is no guard (R34): NOP, ALIGN, PREF, SEL and major 0xC. -/
def unguarded : Instr → Bool
  | .nop .. | .align .. | .pref .. | .sel .. => true
  | .vadd .. | .vsub .. | .vmul .. | .vfma .. | .vmin .. | .vmax .. | .vaddmin .. | .vdiv .. | .vsqrt .. => true
  | .vand .. | .vor .. | .vxor .. | .vshl .. | .vshr .. | .vsar .. | .vceq .. | .vclt .. | .vcle .. | .vsel .. => true
  | .vslu .. | .vsld .. | .vperm .. | .vbcst .. | .vext .. | .vins .. | .vredadd .. | .vcvt .. | .vcvtq .. | .vsfu .. | .vpeg .. => true
  | _ => false

/-- Order 1 of R137, space by space: the address has no bit set that has to be zero, and names something there. A tile's pad, or the control
window for a load of 4 or 8 bytes (R141); the pad of a tile of the grid (R142); a vault of the partition (R144); a rim space with a valid
directory entry (R149); a pod module with a partner, which on this module has such a space (R158, R413); and for a service core's plain
access of 8 bytes in supervisor mode the module control registers (R145, R411). -/
def order1 (s : State) (a th : Nat) (addr : Word) (n : Nat) (u : Use) : Bool :=
  let v := addr.toNat
  let low := v % 2 ^ 60
  let valid (vd space : Nat) : Bool := decide (space < s.mcrN (0x10000 + 512 * vd + 16) 4)
    && s.readN (rimKey (s.mcrN (0x10000 + 512 * vd + 8) 8 + 16 * space)) 1 % 2 == 1
  let partner := s.mcrN (0x10000 + 512 * s.vdOf a + 128 + 4 * (low / 2 ^ 50)) 4
  (v / 2 ^ 60 == 0 && (decide (low < 0x6000) || (decide (0x7000 ≤ low) && decide (low < 0x8000) && u.read && (n == 4 || n == 8)
    && (u.fe || (u.plain && !u.write))))) ||
  (v / 2 ^ 60 == 1 && decide (low < 2 ^ 48) && decide (low % 2 ^ 16 < 0x6000) && !State.isCore a && (s.grid? (s.tile a).handle).any fun g =>
    decide (low / 2 ^ 32 < g.desc.gcnt) && decide (low / 2 ^ 16 % 2 ^ 16 < g.desc.gsz)) ||
  (v / 2 ^ 60 == 2 && decide (low < s.plenOf a * 2 ^ 20)) ||
  (v / 2 ^ 60 == 4 && decide (low < 2 ^ 56) && valid (s.vdOf a) (s.dataSpace a)) ||
  (v / 2 ^ 60 == 5 && decide (low < 2 ^ 56) && partner / 256 % 2 == 1 && (low / 2 ^ 50 != s.mcrN 0x20 8 % 64 || valid (partner % 256) (partner / 65536))) ||
  (v / 2 ^ 60 == 12 && State.isCore a && (s.thread a th).tst.getLsbD 0 && u.plain && !u.fe && !u.relaxed && n == 8 && decide (low < 2 ^ 24))

/-- The cause of orders 1 to 3 of R137 that an access of the issuing thread meets first. The spaces with full/empty bits are the pads and the
vaults (R136). -/
def orderFault (s : State) (addr : Word) (n : Nat) (u : Use) : Option (BitVec 8) :=
  if !order1 s s.cur.1 s.cur.2 addr n u then some 0x03
  else if addr.toNat % n ≠ 0 then some 0x04
  else if u.fe = true ∧ 0x7000 ≤ addr.toNat ∧ ¬ (2 ^ 60 ≤ addr.toNat ∧ addr.toNat < 3 * 2 ^ 60) then some 0x0B
  else none

/-- `n` halfwords that a thread's fetch reads from an address on, and the state after. -/
def fetched (s : State) (a th : Nat) (va : Word) : Nat → Option (List Half × State)
  | 0 => some ([], s)
  | n + 1 => match s.fetchHalf a th va with
    | .ok (h, s') => (fetched s' a th (va + 2) n).map fun r => (h :: r.1, r.2)
    | .error _ => none

/-- The state in which a thread fetches, where the next move is a cycle of an agent in which one issues: no count of its gang and no
revocation of a reservation is due, and the cycle's slot finds the thread (R38, R92 to R94, R204, R385). -/
def fetching (s : State) : Option State :=
  match s.nextMove with
  | (.cycle a ready split, s0) =>
    if (s0.gangOfTile a).any s0.countDue || s0.revokeDue a then none
    else
      let s1 := { s0.advance a with split := split }
      match s1.slotThread a ready with
      | some th =>
        let s2 := { s1 with cur := (a, th) }
        if s1.tileIssues a && (s2.outsideTrap a th).isNone then some (s2.resume a th) else none
      | none => none
  | (.event _, _) => none

/-- A register number through which a destination pushes: a stream handle, LN and LNF toward rank + 1, LP and LPF toward rank - 1. -/
def pushTo (n : RegNum) : Option PushTo :=
  if isHandle n then some (.stream (handleNo n)) else if n = 40 ∨ n = 42 then some (.link .up) else if n = 41 ∨ n = 43 then some (.link .down) else none

/-- A thread that no access keeps in its middle: not half through a vector access, not at another module, not draining (R172). -/
def atBoundary (t : Thread) : Bool :=
  match t.park with
  | some (.half _) | some (.pod _) | some .draining => false
  | _ => true

/-- The double-trap record (kind 10 of R455): TEPC in bytes 0 to 7, the cause in 8 and 9, the VD in 10, the kind in 11, the virtual tile
in 12 to 15, the thread in 16, the value in 24 to 31; it goes to the supervisor queue of the VD. -/
def doubleTrapOf (s : State) (a th : Nat) (cause : BitVec 8) (epc v : Word) : PendingRecord :=
  ⟨.supervisor (s.vdOf a), BitVec.ofNat 256 (epc.toNat + cause.toNat * 2 ^ 64 + s.vdOf a % 256 * 2 ^ 80 + 10 * 2 ^ 88
    + (s.recordVtn a).toNat * 2 ^ 96 + th % 256 * 2 ^ 128 + v.toNat * 2 ^ 192)⟩

/-- The gang of a tile has issued an instruction. -/
def begun_ (s : State) (a : Nat) : State := s.modGangOfTile a fun g => { g with begun := true }

end Sys2Proof.Claims

/-- R383, R386: taking a trap outside a handler saves the cause, the PC given and the value, makes PSUP the mode that was, sets SUP and
TEN, steps LDEPTH up and goes to TVEC; nothing else of the thread, no other thread and no byte of memory changes. Inside a handler the
second trap's cause, PC and value are saved, the double-trap record of R455 goes to the supervisor queue, and the thread stops, and where
its gang has not ended before, so does every other thread of it that stands at a boundary; one in the middle of an access stops when that
access is over. A parked instruction's pops are first put back (R170), and here there are none. -/
def Obligations.TrapEntry : Prop :=
  (∀ (s : State) (a th : Nat) (cause : BitVec 8) (ext : Bool) (epc v : Word), th < 4 →
    (s.thread a th).tst.getLsbD 2 = false → (s.thread a th).popped = [] → (s.thread a th).held = [] →
    let t := s.takeTrap a th cause ext epc v
    t.thread a th = entered (s.thread a th) (BitVec.ofNat 9 (cause.toNat + if ext then 256 else 0)) epc v ∧
    (∀ b u, (b ≠ a ∨ u ≠ th) → t.thread b u = s.thread b u) ∧ (∀ k, Mem.read t.mem k = Mem.read s.mem k) ∧
    (∀ b, (t.tile b).c = (s.tile b).c ∧ (t.tile b).s = (s.tile b).s ∧ (t.tile b).mcfg = (s.tile b).mcfg) ∧ t.sites = s.sites) ∧
  (∀ (s : State) (a th : Nat) (cause : BitVec 8) (epc v : Word), th < 4 →
    (s.thread a th).tst.getLsbD 2 = true → (s.thread a th).popped = [] → (s.thread a th).held = [] →
    let t := s.takeTrap a th cause false epc v
    let n := t.thread a th
    n.tcause.toNat = cause.toNat ∧ n.tepc = epc ∧ n.tval = v ∧ n.live = false ∧
    t.records = s.records ++ [doubleTrapOf s a th cause epc v] ∧
    (State.isCore a = false → (s.gangOfTile a).any (fun g => !g.ended) = true →
      ∀ b ∈ s.gangAgents a, ∀ u < 4, atBoundary (s.thread b u) = true → (t.thread b u).live = false))

/-- R38, R76, R265, R330: a compute-only instruction on the control thread, and EVPOP and EVWAIT on a compute thread, trap with cause
0x01 and the base word, whatever their guard. -/
def Obligations.IllegalOnThread : Prop :=
  ∀ (i : Instr) (s : State), (computeOnly i = true ∧ s.cur.2 = 0) ∨ (controlOnly i = true ∧ s.cur.2 ≠ 0) →
    exec i s = .next (s.trapHere 0x01 (i.chain.word.setWidth 64))

/-- R379, R403: each privileged instruction takes 0x02 in user mode, with the base word as its value (R38), whatever its guard; TQUAR takes
it in either mode off a service core. -/
def Obligations.PrivilegedInUserMode : Prop :=
  ∀ (i : Instr) (s : State),
    (privilegedUse i = true ∧ s.me.tst.getLsbD 0 = false) ∨ ((∃ c x, i = .tquar c x) ∧ State.isCore s.cur.1 = false) →
    exec i s = .next (s.trapHere 0x02 (i.chain.word.setWidth 64))

/-- R39: an instruction whose guard fails takes its issue slot and advances the PC, and nothing else, once steps 1 to 3 of R38 have found no
trap; this holds for every guarded instruction, a branch included. -/
def Obligations.GuardFails : Prop :=
  ∀ (i : Instr) (s : State), i.enc.isSome = true → unguarded i = false →
    (computeOnly i = true → s.cur.2 ≠ 0) → (controlOnly i = true → s.cur.2 = 0) → (privilegedUse i = true → s.me.tst.getLsbD 0 = true) →
    ((∃ c x, i = .tquar c x) → State.isCore s.cur.1 = true) →
    (s.readQ s.cur.1 s.cur.2 i.chain.pred.toNat).getLsbD 0 = i.chain.sense →
    exec i s = .next (s.fell i.chain)

/-- R137: an access that fails a condition of orders 1 to 3 traps with that condition's cause and the address: 0x03 where the table of order
1 above does not let the address pass, else 0x04 where the address is no multiple of the size, else 0x0B for a full/empty access of a space
without full/empty bits. It covers the plain loads and stores and the full/empty loads and stores STE, STED, STF and STFD, WAITF and CLRF.
The trap leaves the operands as they were. -/
def Obligations.AddressTraps : Prop :=
  (∀ (i : Instr) (c : Chain) (x y : RegNum) (o : Word) (n : Nat) (signed : Bool) (s : State) (cause : BitVec 8),
    loadOf i = some (c, x, y, o, n, signed) → s.admits {} c = true → s.atHand [.g y] [.g x] = true → plainly s c = true →
    let addr := (s.src y).1 + o * BitVec.ofNat 64 n
    orderFault (s.src y).2 addr n Use.load = some cause → exec i s = .next (s.trapHere cause addr)) ∧
  (∀ (i : Instr) (c : Chain) (x y : RegNum) (o : Word) (n : Nat) (s : State) (cause : BitVec 8),
    storeOf i = some (c, x, y, o, n) → s.admits {} c = true → s.atHand [.g y, .g x] [] = true → plainly s c = true →
    let addr := (s.src y).1 + o * BitVec.ofNat 64 n
    orderFault ((s.src y).2.src x).2 addr n Use.store = some cause → exec i s = .next (s.trapHere cause addr)) ∧
  (∀ (i : Instr) (c : Chain) (x y : RegNum) (o : Word) (n : Nat) (clear : Bool) (s : State) (cause : BitVec 8),
    feLoadOf i = some (c, x, y, o, n, clear) → s.admits settled c = true → s.atHand [.g y] [.g x] = true →
    let addr := (s.src y).1 + o * BitVec.ofNat 64 n
    orderFault (s.src y).2 addr n { read := true, write := clear, fe := true, plain := false } = some cause →
    exec i s = .next (s.trapHere cause addr)) ∧
  (∀ (i : Instr) (c : Chain) (x y : RegNum) (o : Word) (n : Nat) (waits : Bool) (s : State) (cause : BitVec 8),
    feStoreOf i = some (c, x, y, o, n, waits) → s.admits settled c = true → s.atHand [.g y, .g x] [] = true →
    let addr := (s.src y).1 + o * BitVec.ofNat 64 n
    orderFault ((s.src y).2.src x).2 addr n { write := true, fe := true, plain := false, parks := !waits, kind := .store } = some cause →
    exec i s = .next (s.trapHere cause addr)) ∧
  (∀ (c : Chain) (y : RegNum) (s : State) (cause : BitVec 8), s.admits settled c = true → s.atHand [.g y] [] = true →
    let addr := (s.src y).1
    (orderFault (s.src y).2 addr 4 { read := true, fe := true, plain := false } = some cause →
      exec (.waitf c y) s = .next (s.trapHere cause addr)) ∧
    (orderFault (s.src y).2 addr 4 { write := true, fe := true, plain := false, parks := true, kind := .store } = some cause →
      exec (.clrf c y) s = .next (s.trapHere cause addr))) ∧
  (∀ (s : State) (a th : Nat) (addr : Word) (n : Nat) (u : Use), s.addressOk a th addr n u = order1 s a th addr n u)

/-- R40, R116: g0 and the numbers without a register read zero and discard writes; numbers 56 to 60 and IN discard writes; a write of g1
to g31 is what the next read gives, and reaches no other of them. q0 reads as 0xFFFF and ignores writes; on the control thread q1 to q7
read zero and ignore writes, so a guard on them never holds and a complemented one always does; elsewhere a write is what is read; SPAWN
sets q1 to q7 of the thread it starts to zero. -/
def Obligations.RegisterNumbers : Prop :=
  (∀ (s : State) (a th : Nat) (n : RegNum) (v : Word) (lat : Nat), th < 4 →
    (n = 0 ∨ n.toNat ∈ [45, 46, 47, 61, 62, 63] → s.readG a th n = (0, s) ∧ s.writeG a th n v lat = s) ∧
    (n.toNat ∈ [44, 56, 57, 58, 59, 60] → s.writeG a th n v lat = s) ∧
    (n.toNat = 56 → s.readG a th n = (BitVec.ofNat 64 th, s)) ∧
    (0 < n.toNat → n.toNat < 32 → ((s.writeG a th n v lat).readG a th n).1 = v ∧
      (∀ m : RegNum, m ≠ n → m.toNat < 32 → ((s.writeG a th n v lat).readG a th m).1 = (s.readG a th m).1) ∧
      (s.writeG a th n v lat).mem = s.mem)) ∧
  (∀ (s : State) (a th n : Nat) (w : BitVec 16), th < 4 → n < 8 →
    s.readQ a th 0 = 0xFFFF#16 ∧ s.writeQ a th 0 w = s ∧
    (n ≠ 0 → s.readQ a 0 n = 0 ∧ s.writeQ a 0 n w = s) ∧
    (n ≠ 0 → th ≠ 0 → (s.writeQ a th n w).readQ a th n = w)) ∧
  (∀ (s : State) (c : Chain), s.cur.2 = 0 → c.pred ≠ 0 → Op.guardHolds s c = c.sense) ∧
  (∀ (c : Chain) (x y : RegNum) (s t : State) (k n : Nat), s.admits settled c = true → s.atHand [.g y, .g x] [.g x] = true →
    k = (s.src y).1.toNat % 4 → k ≠ 0 → State.tagOf ((s.src y).2.src x).1 = 4 → ((s.src y).2.src x).1.getLsbD 0 = false →
    (s.thread s.cur.1 k).live = false → 0 < n → n < 8 → exec (.spawn c x y) s = .next t → t.readQ s.cur.1 k n = 0)

/-- R342, R380: a thread that SPAWN starts is live in user mode, on a tile, at the entry in X, with g2 at the end of its stack or 0, g3 the
value of Y, every other register zero, TCAUSE, TEPC, TVAL and TSCRATCH zero, TVEC the default vector of its VD and the others of its control
registers at their reset values; SPAWN answers 0 into X, a push where X is a stream handle or a link, and no other thread of the machine but
the issuing one changes. -/
def Obligations.SpawnStarts : Prop :=
  ∀ (c : Chain) (x y : RegNum) (s t : State) (k : Nat), s.admits settled c = true → s.atHand [.g y, .g x] [.g x] = true →
    let w := (s.src y).1
    let e := ((s.src y).2.src x).1
    k = w.toNat % 4 → k ≠ 0 → k ≠ s.cur.2 → State.tagOf e = 4 → e.getLsbD 0 = false → (s.thread s.cur.1 k).live = false →
    exec (.spawn c x y) s = .next t →
    let n := t.thread s.cur.1 k
    let stack := ((s.grid? (s.tile s.cur.1).handle).map fun g => g.desc.stack).getD 0
    n.live = true ∧ n.pc = e ∧ n.tst = (if State.isCore s.cur.1 then 1 else 0) ∧
    (∀ j, j < 32 → vget n.g j 0 = if j = 2 then (if stack = 0 then 0 else 0x6000#64 - BitVec.ofNat 64 (k * stack)) else if j = 3 then w else 0) ∧
    n.v = Vector.replicate 32 0 ∧ n.q = Vector.replicate 8 0 ∧ n.fctl = 0x9 ∧ n.fst = 0 ∧ n.srkey = 0 ∧ n.srcnt = 0 ∧
    n.tcause = 0 ∧ n.tepc = 0 ∧ n.tval = 0 ∧ n.tscratch = 0 ∧
    n.tvec = BitVec.ofNat 64 (s.mcrN (0x10000 + 512 * s.vdOf s.cur.1 + 32) 8 / 2 * 2) ∧
    n.ldepth = 0 ∧ n.loop0.valid = false ∧ n.loop1.valid = false ∧ n.sync = {} ∧ n.seedSeq = (s.thread s.cur.1 k).seedSeq ∧
    (0 < x.toNat → x.toNat < 32 → vget (t.thread s.cur.1 s.cur.2).g x.toNat 0 = 0) ∧
    (∀ p, pushTo x = some p → ∃ q, (t.tile s.cur.1).pushes = (s.tile s.cur.1).pushes ++ [q] ∧ q.to_ = p ∧ q.value = 0 ∧ q.thread = s.cur.2) ∧
    (∀ b u, (b, u) ≠ s.cur → (b, u) ≠ (s.cur.1, k) → t.thread b u = s.thread b u) ∧ (∀ j, Mem.read t.mem j = Mem.read s.mem j)

/-- What reset leaves: no tile anywhere, no thread live, no message, grid or waiting request; memory, full bits and every module control
register zero, but for the part code of the identity block, "PHW-65" (R412); each site's cycle counter 0 (R381) and AGE all ones (R381); the reset values of FCTL (R74), FST (R75), the matrix
configurations (R288) and the barrier configurations (R215). Memory has its canonical form. That unlisted memory reads zero and that registers without a stated reset
value start at zero is the model's choice (log 6). -/
def Obligations.AfterReset : Prop :=
  (∀ a th, (State.reset.thread a th).live = false ∧ (State.reset.thread a th).fctl = 0x9 ∧ (State.reset.thread a th).fst = 0 ∧
    (State.reset.thread a th).tst = 0) ∧
  (∀ a, State.reset.cyc a = 0 ∧ State.reset.sysRead a 0 .age = 0xFFFFFFFF ∧ (State.reset.tile a).mcfg = Vector.replicate 4 0x2080 ∧
    (State.reset.tile a).barCfg = Vector.replicate 4 0x001F ∧ (State.reset.tile a).c = Vector.replicate 16 0) ∧
  (∀ off n, State.reset.mcrN off n = 0) ∧ State.reset.mcrRead 0 = 0x35362D574850 ∧ (∀ k, Mem.read State.reset.mem k = 0 ∧ State.reset.isFull k = false) ∧
  State.reset.booted = false ∧ State.reset.net = [] ∧ State.reset.grids = [] ∧ State.reset.gangs = [] ∧ State.reset.records = [] ∧
  Memory.wf State.reset.mem = true

/-- Every step keeps memory in its canonical form: addresses rising, and no byte listed that an unlisted address reads as. -/
def Obligations.MemoryCanonicalKept : Prop :=
  ∀ s t : State, Memory.wf s.mem = true → step s = .next t → Memory.wf t.mem = true

/-- R27 to R35, R58: decoding the halfwords that an instruction encodes to gives that instruction, with every operand and every
bit of its MOD chain halfword, and leaves what follows. It covers all 225 encoded instructions. -/
def Obligations.DecodeOfEncode : Prop :=
  ∀ (i : Instr) (rest : List Half), i.encodable = true → decode (encode i ++ rest) = .ok (i, rest)

/-- Words of the spec's own examples and tables decode to what they stand for: LI, LOOP and TRAP #5 (the example of R387), ADD (R106), MUL
(R107), CALL with its PAGE prefix (R121), MFS of TEPC (R381), LDD and STW with an offset (R164), an immediate widened by IMX (R30), LDD g20,
[g2+1024] and a complemented BNE (the examples of R58), HIDX (the example of R113) and VEXT.I8 (the example of R268); the lane 9 of
VEXT.I16 is refused. -/
def Obligations.DecodeWords : Prop :=
  (decode [0x5A03]).toOption = some (.li ⟨0, 1, 0x5A03⟩ 5 3, []) ∧
  (decode [0x8B82]).toOption = some (.loop ⟨0, 1, 0x8B82⟩ 5 2, []) ∧
  (decode [0x0105]).toOption = some (.trap ⟨0, 1, 0x0105⟩ 5, []) ∧
  (decode [0x1298]).toOption = some (.add ⟨0, 1, 0x1298⟩ 1 2 3, []) ∧
  (decode [0x2298]).toOption = some (.mul ⟨0, 1, 0x2298⟩ 1 2 3, []) ∧
  (decode [0xF801, 0x3004]).toOption = some (.call ⟨0, 2, 0x3004⟩ 4, []) ∧
  (decode [0x03A7]).toOption = some (.mfs ⟨0, 1, 0x03A7⟩ 5 .tepc, []) ∧
  (decode [0x62B1]).toOption = some (.ldd ⟨0, 1, 0x62B1⟩ 1 2 1, []) ∧
  (decode [0x72A3]).toOption = some (.stw ⟨0, 1, 0x72A3⟩ 1 2 3, []) ∧
  (decode [0xF001, 0x5A03]).toOption = some (.li ⟨0, 2, 0x5A03⟩ 5 0x203, []) ∧
  (decode [0xF500, 0xF008, 0x68B0]).toOption = some (.ldd ⟨0, 3, 0x68B0⟩ 20 2 128, []) ∧
  (decode [0xFDC0, 0xF801, 0xF410, 0x986C]).toOption = some (.bne ⟨0x1C0, 4, 0x986C⟩ 4 9 (-20), []) ∧
  (decode [0xF803, 0xF480, 0x2179]).toOption = some (.hidx ⟨0, 3, 0x2179⟩ 8 5 7, []) ∧
  (decode [0xF817, 0xF402, 0xCAC8]).toOption = some (.vext ⟨0, 3, 0xCAC8⟩ .i8 5 3 9, []) ∧
  (decode [0xF817, 0xF402, 0xCAC9]).toOption = none

/-- R38, R60: where the next move is a cycle in which a thread issues, and the halfwords at its PC decode to an instruction, the
step is that instruction's meaning in the state after the fetch, with its gang marked as having issued (R359);
where the next move is a hardware event, the step is
that event's meaning. -/
def Obligations.StepRunsDecoded : Prop :=
  (∀ (s r s' : State) (n : Nat) (hs : List Half) (i : Instr), fetching s = some r → n ≤ 6 →
    fetched r r.cur.1 r.cur.2 (r.thread r.cur.1 r.cur.2).pc n = some (hs, s') → decode hs = .ok (i, []) →
    step s = exec i (begun_ s' r.cur.1)) ∧
  (∀ (s : State) (e : Instr), s.nextMove.1 = .event e → State.isEvent e = true → step s = exec e s.nextMove.2)

/-- R93, R94: in fretted mode the owner of the cycle's slot issues where it can, and no other thread ever; in fretless mode the slot then goes
to the next thread, the one after it and the third, in that order, and to none where none can issue. Which running threads are ready in a
cycle the move names (log 2). -/
def Obligations.SlotOrder : Prop :=
  ∀ (s : State) (a : Nat) (ready : BitVec 4),
    let o := (s.cyc a).toNat % 4
    let can (th : Nat) : Bool := s.inRotation a th && (ready.getLsbD th || (s.thread a th).park.isSome)
    (s.fretless a = false → s.slotThread a ready = if can o then some o else none) ∧
    (s.fretless a = true → s.slotThread a ready =
      if can o then some o else if can ((o + 1) % 4) then some ((o + 1) % 4) else if can ((o + 2) % 4) then some ((o + 2) % 4)
      else if can ((o + 3) % 4) then some ((o + 3) % 4) else none) ∧
    (∀ th p, (s.thread a th).park = some p → (∀ r d, p ≠ .operands r d) → (∀ w, p = .rearmed w → w.kind ≠ 3) → can th = false)

/-- R38: halfwords at the PC that make no instruction trap with cause 0x01 and the offending halfword. -/
def Obligations.StepIllegal : Prop :=
  ∀ (s r s' : State) (n : Nat) (hs : List Half) (e : DecodeError), fetching s = some r → n < 6 →
    fetched r r.cur.1 r.cur.2 (r.thread r.cur.1 r.cur.2).pc (n + 1) = some (hs, s') →
    decode (hs.take n) = .error .truncated → decode hs = .error e → e ≠ .truncated →
    step s = .next ((begun_ s' r.cur.1).trapHere 0x01 ((hs.getLastD 0).setWidth 64))

/-- No instruction and no event is refused. R10 gives the size of the rim memory; that the machine stops at an access beyond it, and nowhere
else, is the model's choice (log 23). -/
def Obligations.StopsOnlyAtHole : Prop :=
  ∀ (i : Instr) (s : State), (∀ r, exec i s ≠ .refused r) ∧ (∀ f, exec i s = .fault f → ∃ pa, f = .physicalHole pa ∧ rimBytes ≤ pa)

/-- R378 to R380: no instruction issued in user mode changes the trap vector or the scratch register of any live thread. -/
def Obligations.UserModeKeepsHandlers : Prop :=
  ∀ (i : Instr) (s t : State), i.enc.isSome = true → s.me.tst.getLsbD 0 = false → exec i s = .next t →
    ∀ a th, th < 4 → (s.thread a th).live = true →
      (t.thread a th).tvec = (s.thread a th).tvec ∧ (t.thread a th).tscratch = (s.thread a th).tscratch

namespace Sys2Proof.Claims

open Sys2Proof.Machine

/-! ### What an instruction leaves unchanged -/

/-- What an instruction adds to the pushes on their way: at most one, through one of its destinations. It reaches the queue in the cycle
that R96 gives, so that no byte of a slot changes at the issue. -/
def pushesOnly (s t : State) (dests : List OpRef) : Prop :=
  let o := (s.tile s.cur.1).pushes
  let n := (t.tile s.cur.1).pushes
  n = o ∨ ∃ p r, n = o ++ [p] ∧ p.thread = s.cur.2 ∧ (OpRef.g r ∈ dests ∨ OpRef.v r ∈ dests) ∧ pushTo r = some p.to_

/-- Bytes `n` from a key on. -/
def at_ (key n k : Nat) : Prop := key ≤ k ∧ k < key + n

/-- Every byte of memory outside the stored ones reads as before. -/
def keepsBytes (s t : State) (stores : Nat → Prop) : Prop := ∀ k, ¬ stores k → Mem.read t.mem k = Mem.read s.mem k

/-- General, vector and predicate registers but the named ones. -/
def keepsRegs (dests : List OpRef) (qs : List Nat) (t u : Thread) : Prop :=
  (∀ n : RegNum, n.toNat < 32 → (OpRef.g n ∈ dests ∨ vget u.g n.toNat 0 = vget t.g n.toNat 0)) ∧
  (∀ n : RegNum, n.toNat < 32 → (OpRef.v n ∈ dests ∨ vget u.v n.toNat 0 = vget t.v n.toNat 0)) ∧
  (∀ n, n < 8 → (n ∈ qs ∨ vget u.q n 0 = vget t.q n 0))

/-- The thread control registers of R380 and what an exception saves. -/
def keepsControls (t u : Thread) : Prop :=
  u.tst = t.tst ∧ u.fctl = t.fctl ∧ u.fst = t.fst ∧ u.srkey = t.srkey ∧ u.srcnt = t.srcnt ∧ u.tcause = t.tcause ∧ u.tepc = t.tepc ∧
  u.tval = t.tval ∧ u.tvec = t.tvec ∧ u.tscratch = t.tscratch

/-- The rest of a thread's record that no operand is: its life, exclusion flag, reservation, seed count and pending traps. -/
def keepsRest (t u : Thread) : Prop :=
  u.live = t.live ∧ u.cx = t.cx ∧ u.sync = t.sync ∧ u.seedSeq = t.seedSeq ∧ u.mprogAddr = t.mprogAddr ∧ u.spec = t.spec ∧
  u.cancelPending = t.cancelPending ∧ u.dogPending = t.dogPending

/-- Every other thread of the machine, but for a rollback that a store to a watched doubleword sends it (R231). -/
def keepsOthers (s t : State) : Prop :=
  ∀ b u, u < 4 → (b, u) ≠ s.cur → { t.thread b u with rollback := (s.thread b u).rollback } = s.thread b u

/-- The issuing tile but for its threads, its digest and the queues that operands name, and every other tile whole. -/
def keepsTiles (s t : State) (reads dests : List OpRef) : Prop :=
  let a := s.cur.1
  let o := s.tile a
  let n := t.tile a
  { n with threads := o.threads, schange := o.schange, inbox := o.inbox, ln := o.ln, lp := o.lp, streams := o.streams, pushes := o.pushes,
           digest := o.digest } = o ∧
  (∀ k : Nat, k < 8 → (OpRef.g (BitVec.ofNat 6 (32 + k)) ∈ dests ∨ n.schange.filter (fun c => c.reg == k) = o.schange.filter fun c => c.reg == k)) ∧
  (OpRef.g 44 ∈ reads ∨ n.inbox = o.inbox) ∧ (OpRef.g 40 ∈ reads ∨ OpRef.g 42 ∈ reads ∨ n.ln = o.ln) ∧
  (OpRef.g 41 ∈ reads ∨ OpRef.g 43 ∈ reads ∨ n.lp = o.lp) ∧
  (∀ r : RegNum, isHandle r = true → (OpRef.g r ∈ reads ∨ OpRef.v r ∈ reads ∨ vget n.streams (handleNo r) {} = vget o.streams (handleNo r) {})) ∧
  pushesOnly s t dests ∧
  (∀ b, b ≠ a → { t.tile b with threads := (s.tile b).threads } = s.tile b)

/-- What lies outside the tiles and memory. -/
def keepsMachine (s t : State) : Prop :=
  t.cur = s.cur ∧ t.sites = s.sites ∧ t.grids = s.grids ∧ t.gangs = s.gangs ∧ t.net = s.net ∧ t.holders = s.holders ∧ t.orders = s.orders ∧
  t.records = s.records ∧ t.audits = s.audits ∧ t.booted = s.booted

/-- The frame of an instruction that works on operands alone, with the bytes that it stores beside those of its destinations. -/
def frame (s t : State) (reads dests : List OpRef) (qs : List Nat) (stores : Nat → Prop) : Prop :=
  keepsRegs dests qs s.me t.me ∧ keepsOthers s t ∧ keepsTiles s t reads dests ∧ keepsMachine s t ∧ keepsBytes s t stores

/-- The frame of an instruction that acts on queues, counters or units of its tile: every register of every thread but its own
destinations and the threads that `but` names, and every byte of memory but those of `stores`. -/
def quiet (s t : State) (dests : List OpRef) (stores : Nat → Prop := fun _ => False) (but : Nat → Nat → Prop := fun _ _ => False) : Prop :=
  keepsRegs dests [] s.me t.me ∧ keepsControls s.me t.me ∧
  (∀ b u, u < 4 → (b, u) ≠ s.cur → ¬ but b u → keepsRegs [] [] (s.thread b u) (t.thread b u) ∧ keepsControls (s.thread b u) (t.thread b u)) ∧
  keepsBytes s t stores

/-- Where a store of the issuing thread at a key leaves its bytes: there, or for a cruise re-run outside its own pads in the page of its overlay
(R368). -/
def storedAt (s t : State) (key n k : Nat) : Prop :=
  if s.shadows s.cur.1 key = true then ∃ j, at_ key n j ∧ State.overlayHome (t.overlayOf s.cur.1) j = some k else at_ key n k

/-- No bank has a holder, a waiting request or a watch, nothing waits for a pad that is away, and no thread waits in a TSTOP: what an
instruction frees goes to nobody. -/
def banksIdle (s : State) : Prop :=
  s.holders = [] ∧ s.resv = [] ∧ s.rejected = [] ∧ s.fe = [] ∧ s.watches = [] ∧ s.away = [] ∧
  ∀ b u n x, u < 4 → (s.thread b u).park ≠ some (.tstop n x)

/-- The scalar instructions, the constants, the jumps and the reads of control values: rules, chain, sources, destinations. -/
def scalarForm (i : Instr) : Option (Op.Rules × Chain × List OpRef × List OpRef) :=
  match scalar3 i with
  | some (c, x, y, z, _, _) => some ({}, c, [.g y, .g z], [.g x])
  | none => match scalar2 i with
    | some (c, x, y, _) => some ({}, c, [.g y], [.g x])
    | none => match counting i with
      | some (c, x, y, _) => some ({}, c, [.g y], [.g x])
      | none => match branchG i with
        | some (c, x, y, _, _) => some ({}, c, .g x :: (y.map OpRef.g).toList, [])
        | none => match i with
          | .sel c x y z => some ({ guarded := false }, c, [.g y, .g z], [.g x])
          | .li c x _ | .addpc c x _ => some ({}, c, [], [.g x])
          | .hxy c x y z | .hidx c x y z => some ({}, c, [.g y, .g z], [.g x])
          | .bq c _ _ | .bnq c _ _ | .j c _ => some ({}, c, [], [])
          | .call c _ => some ({}, c, [], [.g 1])
          | .jr c x => some ({}, c, [.g x], [])
          | .callr c x => some ({}, c, [.g x], [.g 1])
          | .ret c => some ({}, c, [.g 1], [])
          | .loop c x _ => some ({}, c, [.g x], [])
          | .mfs c x r => some ({ compute := State.computeOnly r, privileged := State.sysPrivileged r false }, c, [], [.g x])
          | .crd c x _ | .crdig c x _ | .sqry c x _ => some ({ held := true }, c, [], [.g x])
          | _ => none

/-- A jump to an address that an instruction may stand at, and a loop with an end behind it and an entry free (R121, R125). -/
def straight (i : Instr) (s : State) : Prop :=
  match i with
  | .jr _ x | .callr _ x => (s.src x).1.getLsbD 0 = false
  | .ret _ => (s.src 1).1.getLsbD 0 = false
  | .loop c x o => (s.after c).toNat < (target s o).toNat ∧ ((s.src x).1 = 0 ∨ s.me.loop1.valid = false)
  | _ => True

/-- The vector instructions: type, chain, sources, destinations and the predicate register written. -/
def vectorForm (i : Instr) : Option (VTy × Chain × List OpRef × List OpRef × List Nat) :=
  match vectorOf i with
  | some (c, t, x, y, z, _) => some (t, c, [.v y, .v z], [.v x], [])
  | none => match laneMoveOf i with
    | some (c, t, x, y, z, _) => some (t, c, [.v y, .v z], [.v x], [])
    | none => match compareOf i with
      | some (c, t, q, y, z, _) => some (t, c, [.v y, .v z], [], [q.toNat])
      | none => match i with
        | .vfma c t x y z | .vaddmin c t x y z => some (t, c, [.v y, .v z, .v x], [.v x], [])
        | .vsqrt c t x y | .vredadd c t x y | .vcvt c t x y _ | .vcvtq c t x y _ | .vsfu c t x y _ => some (t, c, [.v y], [.v x], [])
        | .vsel c t x y z => some (t, c, [.v y, .v z], [.v x], [])
        | .vbcst c t x y => some (t, c, [.g y], [.v x], [])
        | .vext c t x y _ => some (t, c, [.v y], [.g x], [])
        | .vins c t x y _ => some (t, c, [.g y, .v x], [.v x], [])
        | .vpeg c x y z => some (.i32, c, [.v y, .g z], [.v x], [])
        | _ => none

/-- The instructions of messages, counters, triggers and barriers, and their destinations. -/
def messageForm : Instr → Option (List OpRef)
  | .put .. | .putv .. | .get .. | .send .. | .cinc .. | .cset .. | .post .. | .arm .. | .disarm .. => some []
  | .bar .. | .bars .. | .barcfg .. => some []
  | .barr _ x _ _ | .barq _ x _ => some [.g x]
  | _ => none

/-- The instructions of the matrix unit, the streams, the copy engine and the event queue, and their destinations. -/
def engineForm : Instr → Option (List OpRef)
  | .mtcfg .. | .mld .. | .mst .. | .mldl .. | .mpass .. | .mrda .. | .mwra .. | .mscl .. | .mma .. => some []
  | .mfcfg _ x _ => some [.g x]
  | .scfg .. | .sadv .. | .sclr .. | .cjoin .. => some []
  | .cpy _ x _ | .cpyg _ x _ | .cpys _ x _ | .cpyz _ x _ => some [.g x]
  | .evpop _ x | .evwait _ x => some [.g x, .g (x + 1)]
  | _ => none

/-- The instructions of hints, gangs and grids, and their destinations. -/
def gangForm : Instr → Option (List OpRef)
  | .nop .. | .align .. | .pref .. | .sleep .. | .cron .. | .croff .. => some []
  | .vote _ x | .launch _ x | .cancel _ x | .gwait _ x => some [.g x]
  | .gqry _ x _ | .crstat _ x _ => some [.g x]
  | _ => none

/-- The control registers of a thread that MTS writes (R380). -/
def threadRegs : List SysReg := [.tst, .fctl, .fst, .srkey, .srcnt, .tcause, .tepc, .tval, .tvec, .tscratch]

end Sys2Proof.Claims

/-- The frame of the scalar instructions, constants, branches, jumps, LOOP, MFS, CRD, CRDIG and SQRY where they complete: no register but
the destination, no control register, no other thread, no other tile, no queue that no operand names and no byte of memory changes: a
push to a stream handle is on its way and reaches its slot later (R96, R313). LDEPTH and the loop entries follow R121 to R127 and are not stated. -/
def Obligations.ScalarFrame : Prop :=
  ∀ (i : Instr) (r : Op.Rules) (c : Chain) (reads dests : List OpRef) (s t : State),
    scalarForm i = some (r, c, reads, dests) → s.admits r c = true → s.atHand reads dests = true → straight i s → exec i s = .next t →
    frame s t reads dests [] (fun _ => False) ∧ keepsControls s.me t.me ∧ keepsRest s.me t.me ∧
    (t.tile s.cur.1).digest = (s.tile s.cur.1).digest ∧ t.full = s.full

/-- The frame of the vector instructions: as that of the scalar ones, but that FST only gains flags and that SRCNT steps by one where
the rounding code is 6; integer types leave FST and SRCNT
alone (R75, R82, R270). -/
def Obligations.VectorFrame : Prop :=
  ∀ (i : Instr) (ty : VTy) (c : Chain) (reads dests : List OpRef) (qs : List Nat) (s t : State),
    vectorForm i = some (ty, c, reads, dests, qs) → s.admits byLane c = true → s.atHand reads dests = true → exec i s = .next t →
    frame s t reads dests qs (fun _ => False) ∧ keepsControls s.me { t.me with fst := s.me.fst, srcnt := s.me.srcnt } ∧ keepsRest s.me t.me ∧
    t.me.fst &&& s.me.fst = s.me.fst ∧ (t.me.srcnt = s.me.srcnt ∨ (s.roundCode c = 6 ∧ t.me.srcnt = s.me.srcnt + 1)) ∧
    ((∀ c' t' x y src, i ≠ .vcvt c' t' x y src) → (∀ c' t' x y q, i ≠ .vcvtq c' t' x y q) → ty.isFloat = false →
      t.me.fst = s.me.fst ∧ t.me.srcnt = s.me.srcnt) ∧
    (t.tile s.cur.1).digest = (s.tile s.cur.1).digest ∧ t.full = s.full

/-- The frame of the plain and full/empty accesses of R164 and R165. A load changes no byte of memory and no register but the destination;
full/empty bits change in the words that LDFE and LDFED empty alone. The bytes that a store writes stand at the address that the base and the
offset give, or in a cruise re-run's overlay (R368); every other byte and every register keeps its value; a full/empty store sets the full
bits of its words alone. VLD and VST, of both their doublewords or of the first where the move sets them apart, and a relaxed access at its
issue, leave the same unchanged. -/
def Obligations.AccessFrame : Prop :=
  (∀ (i : Instr) (c : Chain) (x y : RegNum) (o : Word) (n : Nat) (signed : Bool) (s t : State) (key : Nat),
    loadOf i = some (c, x, y, o, n, signed) → s.admits {} c = true → s.atHand [.g y] [.g x] = true → plainly s c = true →
    let u := (s.src y).2
    let addr := (s.src y).1 + o * BitVec.ofNat 64 n
    addressed u addr n Use.load = true → goesTo u addr Use.load key = true → u.poisonedAs s.cur.1 key n = false → exec i s = .next t →
    frame s t [.g y] [.g x] [] (fun _ => False) ∧ keepsControls s.me t.me ∧ keepsRest s.me t.me ∧ t.full = s.full) ∧
  (∀ (i : Instr) (c : Chain) (x y : RegNum) (o : Word) (n : Nat) (clear : Bool) (s t : State) (key : Nat),
    feLoadOf i = some (c, x, y, o, n, clear) → s.admits settled c = true → s.atHand [.g y] [.g x] = true →
    let u := (s.src y).2
    let addr := (s.src y).1 + o * BitVec.ofNat 64 n
    let use : Use := { read := true, write := clear, fe := true, plain := false }
    addressed u addr n use = true → goesTo u addr use key = true → noFe u key = true → wordsAre u key n true = true →
    u.poisonedAs s.cur.1 key n = false → u.shadows s.cur.1 key = false → exec i s = .next t →
    frame s t [.g y] [.g x] [] (fun _ => False) ∧ keepsControls s.me t.me ∧ keepsRest s.me t.me ∧
    (∀ w, w ≠ key → (w ≠ key + 4 ∨ n = 4) → t.isFull w = s.isFull w) ∧ (clear = false → t.full = s.full)) ∧
  (∀ (i : Instr) (c : Chain) (x y : RegNum) (o : Word) (n : Nat) (s t : State) (key : Nat),
    storeOf i = some (c, x, y, o, n) → s.admits {} c = true → s.atHand [.g y, .g x] [] = true → plainly s c = true →
    let u := ((s.src y).2.src x).2
    let addr := (s.src y).1 + o * BitVec.ofNat 64 n
    addressed u addr n Use.store = true → goesTo u addr Use.store key = true → exec i s = .next t →
    frame s t [.g y, .g x] [] [] (storedAt s t key n) ∧ keepsControls s.me t.me ∧ keepsRest s.me t.me ∧ t.full = s.full) ∧
  (∀ (i : Instr) (c : Chain) (x y : RegNum) (o : Word) (n : Nat) (waits : Bool) (s t : State) (key : Nat),
    feStoreOf i = some (c, x, y, o, n, waits) → s.admits settled c = true → s.atHand [.g y, .g x] [] = true →
    let u := ((s.src y).2.src x).2
    let addr := (s.src y).1 + o * BitVec.ofNat 64 n
    let use : Use := { write := true, fe := true, plain := false, parks := !waits, kind := .store }
    addressed u addr n use = true → goesTo u addr use key = true → noFe u key = true → (waits = true → wordsAre u key n false = true) →
    u.shadows s.cur.1 key = false → exec i s = .next t →
    frame s t [.g y, .g x] [] [] (at_ key n) ∧ keepsControls s.me t.me ∧ keepsRest s.me t.me ∧
    (∀ w, w ≠ key → (w ≠ key + 4 ∨ n = 4) → t.isFull w = s.isFull w)) ∧
  (∀ (c : Chain) (x y : RegNum) (o : Word) (s t : State) (k1 k2 : Nat), s.admits { compute := true } c = true → plainly s c = true →
    let addr := (s.src y).1 + o * 16
    (s.atHand [.g y] [.v x] = true →
      let u := (s.src y).2
      addressed u addr 16 Use.load = true → goesTo u addr Use.load k1 = true → u.poisonedAs s.cur.1 k1 8 = false →
      (s.split = false → goesTo (used u addr) (addr + 8) Use.load k2 = true ∧ u.poisonedAs s.cur.1 k2 8 = false) → exec (.vld c x y o) s = .next t →
      frame s t [.g y] [.v x] [] (fun _ => False) ∧ keepsControls s.me t.me ∧ keepsRest s.me t.me ∧ t.full = s.full) ∧
    (s.atHand [.g y, .v x] [] = true →
      let u := ((s.src y).2.srcV x).2
      let d := ((s.src y).2.srcV x).1
      let w := used (stored u addr k1 8 (d.toNat % 2 ^ 64)) addr
      addressed u addr 16 Use.store = true → goesTo u addr Use.store k1 = true → (s.split = false → goesTo w (addr + 8) Use.store k2 = true) →
      exec (.vst c x y o) s = .next t →
      frame s t [.g y, .v x] [] [] (fun k => storedAt s t k1 8 k ∨ (s.split = false ∧ storedAt s t k2 8 k)) ∧
        keepsControls s.me t.me ∧ keepsRest s.me t.me ∧ t.full = s.full)) ∧
  (∀ (i : Instr) (c : Chain) (x y : RegNum) (o : Word) (n : Nat) (signed : Bool) (s t : State), c.relaxed = true → s.me.spec = none → s.admits {} c = true →
    (loadOf i = some (c, x, y, o, n, signed) → s.atHand [.g y] [.g x] = true →
      addressed (s.src y).2 ((s.src y).1 + o * BitVec.ofNat 64 n) n { Use.load with relaxed := true } = true → exec i s = .next t →
      frame s t [.g y] [] [] (fun _ => False) ∧ keepsControls s.me t.me ∧ keepsRest s.me t.me ∧ t.full = s.full) ∧
    (storeOf i = some (c, x, y, o, n) → s.atHand [.g y, .g x] [] = true →
      addressed ((s.src y).2.src x).2 ((s.src y).1 + o * BitVec.ofNat 64 n) n { Use.store with relaxed := true } = true → exec i s = .next t →
      frame s t [.g y, .g x] [] [] (fun _ => False) ∧ keepsControls s.me t.me ∧ keepsRest s.me t.me ∧ t.full = s.full))

/-- The frame of the synchronisation instructions where nothing waits at their doubleword. The atomics change the operand's bytes and the
destination, AFADD and AFADDO gain flags in FST; LRW and LRO change the reservation of their thread; SCH and SCO change the doubleword that
they hand on, and where they report a status 1 or 2 none; WAITF changes nothing, CLRF the full bit of its word; OINIT the ticket of its
doubleword; TAKE empties its shared register; WAITC and the FENCEs change nothing. -/
def Obligations.SyncFrame : Prop :=
  (∀ (i : Instr) (c : Chain) (x y : RegNum) (n : Nat) (op : AtomOp) (pair : Bool) (s t : State) (key : Nat),
    atomicOf i = some (c, x, y, n, op, pair) → s.admits settled c = true →
    s.atHand (if pair then [.g y, .g x, .g (x + 1)] else [.g y, .g x]) [.g x] = true →
    let u1 := ((s.src y).2.src x).2
    let u := if pair then (u1.src (x + 1)).2 else u1
    let addr := (s.src y).1
    let v2 := if pair then (u1.src (x + 1)).1 else 0
    addressed u addr n Use.atomic = true → State.syncSpace (op == .faddo) addr = true → goesTo u addr Use.atomic key = true →
    bankFree u key = true → u.shadows s.cur.1 key = false → (op = .faddo → u.ticketOf key = some v2) → exec i s = .next t →
    keepsRegs [.g x] [] s.me t.me ∧ keepsControls s.me { t.me with fst := s.me.fst } ∧ t.me.fst &&& s.me.fst = s.me.fst ∧
    keepsRest s.me t.me ∧ keepsTiles s t (if pair then [.g y, .g x, .g (x + 1)] else [.g y, .g x]) [.g x] ∧
    (op ≠ .faddo → keepsOthers s t ∧ keepsMachine s t ∧ t.full = s.full) ∧
    keepsBytes s t (at_ key n)) ∧
  (∀ (i : Instr) (c : Chain) (x y : RegNum) (s t : State) (key : Nat), s.admits settled c = true → s.me.sync = {} →
    (i = .lrw c x y ∧ s.atHand [.g y] [.g x] = true) ∨ (i = .lro c x y ∧ s.atHand [.g y, .g x] [.g x] = true) →
    let u := if i = .lrw c x y then (s.src y).2 else ((s.src y).2.src x).2
    let addr := (s.src y).1
    addressed u addr 8 Use.atomic = true → State.syncSpace (i != .lrw c x y) addr = true → goesTo u addr Use.atomic key = true →
    bankFree u key = true → (i = .lro c x y → u.ticketOf key = some ((s.src y).2.src x).1) → exec i s = .next t →
    frame s { t with holders := s.holders } [.g y, .g x] [.g x] [] (fun _ => False) ∧ keepsControls s.me t.me ∧
      keepsRest s.me { t.me with sync := s.me.sync } ∧ t.full = s.full) ∧
  (∀ (i : Instr) (c : Chain) (x y : RegNum) (s t : State) (key : Nat), s.admits settled c = true → s.atHand [.g y, .g x] [.g x] = true →
    i = .sch c x y ∨ i = .sco c x y →
    let u := ((s.src y).2.src x).2
    let addr := (s.src y).1
    let own := s.me.sync.heldAddr = addr ∧ s.me.sync.heldKind = (if i = .sch c x y then 1 else 2) ∧ s.me.sync.revoked = false
    addressed u addr 8 Use.atomic = true → State.syncSpace (i == .sco c x y) addr = true → goesTo u addr Use.atomic key = true →
    u.shadows s.cur.1 key = false → u.resv = [] → u.rejected = [] → exec i s = .next t →
    frame s { t with holders := s.holders, orders := s.orders } [.g y, .g x] [.g x] [] (fun k => own ∧ at_ key 8 k) ∧ keepsControls s.me t.me ∧
      keepsRest s.me { t.me with sync := s.me.sync } ∧ t.full = s.full ∧
      (∀ d, d ≠ key / 8 * 8 → t.orders.filter (fun o => o.key == d) = s.orders.filter fun o => o.key == d)) ∧
  (∀ (c : Chain) (y : RegNum) (s t : State) (key : Nat), s.admits settled c = true → s.atHand [.g y] [] = true →
    let u := (s.src y).2
    let addr := (s.src y).1
    let read : Use := { read := true, fe := true, plain := false }
    let write : Use := { write := true, fe := true, plain := false, parks := true, kind := .store }
    noFe u key = true →
    (addressed u addr 4 read = true → goesTo u addr read key = true → u.isFull key = true → exec (.waitf c y) s = .next t →
      frame s t [.g y] [] [] (fun _ => False) ∧ keepsControls s.me t.me ∧ keepsRest s.me t.me ∧ t.full = s.full) ∧
    (addressed u addr 4 write = true → goesTo u addr write key = true → exec (.clrf c y) s = .next t →
      frame s t [.g y] [] [] (fun _ => False) ∧ keepsControls s.me t.me ∧ keepsRest s.me t.me ∧ (∀ w, w ≠ key → t.isFull w = s.isFull w))) ∧
  (∀ (c : Chain) (x y : RegNum) (s t : State) (key : Nat), s.admits settled c = true → s.atHand [.g y, .g x] [] = true →
    let u := ((s.src y).2.src x).2
    addressed u (s.src y).1 8 Use.atomic = true → State.syncSpace true (s.src y).1 = true → goesTo u (s.src y).1 Use.atomic key = true →
    u.oinitReady key ((s.src y).2.src x).1 = true → bankFree u key = true → exec (.oinit c x y) s = .next t →
    frame s { t with orders := s.orders } [.g y, .g x] [] [] (fun _ => False) ∧ keepsControls s.me t.me ∧ keepsRest s.me t.me ∧ t.full = s.full ∧
      t.orders.filter (fun o => o.key != key / 8 * 8) = s.orders.filter fun o => o.key != key / 8 * 8) ∧
  (∀ (c : Chain) (x y : RegNum) (s t : State), s.admits { held := true } c = true → s.atHand [.g y] [.g x] = true → isShared y = true →
    exec (.take c x y) s = .next t →
    frame s t [.g y] [.g x, .g y] [] (fun _ => False) ∧ keepsControls s.me t.me ∧ keepsRest s.me t.me ∧ t.full = s.full) ∧
  (∀ (i : Instr) (c : Chain) (k : BitVec 4) (y : RegNum) (s t : State), s.admits settled c = true →
    (i = .waitc c k y ∧ s.atHand [.g y] [] = true ∧ (s.src y).1.toNat % 2 ^ 32 ≤ (vget ((s.src y).2.tile s.cur.1).c k.toNat 0).toNat) ∨
    i = .fence c ∨ (i = .fenceG c ∧ s.fenceClear s.cur.1 s.cur.2 1 = true) ∨ (i = .fenceM c ∧ s.fenceClear s.cur.1 s.cur.2 2 = true) ∨
    (i = .fenceP c ∧ s.fenceClear s.cur.1 s.cur.2 3 = true) → exec i s = .next t →
    frame s t [.g y] [] [] (fun _ => False) ∧ keepsControls s.me t.me ∧ keepsRest s.me t.me ∧ t.full = s.full)

/-- The frame of PUT, PUTV, GET, SEND, CINC, CSET, POST, ARM, DISARM, BAR, BARS, BARR, BARCFG and BARQ where they complete at issue or hand
their request on: no register of any thread but the destination of BARR and BARQ, no control register and no byte of memory changes. -/
def Obligations.MessageFrame : Prop :=
  ∀ (i : Instr) (ds : List OpRef) (s t : State), messageForm i = some ds → (messageEffect i s).isSome ∨ (barrierEffect i s).isSome →
    exec i s = .next t → quiet s t ds

/-- The frame of the matrix, stream, copy and event instructions at issue: no register but the destinations and no byte of memory
changes; MZERO clears its accumulator's 256 bytes and changes no other (R301). -/
def Obligations.EngineFrame : Prop :=
  (∀ (i : Instr) (ds : List OpRef) (s t : State), engineForm i = some ds → (matrixEffect i s).isSome ∨ (engineEffect i s).isSome →
    exec i s = .next t → quiet s t ds) ∧
  (∀ (c : Chain) (acc : BitVec 2) (s t : State), (matrixEffect (.mzero c acc) s).isSome → exec (.mzero c acc) s = .next t →
    frame s t [] [] [] (at_ (tileKey s.cur.1 (0xA800 + 256 * acc.toNat)) 256) ∧ keepsControls s.me t.me)

/-- The frame of the hints and of the gang instructions VOTE, LAUNCH, CANCEL, GWAIT, GQRY, CRSTAT, CRON and CROFF: no register but the destination,
no control register and no byte of memory changes. SEED, in replay, changes its destination alone, and else also the record that it logs
and the log's TAIL register; SPAWN changes no register but its destination and those of the thread that it starts; HALT of a thread that holds
no reservation changes none. -/
def Obligations.GangFrame : Prop :=
  (∀ (i : Instr) (ds : List OpRef) (s t : State), gangForm i = some ds → (gangEffect i s).isSome ∨ (systemEffect i s).isSome →
    exec i s = .next t → quiet s t ds) ∧
  (∀ (c : Chain) (x : RegNum) (s t : State), (gangEffect (.seed c x) s).isSome → exec (.seed c x) s = .next t →
    quiet s t [.g x] fun k => s.seedMode s.cur.1 = .normal ∧
      (at_ (rimKey (s.mcrN 0x1000 8 + 32 * (s.mcrN 0x1018 8 % s.mcrN 0x1008 8))) 32 k ∨ at_ (mcrKey 0x1018) 8 k)) ∧
  (∀ (c : Chain) (x y : RegNum) (s t : State), (gangEffect (.spawn c x y) s).isSome → (s.src y).1.toNat % 4 ≠ s.cur.2 → exec (.spawn c x y) s = .next t →
    quiet s t [.g x] (fun _ => False) fun b u => b = s.cur.1 ∧ u = (s.src y).1.toNat % 4) ∧
  (∀ (c : Chain) (s t : State), (systemEffect (.halt c) s).isSome → s.me.sync.heldKey = none → exec (.halt c) s = .next t → quiet s t [])

/-- The frame of TRAP, BRK, ERET and MTS: taking a trap and returning change no general, vector or predicate register and no byte of memory, and
MTS of a thread register changes no other control register and nothing of any other thread. The frame of the tile-management instructions,
where their effect is stated and nothing waits at a bank: no register but the destination changes, for TLOAD outside the tile that it loads.
TSTOP changes the residency entry of the gang that it stops, TSAVE the pieces of its image, TLOAD the memory of its site and its power register,
TMAP, of a block that opens nothing and forwards nothing, the entry that it names, ZERO its range; TGO of a gang whose entry does not
say that it is resident and not being moved, TQUAR of a site without a stopped tile and TLBINV change no byte. -/
def Obligations.ControlFrame : Prop :=
  (∀ (i : Instr) (s t : State), (∃ c imm, i = .trap c imm ∨ i = .brk c imm) ∨ ((∃ c, i = .eret c) ∧ s.me.tcause.toNat % 256 ≠ 9) →
    (systemEffect i s).isSome → exec i s = .next t → keepsRegs [] [] s.me t.me ∧ keepsBytes s t (fun _ => False) ∧ keepsOthers s t) ∧
  (∀ (c : Chain) (x : RegNum) (r : SysReg) (s t : State), (systemEffect (.mts c x r) s).isSome → r ∈ threadRegs →
    (r = .tst → (s.src x).1.getLsbD 3 = false) → exec (.mts c x r) s = .next t →
    frame s t [.g x] [] [] (fun _ => False) ∧
    (∀ q ∈ threadRegs, q ≠ r → t.sysRead s.cur.1 s.cur.2 q = s.sysRead s.cur.1 s.cur.2 q)) ∧
  (∀ (c : Chain) (x y : RegNum) (s t : State), banksIdle s → s.hostPending = [] → s.podPending = [] →
    let a := s.cur.1
    let n := (s.src x).1.toNat
    let m := ((s.src y).2.src x).1.toNat
    let entry (v : Nat) (k : Nat) : Prop := ∃ g, s.grid? (s.tile v).handle = some g ∧ (s.tile v).mark = .original ∧
      at_ (rimKey (g.table + 32 * ((s.tile v).vtn.toNat / 2 ^ 16))) 32 k
    ((systemEffect (.tstop c x) s).isSome → exec (.tstop c x) s = .next t → quiet s t [.g x] (entry n)) ∧
    ((systemEffect (.tsave c x y) s).isSome → exec (.tsave c x y) s = .next t →
      quiet s t [.g x] fun k => ∃ l, ((s.src y).2.src x).2.segments (s.threadAsker a s.cur.2) (s.src y).1 State.imageSize
        { write := true, plain := false, kind := .store } = .ok l ∧ ∃ p ∈ l, at_ p.1 p.2 k) ∧
    ((systemEffect (.tload c x y) s).isSome → m ≠ a → exec (.tload c x y) s = .next t →
      quiet s t [.g x] (fun k => at_ (tileKey m 0) 65536 k ∨ k = mcrKey (0x60000 + m)) fun b _ => b = m) ∧
    ((systemEffect (.tgo c x) s).isSome → n ≠ a → (∀ g, s.grid? (s.tile n).handle = some g →
        s.readN (rimKey (g.table + 32 * ((s.tile n).vtn.toNat / 2 ^ 16))) 32 / 2 ^ 16 % 4 ≠ 1) → (s.tile n).mark = .original →
      exec (.tgo c x) s = .next t → quiet s t [.g x]) ∧
    (let key := tileKey a ((s.src y).1.toNat % 65536)
     (systemEffect (.tmap c x y) s).isSome → s.readN (key + 12) 1 % 4 = 1 → s.readN (key + 24) 8 / 2 ^ 16 % 4 ≠ 1 → exec (.tmap c x y) s = .next t →
      quiet s t [.g x] fun k => ∃ g, s.mapGrid a (s.read64 key) = some g ∧ at_ (rimKey (g.table + 32 * s.readN (key + 8) 4)) 32 k) ∧
    ((systemEffect (.tquar c x) s).isSome → s.siteState n ≠ .stopped → exec (.tquar c x) s = .next t → quiet s t [.g x]) ∧
    ((systemEffect (.zero c x y) s).isSome → exec (.zero c x y) s = .next t →
      quiet s t [.g x] (at_ (vaultKey (s.pbaseOf a) (((s.src y).2.src x).1.toNat % 2 ^ 36)) (s.src y).1.toNat)) ∧
    ((systemEffect (.tlbinv c x y) s).isSome → exec (.tlbinv c x y) s = .next t → quiet s t [.g x]))

namespace Sys2Proof.Claims

open Sys2Proof.Machine

/-! ### System registers, and the traps of operands -/

/-- What a thread register keeps of a word that MTS writes: SUP, PSUP and TEN; the rounding mode, where 0 stores 1, and SAT; the five flags;
the cause with EXT; a vector with bit 0 clear; all of SRKEY, SRCNT, TEPC, TVAL and TSCRATCH (R74, R75, R380, R381). -/
def keptOf (r : SysReg) (w : Word) : Word :=
  let v := w.toNat
  match r with
  | .tst => BitVec.ofNat 64 (v % 8)
  | .fctl => BitVec.ofNat 64 (if v % 8 = 0 then v % 16 + 1 else v % 16)
  | .fst => BitVec.ofNat 64 (v % 32)
  | .tcause => BitVec.ofNat 64 (v % 512)
  | .tvec => BitVec.ofNat 64 (v / 2 * 2)
  | _ => w

/-- What the registers that no MTS writes read: the address of the reading chain, the tile's numbers, the place of the tile and its partition
or the service core, the mode of the partition, and the cycles of the site (R380, R381, R388). -/
def fixedReg (s : State) (r : SysReg) : Option Word :=
  let a := s.cur.1
  match r with
  | .pc => some s.me.pc
  | .vtn => some (BitVec.ofNat 64 (if State.isCore a then 0xFFFFFFF0 + State.coreNo a else (s.tile a).vtn.toNat))
  | .gsize => some (BitVec.ofNat 64 (s.tile a).gsize.toNat)
  | .psite => some (BitVec.ofNat 64 (if State.isCore a then 2 ^ 48 + 0xFFFF * 2 ^ 32 + State.coreNo a * 2 ^ 49
      else a + s.pbaseOf a * 2 ^ 16 + (s.plenOf a - 1) * 2 ^ 32))
  | .tmode => some (if s.feature 1 ∧ s.mcrN (0x10000 + 512 * s.vdOf a) 1 / 2 % 2 = 1 then 1 else 0)
  | .cyc => some (s.site a).cyc
  | _ => none

/-- The rules of MFS and MTS (R76, R229, R380). -/
def mfsAt (r : SysReg) : Op.Rules := { compute := State.computeOnly r, privileged := State.sysPrivileged r false }
def mtsAt (r : SysReg) : Op.Rules := { compute := State.computeOnly r, privileged := State.sysPrivileged r true, held := true }

/-- The trap of an operand: a stream handle that is not valid gives 0x0C and the register number 48 + h (R313); on a tile, LN or LNF at the last
rank gives 0x03 and 40, LP or LPF at rank 0 gives 0x03 and 41 (R248). -/
def operandTrap (s : State) (o : OpRef) : Option (BitVec 8 × Word) :=
  let t := s.tile s.cur.1
  let handle (n : RegNum) : Option (BitVec 8 × Word) :=
    if isHandle n && !(vget t.streams (handleNo n) {}).valid then some (0x0C, BitVec.ofNat 64 (48 + handleNo n)) else none
  match o with
  | .v n => handle n
  | .g n =>
    if (n = 40 ∨ n = 42) ∧ t.gsize.toNat ≤ t.vtn.toNat % 65536 + 1 then some (0x03, 40)
    else if (n = 41 ∨ n = 43) ∧ t.vtn.toNat % 65536 = 0 then some (0x03, 41)
    else handle n

/-- An operand that names a stream handle. -/
def handleRef : OpRef → Bool
  | .g n | .v n => isHandle n

/-- A legal stream configuration (R312, R315): ESZ 0 to 4; COUNT 1 to 24,576; BASE and STRIDE multiples of the element size; the last
element inside the pad; bits 19 and 52 to 62 zero. -/
def cfgLegal (w : Word) : Bool :=
  let v := w.toNat
  let size := 2 ^ (v / 2 ^ 16 % 8)
  let base := v % 2 ^ 16
  let count := v / 2 ^ 20 % 2 ^ 16
  let stride := v / 2 ^ 36 % 2 ^ 16
  decide (v / 2 ^ 16 % 8 ≤ 4) && decide (1 ≤ count) && decide (count ≤ 24576) && base % size == 0 && stride % size == 0
    && decide (base + (count - 1) * stride + size ≤ 0x6000) && v / 2 ^ 19 % 2 == 0 && v / 2 ^ 52 % 2 ^ 11 == 0

/-- A remote-pad address of a tile of the grid, as order 1 of R137 has it (R142). -/
def remoteOk (s : State) (w : Word) : Bool := w.toNat / 2 ^ 60 == 1 && order1 s s.cur.1 s.cur.2 w 8 { read := true, plain := false }

/-- A number of a tile of the grid, its upper half zero (R240 order 3, R142). -/
def tileOk (s : State) (w : Word) : Bool := !State.isCore s.cur.1 && (s.grid? (s.tile s.cur.1).handle).any fun g =>
  decide (w.toNat / 2 ^ 16 < g.desc.gcnt) && decide (w.toNat % 2 ^ 16 < g.desc.gsz)

/-- The first of a list of conditions that holds, with its cause and value. -/
def firstOf : List (Bool × BitVec 8 × Word) → Option (BitVec 8 × Word)
  | [] => none
  | (b, f) :: t => if b then some f else firstOf t

/-- The message faults at issue in the order of the table of R240, of the sources Y and X. -/
def messageFault (i : Instr) (s : State) (y x : Word) : Option (BitVec 8 × Word) :=
  let off (w : Word) (n : Nat) : Bool := w.toNat % n != 0
  match i with
  | .put .. => firstOf [(!remoteOk s y, 0x03, y), (off y 8, 0x04, y)]
  | .putv .. => firstOf [(!remoteOk s y, 0x03, y), (off y 16, 0x04, y)]
  | .get .. => firstOf [(!remoteOk s y, 0x03, y), (decide (0x6000 ≤ x.toNat), 0x03, x), (off y 8, 0x04, y), (off x 8, 0x04, x)]
  | .send .. | .cinc .. => firstOf [(!tileOk s y, 0x03, y)]
  | .post .. => firstOf [(decide (0x6000 < x.toNat + 32), 0x03, x), (off x 32, 0x04, x), (y.toNat / 2 ^ 60 != 4, 0x03, y), (off y 64, 0x04, y)]
  | .arm .. =>
    let k := x.toNat / 2 ^ 40 % 8
    let key := tileKey s.cur.1 (y.toNat % 65536)
    let d1 := s.read64 key
    let d2 := s.read64 (key + 8)
    let named := k == 2 && !d2.getLsbD 63
    firstOf [(decide (0x6000 < y.toNat + 24), 0x03, y), (off y 8, 0x04, y),
      (k == 0 && !remoteOk s d1, 0x03, d1), (k == 0 && off d1 16, 0x04, d1),
      ((k == 1 || k == 2) && d1.toNat / 2 ^ 60 != 4, 0x03, d1), (k == 1 && off d1 64, 0x04, d1), (k == 2 && off d1 128, 0x04, d1),
      (named && decide (0x6000 < d2.toNat + 8), 0x03, d2), (named && off d2 8, 0x04, d2)]
  | _ => none

/-- The message instructions with X and Y as general sources: chain, rules, Y, X. A CINC of Y = 0 names no tile. -/
def messageSources : Instr → Option (Chain × RegNum × OpRef)
  | .put c x y _ | .get c x y _ | .send c x y | .post c x y | .arm c _ x y => some (c, y, .g x)
  | .cinc c _ x y => if y = 0 then none else some (c, y, .g x)
  | .putv c x y _ => some (c, y, .v x)
  | _ => none

/-- A stream push of the issuing thread is on its way. -/
def pushing (s : State) : Bool := (s.tile s.cur.1).pushes.any fun p => p.thread == s.cur.2 && match p.to_ with
  | .stream _ => true
  | .link _ => false

end Sys2Proof.Claims

/-- R74 to R76, R380, R381: a thread register that MTS has written reads as what it keeps of the word, from the same thread's next
instruction on; the registers that no MTS writes read as fixedReg gives them, and no word encodes their MTS. CLKDIV and ECCNT keep their
value until the third cycle after an MTS and then have the new one, for every thread of the tile; AGE reads below 2^32, and all ones
until the first microsecond has passed. A CLKDIV above 3 is an illegal instruction. -/
def Obligations.SystemRegisters : Prop :=
  (∀ (c c' : Chain) (x z : RegNum) (r : SysReg) (s : State), r ∈ threadRegs → s.admits (mtsAt r) c = true → s.atHand [.g x] [] = true →
    (r = .tst → (s.src x).1.getLsbD 3 = false) →
    ∃ t, exec (.mts c x r) s = .next t ∧ t.cur = s.cur ∧ (t.admits (mfsAt r) c' = true → t.atHand [] [.g z] = true →
      exec (.mfs c' z r) t = .next ((t.dst z (keptOf r (s.src x).1)).fell c'))) ∧
  (∀ (c : Chain) (x : RegNum) (r : SysReg) (v : Word) (s : State), fixedReg s r = some v → s.admits (mfsAt r) c = true → s.atHand [] [.g x] = true →
    exec (.mfs c x r) s = .next ((s.dst x v).fell c)) ∧
  (∀ x < 8, ∀ k ∈ [0, 16, 17, 18, 19, 22, 23], (decode [BitVec.ofNat 16 (0x0400 + 32 * x + k)]).toOption = none) ∧
  (∀ (c : Chain) (x : RegNum) (r : SysReg) (s : State), r = .clkdiv ∨ r = .eccnt → s.admits (mtsAt r) c = true → s.atHand [.g x] [] = true →
    let w := (s.src x).1.toNat
    let a := s.cur.1
    (r = .clkdiv → w % 8 < 4 ∧ s.clockHeld a (w % 8) = false) → (s.site a).later = [] →
    ∃ t, exec (.mts c x r) s = .next t ∧ ∀ k th : Nat, (s.cyc a).toNat + k + 3 < 2 ^ 64 → th < 4 →
      (t.modSite a fun z => { z with cyc := z.cyc + BitVec.ofNat 64 k }).sysRead a th r =
        if k < 3 then s.sysRead a th r else BitVec.ofNat 64 (if r = .clkdiv then w % 8 else w % 2 ^ 48)) ∧
  (∀ (c : Chain) (x : RegNum) (s : State), s.admits (mtsAt .clkdiv) c = true → s.atHand [.g x] [] = true → 4 ≤ (s.src x).1.toNat % 8 →
    exec (.mts c x .clkdiv) s = .next (s.trapHere 0x01 (c.word.setWidth 64))) ∧
  (∀ (s : State) (a th : Nat), (s.sysRead a th .age).toNat < 2 ^ 32 ∧ (s.time = 0 → s.sysRead a th .age = 0xFFFFFFFF))

/-- R122, R125, R240, R248, R313, R315, R316, R325: the traps of operands, each with its cause and value. A jump through a register to an odd
address takes 0x04; a LOOP whose end does not lie behind it, or with both entries in use, 0x01 and its base word; a message instruction the
first fault of the table of R240, once an outbound entry is free; an instruction that names a handle that is not valid, or the end of a
chain, that of the first such operand in field order; SCFG of a word that is no configuration and SADV of a word out of range 0x0C; CJOIN of a
command that has faulted 0x0D with the faulting address, and its slot is free; one of a command in flight waits. -/
def Obligations.OperandTraps : Prop :=
  (∀ (c : Chain) (x : RegNum) (s : State), s.admits {} c = true →
    (s.atHand [.g x] [] = true → (s.src x).1.getLsbD 0 = true → exec (.jr c x) s = .next (s.trapHere 0x04 (s.src x).1)) ∧
    (s.atHand [.g x] [.g 1] = true → (s.src x).1.getLsbD 0 = true → exec (.callr c x) s = .next (s.trapHere 0x04 (s.src x).1)) ∧
    (s.atHand [.g 1] [] = true → (s.src 1).1.getLsbD 0 = true → exec (.ret c) s = .next (s.trapHere 0x04 (s.src 1).1)) ∧
    (∀ o : Word, s.atHand [.g x] [] = true → ((target s o).toNat ≤ (s.after c).toNat ∨ ((s.src x).1 ≠ 0 ∧ s.me.loop1.valid = true)) →
      exec (.loop c x o) s = .next (s.trapHere 0x01 (c.word.setWidth 64)))) ∧
  (∀ (i : Instr) (c : Chain) (y : RegNum) (x : OpRef) (s : State) (f : BitVec 8 × Word), messageSources i = some (c, y, x) →
    s.admits { held := true, drained := true, compute := match x with | .v _ => true | .g _ => false } c = true → s.atHand [.g y, x] [] = true →
    ((s.tile s.cur.1).outb.length < 16 ∨ ∃ z n m, i = .arm c z n m) →
    let v := match x with
      | .g n => ((s.src y).2.src n).1
      | .v _ => 0
    messageFault i s (s.src y).1 v = some f → exec i s = .next (s.trapHere f.1 f.2)) ∧
  (∀ (i : Instr) (r : Op.Rules) (c : Chain) (reads dests pre post : List OpRef) (o : OpRef) (s : State) (f : BitVec 8 × Word),
    scalarForm i = some (r, c, reads, dests) ∨ (∃ ty qs, vectorForm i = some (ty, c, reads, dests, qs) ∧ r = byLane) →
    s.admits r c = true → s.me.held = [] → s.me.popped = [] → s.me.spec = none → State.isCore s.cur.1 = false →
    reads ++ dests = pre ++ o :: post → (∀ p ∈ pre, operandTrap s p = none ∧ handleRef p = false) → operandTrap s o = some f →
    exec i s = .next (s.trapHere f.1 f.2)) ∧
  (∀ (c : Chain) (h : BitVec 3) (y : RegNum) (s : State), s.atHand [.g y] [] = true →
    let v := (s.src y).1
    let st := handleOf (s.src y).2 h
    (s.admits engineAt c = true → (handleOf s h).pcl = false → (handleOf s h).ccl = false → cfgLegal v = false →
      exec (.scfg c h y) s = .next (s.trapHere 0x0C v)) ∧
    (s.admits { held := true, drained := true } c = true → pushing s = false →
      (st.valid = false → exec (.sadv c h y) s = .next (s.trapHere 0x0C (BitVec.ofNat 64 (48 + h.toNat)))) ∧
      (st.valid = true → (v.toNat / 2 ^ 32 % 2 ^ 31 ≠ 0 ∨ st.cfg.toNat / 2 ^ 20 % 2 ^ 16 < v.toNat % 2 ^ 32) →
        exec (.sadv c h y) s = .next (s.trapHere 0x0C v)))) ∧
  (∀ (c : Chain) (x : RegNum) (s : State) (slot : Nat) (k : CopyCmd), s.admits engineAt c = true → s.atHand [.g x] [] = true → slot < 4 →
    let u := (s.src x).2
    let n := (s.src x).1.toNat % 2 ^ 32
    vget (s.tile s.cur.1).copies slot none = some k → k.number.toNat = n →
    (∀ j < slot, ∀ k', vget (s.tile s.cur.1).copies j none = some k' → k'.number.toNat ≠ n) →
    (k.phase = .faulted → exec (.cjoin c x) s =
      .next ((u.modTile s.cur.1 fun t => { t with copies := vset t.copies slot none }).trapHere 0x0D k.faultAddr)) ∧
    (k.phase ≠ .faulted → exec (.cjoin c x) s = .next (kept u c (.cjoin (BitVec.ofNat 64 n)))))

namespace Sys2Proof.Claims

open Sys2Proof.Machine

/-! ### Speculation, and the later conditions of an access -/

/-- The name under which a speculation buffer holds an address: a pad of the grid that is the tile's own is named as local (R138, R227). -/
def ownName (s : State) (addr : Word) : Word :=
  if addr.toNat / 2 ^ 60 = 1 ∧ addr.toNat / 2 ^ 16 % 2 ^ 32 = (s.tile s.cur.1).vtn.toNat then BitVec.ofNat 64 (addr.toNat % 2 ^ 16) else addr

/-- The entry of a speculation buffer for the doubleword of an address. -/
def entryAt (l : List BufEntry) (addr : Word) : Option BufEntry := l.find? fun e => e.addr == BitVec.ofNat 64 (addr.toNat / 8 * 8)

/-- The byte that a speculation buffer holds at an address (R227). -/
def bufByte (l : List BufEntry) (addr : Word) : Option Nat :=
  match entryAt l addr with
  | some e => if e.mask.getLsbD (addr.toNat % 8) then some (e.data.toNat / 256 ^ (addr.toNat % 8) % 256) else none
  | none => none

/-- The bytes of an access, each the buffered one where there is one, else that of the memory's number `v` (R228). -/
def mergedBytes (l : List BufEntry) (addr : Word) (n v : Nat) : Nat :=
  (List.range n).foldr (fun i r => (bufByte l (addr + BitVec.ofNat 64 i)).getD (v / 256 ^ i % 256) + 256 * r) 0

/-- The spaces that a speculating thread's accesses reach: pads, vaults and remote pads (R169). -/
def specReach (addr : Word) : Bool := decide (addr.toNat < 0x6000) || (decide (2 ^ 60 ≤ addr.toNat) && decide (addr.toNat < 3 * 2 ^ 60))

/-- The read-watch entries of the issuing thread at a doubleword. -/
def watchesIt (s : State) (dk : Nat) : Bool := s.watches.any fun w => w.key == dk && w.agent == s.cur.1 && w.thread == s.cur.2

/-- The valid entries of the read-watch table of a doubleword's bank. -/
def bankWatches (s : State) (dk : Nat) : List Watch := s.watches.filter fun w => State.bankOf w.key == State.bankOf dk

/-- The issuing thread watches a doubleword from now on, in a slot that no valid entry holds; an entry that it holds there stands (R228). -/
def watching (s t : State) (bar dk : Nat) : Prop :=
  if watchesIt s dk then t = s
  else ∃ slot < 64, (∀ w ∈ bankWatches s dk, w.slot ≠ slot) ∧ t = { s with
    watches := s.watches ++ [{ key := dk, agent := s.cur.1, thread := s.cur.2, bar := bar, slot := slot, vtn := s.recordVtn s.cur.1, vd := s.vdOf s.cur.1 }]
    oldWatches := s.oldWatches.filter fun w => !(State.bankOf w.key == State.bankOf dk && w.slot == slot) }

/-- The cached leaf of a rim address of the issuing thread's space, at the station where its accesses enter (R154). -/
def leafAt (s : State) (addr : Word) : Option TlbEntry :=
  s.tlb.find? fun e => e.station == State.entryStation s.cur.1 && e.vd == s.vdOf s.cur.1 && e.space == s.dataSpace s.cur.1
    && addr.toNat % 2 ^ 56 / 2 ^ e.bits == e.page

/-- A permission of R152 is missing: R (bit 1) for a load, W (bit 2) for a store, and U (bit 4) in user mode. -/
def lacks (s : State) (e : TlbEntry) (store : Bool) : Bool :=
  !e.leaf.getLsbD (if store then 2 else 1) || (!s.me.tst.getLsbD 0 && !e.leaf.getLsbD 4)

/-- The residency entry says that the gang of a tile number has retired, or was cancelled before it started (bits 18 and 19; R143, R257);
the gang is another one of the grid, and this module runs it. -/
def retiredGang (s : State) (v : BitVec 32) : Bool :=
  let k := v.toNat / 2 ^ 16
  k != (s.tile s.cur.1).vtn.toNat / 2 ^ 16 && (s.tile s.cur.1).mark == .original && (s.grid? (s.tile s.cur.1).handle).any fun g =>
    decide (g.lo ≤ k) && decide (k < g.hi) && s.readN (rimKey (g.table + 32 * k)) 32 / 2 ^ 18 % 4 != 0

/-- The entry of a table of a walk that an address selects, at the first level of its space (R149, R150). -/
def firstEntry (s : State) (vd space : Nat) (addr : Word) : Word :=
  let root := s.readN (rimKey (s.mcrN (0x10000 + 512 * vd + 8) 8 + 16 * space)) 8 / 8192 * 8192
  s.read64 (rimKey (root + 8 * (addr.toNat % 2 ^ 56 / 2 ^ 46)))

/-- A directory entry: valid, and with the trap policy where `trap` (R149). -/
def policyOf (s : State) (vd space : Nat) (trap : Bool) : Bool :=
  decide (space < s.mcrN (0x10000 + 512 * vd + 16) 4) &&
    s.readN (rimKey (s.mcrN (0x10000 + 512 * vd + 8) 8 + 16 * space)) 1 % 4 == (if trap then 3 else 1)

/-- A thread parked on an instruction of which nothing has been popped, with no relaxed access, no thread of the machine being in a handler,
and nothing of the host or of another module waiting. Its agent has one tile. -/
def parkedOn (s : State) (a th : Nat) (p : Park) : Prop :=
  (s.tiles.filter fun x => x.1 == a).length = 1 ∧ th < 4 ∧ (s.thread a th).park = some p ∧ (s.thread a th).popped = [] ∧
  (s.thread a th).held = [] ∧ (s.thread a th).spec = none ∧ (s.thread a th).relaxed = [] ∧
  (∀ b u, u < 4 → (s.thread b u).tst.getLsbD 2 = false) ∧ s.hostPending = [] ∧ s.podPending = []

end Sys2Proof.Claims

/-- R169, R227, R228, R230: a store of a speculating thread to a pad, a vault or a remote pad enters its buffer, merged into the entry of its
doubleword or in a new one at the end, and no memory changes; where a 33rd entry is needed it waits. A load that the buffer holds whole is
served by it and watches nothing; any other reads its doubleword at its home with the buffered bytes over it, and registers its watch in a
free slot of the bank's 64, unless the thread has one there; a full table makes it wait, and poison holds trap 0x0A with the watch
registered. An access of any other space waits. -/
def Obligations.SpeculativeAccess : Prop :=
  (∀ (i : Instr) (c : Chain) (x y : RegNum) (o : Word) (n : Nat) (s : State) (sp : Spec),
    storeOf i = some (c, x, y, o, n) → s.admits {} c = true → s.atHand [.g y, .g x] [] = true → s.me.spec = some sp → s.me.relaxed = [] →
    let u := ((s.src y).2.src x).2
    let addr := (s.src y).1 + o * BitVec.ofNat 64 n
    let v := ((s.src y).2.src x).1.toNat
    let name := ownName s addr
    orderFault u addr n Use.store = none →
    (specReach addr = true → (entryAt sp.buf name).isSome ∨ sp.buf.length < 32 →
      ∃ l, exec i s = .next ((u.modMe fun t => { t with spec := some { sp with buf := l } }).fell c) ∧
        (∀ b, bufByte l b = if (b - name).toNat < n then some (v / 256 ^ (b - name).toNat % 256) else bufByte sp.buf b) ∧
        l.map (fun e => e.addr) = sp.buf.map (fun e => e.addr) ++ if (entryAt sp.buf name).isSome then [] else [BitVec.ofNat 64 (name.toNat / 8 * 8)]) ∧
    (specReach addr = false ∨ ((entryAt sp.buf name).isNone ∧ 32 ≤ sp.buf.length) → exec i s = .next (kept u c .speculating))) ∧
  (∀ (i : Instr) (c : Chain) (x y : RegNum) (o : Word) (n : Nat) (signed : Bool) (s : State) (sp : Spec) (key : Nat),
    loadOf i = some (c, x, y, o, n, signed) → s.admits {} c = true → s.atHand [.g y] [.g x] = true → s.me.spec = some sp → s.me.relaxed = [] →
    let u := (s.src y).2
    let addr := (s.src y).1 + o * BitVec.ofNat 64 n
    let name := ownName s addr
    let dk := key / 8 * 8
    let value := mergedBytes sp.buf name n (u.viewN s.cur.1 dk 8 / 256 ^ (addr.toNat % 8))
    orderFault u addr n Use.load = none →
    (specReach addr = false → exec i s = .next (kept u c .speculating [])) ∧
    (specReach addr = true → (∀ j < n, (bufByte sp.buf (name + BitVec.ofNat 64 j)).isSome) →
      exec i s = .next ((u.dst x (loaded signed n (mergedBytes sp.buf name n 0))).fell c)) ∧
    (specReach addr = true → (∃ j < n, bufByte sp.buf (name + BitVec.ofNat 64 j) = none) → goesTo u addr Use.load key = true →
      (watchesIt u dk = false → 64 ≤ (bankWatches u dk).length → exec i s = .next (kept u c .speculating [])) ∧
      (watchesIt u dk = true ∨ (bankWatches u dk).length < 64 → ∃ w, watching u w sp.bar dk ∧
        (u.poisonedAs s.cur.1 key n = false → exec i s = .next ((w.dst x (loaded signed n value)).fell c)) ∧
        (u.poisonedAs s.cur.1 key n = true → exec i s =
          .next (w.modMe fun t => { t with spec := some { sp with held := some (0x0A, addr) }, park := some .speculating })))))

/-- R137, conditions 4 to 8, R143, R152, R156, R168: a plain load or store of a rim page whose cached leaf lacks a permission takes 0x06; a store to a
page held by a cruise waits and changes no byte; a load of a pad of a gang that has retired, or was cancelled before it started, takes 0x03,
and a store there is discarded and counted in the grid's record; a load that would deliver poison takes 0x0A. A walk that finds its first
table entry invalid gives 0x05 to every access that waits for it under the trap policy; under the wait policy it sends the rim fault record and
the accesses wait at the station, until a replay write ends them with 0x05 where its bit 63 is set, or walks again. -/
def Obligations.LaterConditions : Prop :=
  (∀ (i : Instr) (c : Chain) (x y : RegNum) (o : Word) (n : Nat) (signed : Bool) (s : State) (e : TlbEntry) (key : Nat),
    loadOf i = some (c, x, y, o, n, signed) → s.admits {} c = true → s.atHand [.g y] [.g x] = true → plainly s c = true →
    let u := (s.src y).2
    let addr := (s.src y).1 + o * BitVec.ofNat 64 n
    orderFault u addr n Use.load = none →
    (addr.toNat / 2 ^ 60 = 4 → leafAt u addr = some e → lacks s e false = true → exec i s = .next (s.trapHere 0x06 addr)) ∧
    (addr.toNat / 2 ^ 60 = 1 → retiredGang u (BitVec.ofNat 32 (addr.toNat / 2 ^ 16)) = true → exec i s = .next (s.trapHere 0x03 addr)) ∧
    (goesTo u addr Use.load key = true → u.poisonedAs s.cur.1 key n = true → exec i s = .next (s.trapHere 0x0A addr))) ∧
  (∀ (i : Instr) (c : Chain) (x y : RegNum) (o : Word) (n : Nat) (s : State) (e : TlbEntry),
    storeOf i = some (c, x, y, o, n) → s.admits {} c = true → s.atHand [.g y, .g x] [] = true → plainly s c = true →
    let u := ((s.src y).2.src x).2
    let addr := (s.src y).1 + o * BitVec.ofNat 64 n
    orderFault u addr n Use.store = none →
    (addr.toNat / 2 ^ 60 = 4 → leafAt u addr = some e → lacks s e true = true → exec i s = .next (s.trapHere 0x06 addr)) ∧
    (addr.toNat / 2 ^ 60 = 4 → leafAt u addr = some e → lacks s e true = false → e.leaf.getLsbD 5 = true →
      exec i s = .next (kept u c (.cruiseHold addr))) ∧
    (addr.toNat / 2 ^ 60 = 1 → retiredGang u (BitVec.ofNat 32 (addr.toNat / 2 ^ 16)) = true →
      ∃ t, exec i s = .next t ∧ (∀ k, Mem.read t.mem k = Mem.read s.mem k) ∧ t.me.pc = (u.fell c).me.pc ∧
        (t.grid? (s.tile s.cur.1).handle).map (fun g => vget g.counts 3 0) = (s.grid? (s.tile s.cur.1).handle).map fun g =>
          let k := vget g.counts 3 0
          if k = BitVec.allOnes 16 then k else k + 1)) ∧
  (∀ (s : State) (w : Walk) (rest : List Walk) (a th : Nat) (va name : Word),
    s.walking w.station = w :: rest → w.ahead = false → (firstEntry s w.vd w.space w.addr).getLsbD 0 = false →
    parkedOn s a th (.walk w.station w.vd w.space va name) → va.toNat % 2 ^ 56 / 2 ^ w.bits = w.addr.toNat % 2 ^ 56 / 2 ^ w.bits →
    ∃ t, exec (.translationWalkDone w.station 0) s = .next t ∧
      (policyOf s w.vd w.space true = true → t.thread a th = entered (s.thread a th) 0x05 (s.thread a th).pc name) ∧
      (policyOf s w.vd w.space false = true → t.thread a th = { s.thread a th with park := some (.rimFault w.station w.vd w.space va name) } ∧
        ∃ tag : Nat, tag < 2 ^ 63 ∧ t.records = s.records ++ [⟨.supervisor w.vd, BitVec.ofNat 256 (w.addr.toNat + w.space % 2 ^ 16 * 2 ^ 64
          + w.vd % 2 ^ 8 * 2 ^ 80 + State.accCode w.kind * 2 ^ 88 + w.vtn.toNat * 2 ^ 96 + w.thread % 2 ^ 8 * 2 ^ 128 + w.station % 2 ^ 8 * 2 ^ 136
          + tag * 2 ^ 192)⟩] ∧
        (t.rimFaults.getLast?.map fun f => (f.station, f.addr, f.tag)) = some (w.station, w.addr, BitVec.ofNat 64 tag))) ∧
  (∀ (s : State) (f : RimFault) (a th : Nat) (va name : Word) (abort : Bool),
    s.rimFaults.find? (fun x => x.station == f.station && x.tag == f.tag) = some f → f.tag.toNat < 2 ^ 63 → f.station < 64 →
    parkedOn s a th (.rimFault f.station f.vd f.space va name) → va.toNat % 2 ^ 56 / 2 ^ f.bits = f.addr.toNat % 2 ^ 56 / 2 ^ f.bits →
    ∃ t, exec (.stationReplayWrite f.station (f.tag + if abort then 2 ^ 63 else 0)) s = .next t ∧ f ∉ t.rimFaults ∧
      (abort = true → t.thread a th = entered (s.thread a th) 0x05 (s.thread a th).pc name) ∧
      (abort = false → (t.thread a th).park = some (.walk f.station f.vd f.space va name)))

namespace Sys2Proof.Claims

open Sys2Proof.Machine

/-! ### What the number functions of vectors and matrices give -/

/-- The rational (-1)^neg * num * 2^exp. -/
def ratOf (neg : Bool) (num : Nat) (exp : Int) : Rat :=
  let m : Int := if neg then -num else num
  if 0 ≤ exp then m * 2 ^ exp.toNat else mkRat m (2 ^ (-exp).toNat)

/-- A number's place on the extended line. -/
def place : FVal → Int × Rat
  | .inf neg => (if neg then -1 else 1, 0)
  | .fin neg num exp => (0, ratOf neg num exp)
  | .nan _ => (0, 0)

def under (p q : Int × Rat) : Bool := decide (p.1 < q.1) || (decide (p.1 = q.1) && decide (p.2 < q.2))

def isZero : FVal → Bool
  | .fin _ num _ => num == 0
  | .inf _ | .nan _ => false

def isInf : FVal → Bool
  | .inf _ => true
  | .fin _ _ _ | .nan _ => false

/-- Where the exact sum of two values lies; none for an invalid one (R68, R72). -/
def sumPlace : FVal → FVal → Option (Int × Rat)
  | .nan _, _ | _, .nan _ => none
  | .inf x, .inf y => if x = y then some (if x then -1 else 1, 0) else none
  | .inf x, .fin _ _ _ | .fin _ _ _, .inf x => some (if x then -1 else 1, 0)
  | .fin n m e, .fin k l f => some (0, ratOf n m e + ratOf k l f)

/-- VADDMIN's lane on floating-point types (R274): bits and flags. -/
def addMin (f : Fp) (mode draw a b c : Nat) : Nat × BitVec 5 :=
  let x := f.decode a
  let y := f.decode b
  let z := f.decode c
  let sum := f.addBits mode draw a b
  let nv : BitVec 5 := if x.isSnan || y.isSnan || z.isSnan || ((sumPlace x y).isNone && !x.isNan && !y.isNan) then flagNV else 0
  -- an exact sum of zero takes the sign of R72
  let minus : Bool := if isZero x && isZero y && x.isNeg == y.isNeg then x.isNeg else mode == 3
  match sumPlace x y with
  | none => (if z.isNan then f.canon else c, nv)
  | some p =>
    if z.isNan then (sum.1, nv ||| sum.2)
    else if under (place z) p || (decide (place z = p) && (decide (p ≠ (0, 0)) || z.isNeg || !minus)) then (c, nv)
    else (sum.1, nv ||| sum.2)

/-- Which of the two neighbours of a magnitude a rounding code takes: the upper one, by the part above the lower one in units of the
distance, and by whether the lower one is odd (R70). -/
def upper (mode : Nat) (neg odd : Bool) (part : Rat) (draw : Nat) : Bool :=
  match mode with
  | 1 => decide (1 / 2 < part) || (decide (part = 1 / 2) && odd)
  | 2 => false
  | 3 => neg
  | 4 => !neg
  | 5 => decide (1 / 2 ≤ part)
  | 6 => decide (65536 ≤ (part * 65536).floor + draw)
  | _ => !odd

/-- A finite value rounded to an integer, and whether that is inexact. -/
def toInteger (mode draw : Nat) (neg : Bool) (num : Nat) (exp : Int) : Int × Bool :=
  let q := ratOf false num exp
  let part := q - q.floor
  let n := if part = 0 then q.floor else if upper mode neg (decide (q.floor % 2 = 1)) part draw then q.floor + 1 else q.floor
  (if neg then -n else n, decide (part ≠ 0))

/-- The magnitude that bits without a sign stand for. -/
def magOf (f : Fp) (k : Nat) : Rat := (place (f.decode k)).2

/-- One element of VCVT, by the table of R283: bits and flags. -/
def converted (src dst : VTy) (sat : Bool) (mode draw v : Nat) : Nat × BitVec 5 :=
  let w := laneBits dst
  let top : Int := 2 ^ (w - 1)
  if !src.isFloat then
    let i := signedLane src v
    if dst.isFloat then (fpOf dst).roundTo (some sat) mode draw (FVal.ofInt i)
    else (lowBits dst (if sat && decide (top ≤ i) then top - 1 else if sat && decide (i < -top) then -top else i), 0)
  else match (fpOf src).decode v with
    | .nan quietBitClear =>
      if dst.isFloat then ((fpOf dst).canon, if quietBitClear then flagNV else 0)
      else (if sat then 0 else 2 ^ (w - 1), flagNV)
    | .inf neg =>
      if dst.isFloat then ((if neg then (fpOf dst).signBit else 0) + (fpOf dst).infBits, 0)
      else (if sat && !neg then 2 ^ (w - 1) - 1 else 2 ^ (w - 1), flagNV ||| flagNX)
    | .fin neg num exp =>
      if dst.isFloat then (if src == dst then (v, 0) else (fpOf dst).roundTo (some sat) mode draw (.fin neg num exp))
      else
        let r := toInteger mode draw neg num exp
        if r.1 < -top ∨ top ≤ r.1 then (if sat && !neg then 2 ^ (w - 1) - 1 else 2 ^ (w - 1), flagNV ||| flagNX)
        else (lowBits dst r.1, if r.2 then flagNX else 0)

/-- The results of VSFU at a NaN, at a zero, at an infinity and outside a function's domain, by the table of R285. -/
def special (f : Fp) (fn : Sfu) (a : Nat) : Option (Nat × BitVec 5) :=
  let one := f.bias * 2 ^ f.fbits
  let invalid := (f.canon, flagNV)
  match f.decode a with
  | .nan quietBitClear => some (f.canon, if quietBitClear then flagNV else 0)
  | .inf neg => some (match fn with
    | .exp2 => if neg then (0, 0) else (f.infBits, 0)
    | .log2 => if neg then invalid else (f.infBits, 0)
    | .rcp => (if neg then f.signBit else 0, 0)
    | .rsqrt => if neg then invalid else (0, 0)
    | .sin | .cos => invalid
    | .tanh => ((if neg then f.signBit else 0) + one, 0)
    | .sigm => (if neg then 0 else one, 0))
  | .fin neg num _ =>
    if num = 0 then some (match fn with
      | .exp2 | .cos => (one, 0)
      | .log2 => (f.signBit + f.infBits, flagDZ)
      | .rcp | .rsqrt => ((if neg then f.signBit else 0) + f.infBits, flagDZ)
      | .sin | .tanh => (if neg then f.signBit else 0, 0)
      | .sigm => ((f.bias - 1) * 2 ^ f.fbits, 0))
    else if neg then (match fn with
      | .log2 | .rsqrt => some invalid
      | _ => none)
    else none

/-- The bits of an element of a tile register: half a byte, two bytes or one byte, by its format (R289). -/
def elementBits (s : State) (a m i k : Nat) : Nat :=
  let row := tileKey a (0x6400 + 4096 * m + 512 * i)
  match (vget (s.tile a).mcfg m 0x2080).toNat % 8 with
  | 2 => s.readN (row + k / 2) 1 / 16 ^ (k % 2) % 16
  | 4 | 5 => s.readN (row + 2 * k) 2
  | _ => s.readN (row + k) 1

/-- The format of a tile register's elements (R288). -/
def formatOf (v : Word) : Fp :=
  match v.toNat % 8 with
  | 0 => .e4m3 | 1 => .e5m2 | 2 => .e2m1 | 4 => .bf16 | _ => .fp16

/-- The elements of a row: its bytes, twice or half as many by the format (R289). -/
def rowLength (v : Word) : Nat :=
  let bytes := 16 * (v.toNat / 256 % 64)
  match v.toNat % 8 with
  | 2 => 2 * bytes
  | 4 | 5 => bytes / 2
  | _ => bytes

/-- A product is infinite. -/
def infinite (p : FVal × FVal) : Bool :=
  (isInf p.1 && !p.2.isNan && !isZero p.2) || (isInf p.2 && !p.1.isNan && !isZero p.1)

/-- Zero times infinity. -/
def wrongProduct (p : FVal × FVal) : Bool := (isInf p.1 && isZero p.2) || (isZero p.1 && isInf p.2)

def negProduct (p : FVal × FVal) : Bool := p.1.isNeg != p.2.isNeg

/-- A block holds infinite products of both signs. -/
def bothInf (l : List (FVal × FVal)) : Bool :=
  l.any (fun p => infinite p && negProduct p) && l.any fun p => infinite p && !negProduct p

/-- A block has no sum that is a number (R296). -/
def noSum (l : List (FVal × FVal)) : Bool := l.any (fun p => p.1.isNan || p.2.isNan || wrongProduct p) || bothInf l

/-- A value is the exact sum of a block's products (R295, R296); a sum of zero is negative where every product is -0 (R72). -/
def blockIs (l : List (FVal × FVal)) (v : FVal) : Bool :=
  match v with
  | .nan _ => noSum l
  | .inf neg => !noSum l && l.any fun p => infinite p && negProduct p == neg
  | .fin neg num exp => !noSum l && !l.any infinite &&
      decide (ratOf neg num exp = (l.map fun p => (place p.1).2 * (place p.2).2).sum) && (num != 0 || neg == l.all negProduct)

/-- NV of a block: zero times infinity, infinities of both signs, or a signalling operand (R296). -/
def blockNV (l : List (FVal × FVal)) : Bool := l.any (fun p => wrongProduct p || p.1.isSnan || p.2.isSnan) || bothInf l

/-- A value times an E8M0 scale: 2^(e - 127), and NaN for 0xFF (R65). -/
def times (v : FVal) (e : Nat) : FVal :=
  if e = 255 then .nan false
  else match v with
    | .fin n m x => .fin n m (x + (e - 127))
    | w => w

/-- The scale byte of a block of a row: 127 where SC is 0 (R288, R295). -/
def scaleByte (s : State) (a m i b : Nat) : Nat :=
  if (vget (s.tile a).mcfg m 0x2080).getLsbD 16 then s.readN (tileKey a (0xA400 + 256 * m + 32 * i + b)) 1 else 127

/-- The element pairs of block `b` of row i of A and row j of B: 32 of them, or what is left of the row. -/
def blockPairs (s : State) (a ma mb i j b : Nat) : List (FVal × FVal) :=
  let va := vget (s.tile a).mcfg ma 0x2080
  let vb := vget (s.tile a).mcfg mb 0x2080
  (List.range (min 32 (rowLength va - 32 * b))).map fun k =>
    ((formatOf va).decode (elementBits s a ma i (32 * b + k)), (formatOf vb).decode (elementBits s a mb j (32 * b + k)))

/-- What has accumulated after a number of blocks, by R295: each block's exact sum, scaled, rounded to FP32 and added to what was there, both
times to nearest even; with the flags of every step. -/
def accumulated (s : State) (a acc ma mb i j : Nat) : Nat → Nat × BitVec 5 → Prop
  | 0, c => c = (s.readN (tileKey a (0xA800 + 256 * acc + 32 * i + 4 * j)) 4, 0)
  | b + 1, c => ∃ d v, accumulated s a acc ma mb i j b d ∧ blockIs (blockPairs s a ma mb i j b) v = true ∧
      let r := Fp.fp32.roundTo none 1 0 (times (times v (scaleByte s a ma i b)) (scaleByte s a mb j b))
      let t := Fp.fp32.addBits 1 0 r.1 d.1
      c = (t.1, d.2 ||| (if blockNV (blockPairs s a ma mb i j b) then flagNV else 0) ||| r.2 ||| t.2)

end Sys2Proof.Claims

/-- R70, R71, R274, R282 to R285, R295, R296: what the number functions that the tables above name deliver. A finite value that is not beyond
the largest finite magnitude rounds to one of the two neighbouring magnitudes of its format, by the rounding code, with NX where it is none of
them. VADDMIN's lane, VCVT's element and the special results of VSFU are those of their tables; VCVTQ rounds under R71 and widens exactly;
VREDADD adds in the fixed tree, each addition with its own draw, integers modulo the lane, and an element alone passes on. RCP is 1 divided by
the operand, RSQRT rounds the exact root, EXP2 of an integer and LOG2 of a power of two round that number, and COS is even. That a NaN passes on
alone without NV is log 70. MMA's element is the exact integer sum, or what the blocks accumulate one after another. -/
def Obligations.NumericContent : Prop :=
  (∀ (f : Fp) (sat : Sat) (mode draw num : Nat) (neg : Bool) (exp : Int), 0 < num → ratOf false num exp ≤ magOf f f.maxBits →
    let r := f.roundTo sat mode draw (.fin neg num exp)
    ∃ k, k ≤ f.maxBits ∧ magOf f k ≤ ratOf false num exp ∧ (k < f.maxBits → ratOf false num exp < magOf f (k + 1)) ∧
      let part := (ratOf false num exp - magOf f k) / (magOf f (k + 1) - magOf f k)
      r.1 = (if neg then f.signBit else 0) +
        (if ratOf false num exp = magOf f k then k else if upper mode neg (decide (k % 2 = 1)) part draw then k + 1 else k) ∧
      r.2.getLsbD 0 = decide (ratOf false num exp ≠ magOf f k) ∧ r.2.getLsbD 2 = false ∧ r.2.getLsbD 3 = false ∧ r.2.getLsbD 4 = false) ∧
  (∀ (t : VTy) (mode draw a b c : Nat), t.isFloat = true →
    ((laneAddMin t mode draw a b c).bits, (laneAddMin t mode draw a b c).flags) = addMin (fpOf t) mode draw a b c) ∧
  (∀ (src dst : VTy) (sat : Bool) (mode draw v : Nat), v < 2 ^ laneBits src →
    ((cvtLane src dst sat mode draw v).bits, (cvtLane src dst sat mode draw v).flags) = converted src dst sat mode draw v) ∧
  (∀ (f g : Fp) (sat : Bool) (mode draw v : Nat), v < 2 ^ f.width →
    let r := cvtqLane f g sat mode draw v
    let x := f.decode v
    (x.isNan = false → (r.bits, r.flags) = g.roundTo (some sat) mode draw x) ∧
    (x.isNan = true → r.bits = g.canon ∧ r.flags = if x.isSnan || g == .e2m1 then flagNV else 0) ∧
    ((f = .e4m3 ∨ f = .e5m2 ∨ f = .e2m1) → (g = .bf16 ∨ g = .fp16 ∨ g = .fp32 ∨ g = .fp64) → x.isNan = false →
      place (g.decode r.bits) = place x ∧ (g.decode r.bits).isNeg = x.isNeg ∧ r.flags = 0)) ∧
  (∀ (t : VTy) (mode : Nat) (draw : Nat → Nat) (lane : Nat → Option Nat), (∀ i v, lane i = some v → v < 2 ^ laneBits t) →
    let whole := redNode t mode draw lane (Nat.log2 t.lanes) 0
    let d (k : Nat) : Nat := if mode = 6 then draw k else 0
    (t.isFloat = false → (whole.map fun r => r.bits).getD 0
      = lowBits t (((List.range t.lanes).filterMap lane).map fun v => (v : Int)).sum) ∧
    (∀ i v, i < t.lanes → lane i = some v → (∀ j < t.lanes, j ≠ i → lane j = none) → whole = some ⟨v, 0⟩) ∧
    ((∀ j < t.lanes, lane j = none) → whole = none) ∧
    (∀ a b, t = .f64 → lane 0 = some a → lane 1 = some b → whole.map (fun r => (r.bits, r.flags)) = some (Fp.fp64.addBits mode (d 1) a b)) ∧
    (∀ a b e g, t = .f32 → lane 0 = some a → lane 1 = some b → lane 2 = some e → lane 3 = some g →
      let x := Fp.fp32.addBits mode (d 1) a b
      let y := Fp.fp32.addBits mode (d 3) e g
      let z := Fp.fp32.addBits mode (d 2) x.1 y.1
      whole.map (fun r => (r.bits, r.flags)) = some (z.1, z.2 ||| x.2 ||| y.2)) ∧
    (∀ j i l r, t.isFloat = true → redNode t mode draw lane j (2 * i) = some l → redNode t mode draw lane j (2 * i + 1) = some r →
      let z := (fpOf t).addBits mode (d (2 ^ (j + 1) * i + 2 ^ j)) l.bits r.bits
      redNode t mode draw lane (j + 1) i = some ⟨z.1, z.2 ||| l.flags ||| r.flags⟩)) ∧
  (∀ (f : Fp) (fn : Sfu) (mode draw a : Nat), f = .bf16 ∨ f = .fp16 ∨ f = .fp32 ∨ f = .fp64 → a < 2 ^ f.width →
    (∀ r, special f fn a = some r → sfuLane f fn mode draw a = r) ∧
    (fn = .rcp → sfuLane f fn mode draw a = f.divBits mode draw (f.bias * 2 ^ f.fbits) a) ∧
    (fn = .cos → sfuLane f fn mode draw ((a + f.signBit) % 2 ^ f.width) = sfuLane f fn mode draw a) ∧
    (∀ num exp, f.decode a = .fin false num exp → 0 < num →
      (fn = .rsqrt → ∃ m e inexact, 2 ^ 100 ≤ m ∧
        ratOf false m e * ratOf false m e * ratOf false num exp ≤ 1 ∧
        1 < ratOf false (m + 1) e * ratOf false (m + 1) e * ratOf false num exp ∧
        (inexact = decide (ratOf false m e * ratOf false m e * ratOf false num exp ≠ 1)) ∧
        sfuLane f fn mode draw a = f.deliver none mode draw false { num := m, exp := e, sticky := inexact }) ∧
      (∀ n : Int, fn = .log2 → ratOf false num exp = ratOf false 1 n → sfuLane f fn mode draw a = f.roundTo none mode draw (FVal.ofInt n))) ∧
    (∀ (neg : Bool) (num : Nat) (exp n : Int), f.decode a = .fin neg num exp → 0 < num → fn = .exp2 → ratOf neg num exp = n → n.natAbs < 4096 →
      sfuLane f fn mode draw a = f.deliver none mode draw false { num := 1, exp := n })) ∧
  (∀ (s : State) (a acc ma mb i j : Nat), i < 8 → j < 8 →
    let va := vget (s.tile a).mcfg ma 0x2080
    (va.toNat % 8 = 3 → s.mmaElement a acc ma mb i j =
      ((((BitVec.ofNat 32 (s.readN (tileKey a (0xA800 + 256 * acc + 32 * i + 4 * j)) 4)).toInt + ((List.range (rowLength va)).map fun k =>
        (BitVec.ofNat 8 (elementBits s a ma i k)).toInt * (BitVec.ofNat 8 (elementBits s a mb j k)).toInt).sum) % (2 ^ 32 : Int)).toNat, 0)) ∧
    (va.toNat % 8 ≠ 3 → accumulated s a acc ma mb i j ((rowLength va + 31) / 32) (s.mmaElement a acc ma mb i j)))

namespace Sys2Proof.Claims

open Sys2Proof.Machine

/-! ### What fetches, accesses, walks and memory errors leave in memory and in registers -/

/-- A space of a VD has a valid directory entry (R149). -/
def spaceThere (s : State) (vd space : Nat) : Bool :=
  decide (space < s.mcrN (0x10000 + 512 * vd + 16) 4) && s.readN (rimKey (s.mcrN (0x10000 + 512 * vd + 8) 8 + 16 * space)) 1 % 2 == 1

/-- An address that a thread may fetch from: a rim address of a space that is there (R129, R133). -/
def codeAddress (s : State) (a th : Nat) (pc : Word) : Bool :=
  decide (2 ^ 62 ≤ pc.toNat) && decide (pc.toNat < 2 ^ 62 + 2 ^ 56) && spaceThere s (s.vdOf a) (s.fetchSpace a th)

/-- The cached leaf of an address at a station (R154), and the physical address it gives (R151). -/
def cachedLeaf (s : State) (st vd space : Nat) (addr : Word) : Option TlbEntry :=
  s.tlb.find? fun e => e.station == st && e.vd == vd && e.space == space && addr.toNat % 2 ^ 56 / 2 ^ e.bits == e.page

def leafPlace (e : TlbEntry) (addr : Word) : Nat := e.leaf.toNat / 8192 * 8192 + addr.toNat % 2 ^ e.bits

/-- The leaf that an address leads to through tables from one level on, whose entries select by the bits from each of a list up: log2 of its
page, the place of the entry and the entry. Every entry on the way is valid, with its reserved bits zero and its target inside the rim memory
and aligned (R150, R151). -/
def leafFrom (s : State) (va : Nat) : List Nat → Nat → Option (Nat × Nat × Word)
  | [], _ => none
  | b :: rest, table =>
    let pa := table + 8 * (va / 2 ^ b % 1024)
    let w := s.read64 (rimKey pa)
    let target := w.toNat / 8192 * 8192
    let level := w.toNat / 128 % 4
    if rimBytes < pa + 8 ∨ w.toNat % 2 = 0 ∨ w.toNat / 512 % 16 ≠ 0 ∨ rimBytes ≤ target then none
    else if level = 0 then leafFrom s va rest target
    else if b = 46 - 10 * level ∧ target % 2 ^ b = 0 then some (b, pa, w) else none

/-- The leaf of an address of a space: four levels from the ROOT of its directory entry (R149, R150). -/
def tableLeaf (s : State) (vd space : Nat) (addr : Word) : Option (Nat × Nat × Word) :=
  let root := s.readN (rimKey (s.mcrN (0x10000 + 512 * vd + 8) 8 + 16 * space)) 8 / 8192 * 8192
  if spaceThere s vd space then leafFrom s (addr.toNat % 2 ^ 56) [46, 36, 26, 16] root else none

/-- One tile stands at an agent, the thread is one of its four, nothing from outside waits, no doubleword is watched, and memory has its
canonical form. -/
def plainThread (s : State) (a th : Nat) : Prop :=
  Memory.wf s.mem = true ∧ (s.tiles.filter fun x => x.1 == a).length = 1 ∧ th < 4 ∧ s.hostPending = [] ∧ s.podPending = [] ∧ s.watches = []

/-- An outstanding access that is yet to be performed, of up to eight bytes. -/
def waitsWhole (r : Relaxed) : Prop :=
  r.act = .access ∧ r.vector = false ∧ 1 ≤ r.size ∧ r.size ≤ 8 ∧ r.first = none ∧ r.window = none ∧ r.fault = none ∧ r.hold = none

/-- Byte `i` of a number. -/
def byteOf (v i : Nat) : Byte := BitVec.ofNat 8 (v / 256 ^ i)

/-- Exactly `n` bytes from a key change, to those of a number. -/
def bytesAre (s t : State) (key n v : Nat) : Prop :=
  ∀ k, Mem.read t.mem k = if key ≤ k ∧ k < key + n then byteOf v (k - key) else Mem.read s.mem k

/-- Where the tile keeps what a transfer moves: rows of 512 bytes, the scale area, or an accumulator (R287, R289, R298). -/
def unitPlace (s : State) (a : Nat) (j : XferJob) (m : Nat) : Nat :=
  let row := 16 * ((vget (s.tile a).mcfg m 0x2080).toNat / 256 % 64)
  match j.kind with
  | .mscl => tileKey a (0xA400 + 256 * m + j.done)
  | .mrda | .mwra => tileKey a (0xA800 + 256 * m + j.done)
  | .mld | .mst | .mldl _ | .mpass _ => tileKey a (0x6400 + 4096 * m + 512 * (j.done / row) + j.done % row)

/-- The record of a memory error: kind 1 or 2, memory, site, count, offset and time (R408). -/
def errorBytes (s : State) (kind memory site n off : Nat) : BitVec 256 :=
  BitVec.ofNat 256 (kind + memory * 2 ^ 8 + site * 2 ^ 16 + n * 2 ^ 32 + off * 2 ^ 64 + s.time.toNat * 2 ^ 128)

end Sys2Proof.Claims

/-- R129 to R133, R137: fetch faults and fills. A thread at an address that is no code address traps with 0x03. A fill of one line whose leaf
is cached ends with the line's 64 bytes, the U bit of its page and its poisoned doublewords in the course cache, and the thread that waits goes
on; it traps with 0x06 where the page lacks X, or lacks U in user mode, with 0x0A where its doubleword is poisoned, and with 0x05 where its
walk failed under the trap policy. R161, R163, R172: an outstanding access that is performed leaves the list; a load writes its register from
memory's bytes, a store changes exactly its bytes, and poison is deferred. R158, R417 to R419: an access of another module completes where that
module has left the pod, waits where both ports are down, and elsewhere is answered, by a free cause or by free data (logs 1, 28). R299,
R302, R303: each turn of a transfer moves one doubleword between the matrix state and memory or a link. R321: a copy command's read latches
the source's bytes, and its write changes exactly the unit's bytes. R168, R408: a memory error poisons its doubleword unless it is corrected,
changes no byte and is counted and reported. R150 to R154: a walk that finds a leaf puts it into the station's cache, in a way that the VD may
use; a page with Z = 0 is zeroed first and Z set in its entry. -/
def Obligations.AccessContent : Prop :=
  (∀ s r : State, fetching s = some r → codeAddress r r.cur.1 r.cur.2 (r.thread r.cur.1 r.cur.2).pc = false →
    step s = .next (r.trapHere 0x03 (r.thread r.cur.1 r.cur.2).pc)) ∧
  (∀ (s : State) (f : Fill) (va : Word) (e : TlbEntry), s.fills = [f] → f.ahead = false → f.unit = false → State.isCore f.agent = false →
    f.course = State.courseOf f.agent → f.vd = s.vdOf f.agent → f.line = va.toNat % 2 ^ 56 / 64 → plainThread s f.agent f.thread →
    parkedOn s f.agent f.thread (.fetch va) → s.icache.any (fun l => l.course == f.course && l.vd == f.vd && l.space == f.space && l.line == f.line) = false →
    cachedLeaf s (State.entryStation f.agent) f.vd f.space va = some e → leafPlace e va + 64 ≤ rimBytes →
    let key := rimKey (leafPlace e va / 64 * 64)
    let old := s.thread f.agent f.thread
    let user := e.leaf.getLsbD 4
    ∃ t, exec (.instructionFetchFill f.agent va) s = .next t ∧ t.fills = [] ∧ t.mem = s.mem ∧
      (∀ x, f.hold = some (.pageFault x) → t.thread f.agent f.thread = entered old 0x05 old.pc va) ∧
      (f.hold = none → e.leaf.getLsbD 3 = false → t.thread f.agent f.thread = entered old 0x06 old.pc va ∧ t.icache = s.icache) ∧
      (f.hold = none → e.leaf.getLsbD 3 = true →
        t.thread f.agent f.thread = (if old.tst.getLsbD 0 = false ∧ user = false then entered old 0x06 old.pc va
          else if s.isPoisoned (key + va.toNat % 64) then entered old 0x0A old.pc va else { old with park := none }) ∧
        ∃ l ∈ t.icache, l.course = f.course ∧ l.vd = f.vd ∧ l.space = f.space ∧ l.line = f.line ∧ l.data.toNat = s.readN key 64 ∧ l.user = user ∧
          ∀ i < 8, l.bad.getLsbD i = s.isPoisoned (key + 8 * i))) ∧
  (∀ (s : State) (a th : Nat) (r : Relaxed) (key : Nat), plainThread s a th → (s.thread a th).relaxed = [r] → waitsWhole r →
    (s.thread a th).park ≠ some (.pod r.addr) → (s.thread a th).park ≠ some (.half r.addr) → (s.tile a).mark = .original →
    s.isFar a r.addr = false →
    (r.store = false → s.resolve a th r.addr Use.load = .ok (.mem key) → ∃ t, exec (.accessPerformed (.relaxed a th 0)) s = .next t ∧
      (s.poisonedIn key r.size = false → (t.thread a th).relaxed = [] ∧ (t.thread a th).deferred = (s.thread a th).deferred ∧
        (0 < r.dest.toNat → r.dest.toNat < 32 → t.mem = s.mem ∧
          vget (t.thread a th).g r.dest.toNat 0 = loaded r.signed r.size (s.readN key r.size))) ∧
      (s.poisonedIn key r.size = true → t.mem = s.mem ∧ t.thread a th = { s.thread a th with relaxed := [], deferred := some ⟨0x0A, r.addr⟩ })) ∧
    (r.store = true → s.resolve a th r.addr Use.store = .ok (.mem key) → ∃ t, exec (.accessPerformed (.relaxed a th 0)) s = .next t ∧
      (t.thread a th).relaxed = [] ∧ bytesAre s t key r.size r.data.toNat)) ∧
  (∀ (s : State) (a th : Nat) (r : Relaxed), plainThread s a th → (s.thread a th).relaxed = [r] → waitsWhole r → r.dest.toNat < 32 →
    (s.thread a th).park = some (.pod r.addr) → (s.thread a th).popped = [] → (s.thread a th).held = [] → (s.thread a th).spec = none →
    (s.thread a th).drain = [] → (∀ b u, u < 4 → (s.thread b u).tst.getLsbD 2 = false) → s.gangEnded a = false →
    (s.tile a).mark = .original → r.addr.toNat / 2 ^ 60 = 5 →
    let m := r.addr.toNat / 2 ^ 50 % 64
    let route := s.mcrN (0x4000 + 8 * m) 2
    let out := route / 2 ^ 15 % 2 = 0 ∨ m ∈ s.podLeft
    let down := route % 64 ∈ s.portsDown ∧ route / 256 % 64 ∈ s.portsDown
    let old := s.thread a th
    let cause := Config.podFault s.free
    let denied := cause = 0x03 ∨ cause = 0x05 ∨ cause = 0x06
    m ≠ s.moduleNo → ∃ t, exec (.accessPerformed (.pod a th)) s = .next t ∧ t.mem = s.mem ∧
      (out → (t.thread a th).relaxed = [] ∧ (t.thread a th).park = none ∧ ∀ g, s.grid? (s.tile a).handle = some g →
        (t.grid? (s.tile a).handle).map (fun g => vget g.counts 3 0)
          = some (if vget g.counts 3 0 = BitVec.allOnes 16 then vget g.counts 3 0 else vget g.counts 3 0 + 1)) ∧
      (¬ out → down → t.thread a th = { old with relaxed := [{ r with hold := some (.pod r.addr) }] }) ∧
      (¬ out → ¬ down → denied → t.thread a th = { entered old cause.toNat old.pc r.addr with relaxed := [] }) ∧
      (¬ out → ¬ down → ¬ denied → r.store = false → cause = 0x0A → t.thread a th = { entered old 0x0A old.pc r.addr with relaxed := [] }) ∧
      (¬ out → ¬ down → ¬ denied → (r.store = true ∨ cause ≠ 0x0A) → (t.thread a th).relaxed = [] ∧ (t.thread a th).park = none ∧
        (r.store = false → 0 < r.dest.toNat →
          vget (t.thread a th).g r.dest.toNat 0 = loaded r.signed r.size ((Config.podData s.free).toNat % 256 ^ r.size)))) ∧
  (∀ (s : State) (a : Nat) (j : XferJob) (home : Nat), plainThread s a j.thread → (s.tile a).xfer = some j → j.done < j.total →
    (s.tile a).mark = .original →
    let place := unitPlace s a j j.reg.toNat
    let addr := j.addr + BitVec.ofNat 64 j.done
    let moved := some { j with done := j.done + 8 }
    ((j.kind = .mld ∨ j.kind = .mscl ∨ j.kind = .mwra) → s.resolve a j.thread addr Use.load = .ok (.mem home) → s.poisonedIn home 8 = false →
      ∃ t, exec (.accessPerformed (.matrix a)) s = .next t ∧ (t.tile a).xfer = moved ∧ bytesAre s t place 8 (s.readN home 8)) ∧
    ((j.kind = .mst ∨ j.kind = .mrda) → s.resolve a j.thread addr Use.store = .ok (.mem home) →
      ∃ t, exec (.accessPerformed (.matrix a)) s = .next t ∧ (t.tile a).xfer = moved ∧ bytesAre s t home 8 (s.readN place 8)) ∧
    (∀ w rest, (j.kind = .mldl .ln ∧ (s.tile a).ln = w :: rest) ∨ (j.kind = .mldl .lp ∧ (s.tile a).lp = w :: rest) →
      ∃ t, exec (.accessPerformed (.matrix a)) s = .next t ∧ (t.tile a).xfer = moved ∧ bytesAre s t place 8 w.word.toNat ∧ t.links = s.links ∧
        (j.kind = .mldl .ln → (t.tile a).ln = rest) ∧ (j.kind = .mldl .lp → (t.tile a).lp = rest)) ∧
    (∀ d r, j.kind = .mpass d → s.linkPeer a d = some r → s.linkRoom a d = true →
      ∃ t, exec (.accessPerformed (.matrix a)) s = .next t ∧ (t.tile a).xfer = moved ∧ t.mem = s.mem ∧
        ∃ l, t.links = s.links ++ [l] ∧ l.rank = r ∧ l.word.toNat = s.readN place 8 ∧ l.handle = (s.tile a).handle)) ∧
  (∀ (s : State) (a slot u lo hi : Nat) (c : CopyCmd), plainThread s a c.thread → slot < 4 → vget (s.tile a).copies slot none = some c →
    (s.tile a).mark = .original → State.isCore a = false → s.siteState a = .running →
    c.kind = .cpy → c.stream = 0 → c.phase = .running → c.holds = [] → c.units ≤ u → u ∉ c.ahead →
    c.src.toNat + c.len.toNat ≤ 0x6000 → c.dst.toNat + c.len.toNat ≤ 0x6000 →
    lo = 8 * u - c.dst.toNat % 8 → hi = min c.len.toNat (8 * u + 8 - c.dst.toNat % 8) → lo < hi →
    ((∀ x ∈ c.latched, ¬ (lo ≤ x.at_ ∧ x.at_ < hi)) → ∃ t c', exec (.accessPerformed (.copy a slot u false)) s = .next t ∧ t.mem = s.mem ∧
      vget (t.tile a).copies slot none = some c' ∧ c'.units = c.units ∧ c'.ahead = c.ahead ∧
      ∀ i, lo ≤ i → i < min hi (lo + 8 - (c.src.toNat + lo) % 8) → ∃ x ∈ c'.latched, x.at_ = i ∧ x.byte = Mem.read s.mem (tileKey a (c.src.toNat + i)) ∧
        x.poison = s.isPoisoned (tileKey a (c.src.toNat + i))) ∧
    ((∀ i, lo ≤ i → i < hi → ∃ x ∈ c.latched, x.at_ = i) → ∃ t c', exec (.accessPerformed (.copy a slot u false)) s = .next t ∧
      vget (t.tile a).copies slot none = some c' ∧ (u < c'.units ∨ u ∈ c'.ahead) ∧
      (∀ k, (¬ ∃ i, lo ≤ i ∧ i < hi ∧ k = tileKey a (c.dst.toNat + i)) → Mem.read t.mem k = Mem.read s.mem k) ∧
      (∀ i, lo ≤ i → i < hi → ∃ x ∈ c.latched, x.at_ = i ∧ Mem.read t.mem (tileKey a (c.dst.toNat + i)) = x.byte ∧
        (x.poison = true → t.isPoisoned (tileKey a (c.dst.toNat + i)) = true)))) ∧
  (∀ (s : State) (a off : Nat) (vault corrected : Bool), a < 65536 → off < (if vault then 2 ^ 20 else 0x6000) →
    s.records.any (fun r => r.queue == .health) = false →
    let key := if vault then vaultKey a off else tileKey a off
    let n := if corrected then (s.site a).corr else (s.site a).unc
    ∃ t, exec (.accessPerformed (.strike key corrected)) s = .next t ∧ t.mem = s.mem ∧
      (∀ k, t.isPoisoned k = (s.isPoisoned k || (!corrected && decide (k / 8 = key / 8)))) ∧
      (if corrected then (t.site a).corr else (t.site a).unc) = (if n = BitVec.allOnes 16 then n else n + 1) ∧
      t.records = if n = BitVec.allOnes 16 then s.records else s.records ++
        [⟨.health, errorBytes s (if corrected then 1 else 2) (if vault then 1 else 0) a (n.toNat + 1) (off / 8 * 8)⟩]) ∧
  (∀ (s : State) (w : Walk) (rest : List Walk) (bits pa : Nat) (e : Word), Memory.wf s.mem = true → s.walking w.station = w :: rest → s.hostPending = [] → s.podPending = [] →
    tableLeaf s w.vd w.space w.addr = some (bits, pa, e) → ∃ t, exec (.translationWalkDone w.station 0) s = .next t ∧ w ∉ t.walks ∧
      (∃ x ∈ t.tlb, x.station = w.station ∧ x.vd = w.vd ∧ x.space = w.space ∧ x.bits = bits ∧ x.page = w.addr.toNat % 2 ^ 56 / 2 ^ bits ∧
        x.leaf = e ||| 0x40 ∧ x.leafPa = pa ∧ (s.tlb.all (fun y => y.station != w.station) = true →
          s.mcrN (0x10000 + 512 * w.vd + 23) 1 = 0 ∨ (s.mcrN (0x10000 + 512 * w.vd + 23) 1).testBit x.way = true)) ∧
      (∀ k, Mem.read t.mem k =
        if e.getLsbD 6 = true then Mem.read s.mem k
        else if rimKey pa ≤ k ∧ k < rimKey pa + 8 then byteOf (e ||| 0x40).toNat (k - rimKey pa)
        else if rimKey (e.toNat / 8192 * 8192) ≤ k ∧ k < rimKey (e.toNat / 8192 * 8192) + 2 ^ bits then 0 else Mem.read s.mem k))

namespace Sys2Proof.Claims

open Sys2Proof.Machine

/-! ### What launching, dealing, starting, moving and auditing gangs leave -/

/-- Where a unit without a thread reads or writes `n` bytes of a space: the space is there, the leaf of the page is cached at the unit's
station with the permission, with U unless the unit ignores it, not held where it writes, and the bytes lie in one 64 KiB (R149 to R154). -/
def unitAt (s : State) (station vd space : Nat) (sup : Bool) (addr : Word) (n : Nat) (write : Bool) : Option Nat :=
  match cachedLeaf s station vd space addr with
  | some e => if addr.toNat / 2 ^ 56 = 0x40 ∧ spaceThere s vd space = true ∧ 0 < n ∧ addr.toNat % 65536 + n ≤ 65536 ∧ leafPlace e addr + n ≤ rimBytes ∧
      e.leaf.getLsbD (if write then 2 else 1) = true ∧ (sup = true ∨ e.leaf.getLsbD 4 = true) ∧ (write = true → e.leaf.getLsbD 5 = false)
    then some (rimKey (leafPlace e addr)) else none
  | none => none

/-- Some doubleword of `n` bytes at a key is poisoned. -/
def anyPoison (s : State) (key n : Nat) : Bool := s.poison.any fun d => decide (key / 8 * 8 ≤ d) && decide (d < key + n)

/-- A field of a descriptor: `n` bytes at an offset (R332). -/
def dfield (d off n : Nat) : Nat := d / 256 ^ off % 256 ^ n

/-- A field is a rim address and a multiple of `n`. -/
def rimAddr (d off n : Nat) : Bool := dfield d off 8 / 2 ^ 60 == 4 && dfield d off 8 % n == 0

/-- The legal values of the table of R332, and its bits that are zero. -/
def descAllowed (d : Nat) : Bool :=
  let f := dfield d
  decide (f 8 4 ≤ 24576) && f 8 4 % 16 == 0 && (f 8 4 == 0 || rimAddr d 0 16) && decide (1 ≤ f 12 4) && decide (f 12 4 ≤ 65536) && rimAddr d 16 2 &&
  decide (1 ≤ f 24 4) && decide (f 24 4 ≤ 65536) && decide (f 28 2 ≤ 255) && decide (f 30 1 ≤ 7) && decide (1 ≤ f 31 1) && decide (f 40 1 ≤ 17) &&
  decide (f 41 1 ≤ 1) && decide (f 44 2 ≤ 6144) && f 44 2 % 16 == 0 && f 46 2 == 0 && (f 64 8 == 0 || rimAddr d 64 16) && decide (f 72 4 ≤ 255) &&
  (f 64 8 != 0 || f 72 4 == 0) && f 76 4 == 0 && (f 80 8 == 0 || rimAddr d 80 128) && f 88 8 / 2 ^ 36 % 2 ^ 27 == 0 && f 96 32 == 0

/-- What a grid takes from its descriptor. -/
def descMeans (d : Nat) (x : GridDesc) : Prop :=
  let f := dfield d
  x.image.toNat = f 0 8 ∧ x.imsz = f 8 4 ∧ x.gsz = f 12 4 ∧ x.entry.toNat = f 16 8 ∧ x.gcnt = f 24 4 ∧ x.queue = f 28 2 ∧ x.pri = f 30 1 ∧
  x.weight = f 31 1 ∧ x.mask.toNat = f 32 8 ∧ x.cre = f 40 1 ∧ x.flags.toNat = f 41 1 ∧ x.space = f 42 2 ∧ x.stack = f 44 2 ∧
  x.cseed.toNat = f 48 8 ∧ x.arg.toNat = f 56 8 ∧ x.iolist.toNat = f 64 8 ∧ x.iocnt = f 72 4 ∧ x.crec.toNat = f 80 8 ∧ x.cnote.toNat = f 88 8

/-- Sites of a VD's partition that are neither defective nor quarantined (R388). -/
def poolSize (s : State) (vd : Nat) : Nat :=
  ((List.range (s.mcrN (0x10000 + 512 * vd + 4) 2 + 1)).filter fun i => let st := s.siteState (s.mcrN (0x10000 + 512 * vd + 2) 2 + i)
    st != .defective && st != .quarantined).length

/-- A LAUNCH of a thread stands alone at the dispatcher: no other message is one, and its thread waits for its handle in a register. -/
def launching (s : State) (m : Msg) (d : RegNum) : Prop :=
  Memory.wf s.mem = true ∧ s.msg? m.id = some m ∧ m.phase = .flight ∧
  s.net.all (fun y => y == m || match y.kind with | .launch _ => false | _ => true) = true ∧
  m.slot = none ∧ m.queue = none ∧ m.agent < 2 * 65536 ∧ m.thread < 4 ∧ m.vd < 256 ∧ (s.tiles.filter fun y => y.1 == m.agent).length = 1 ∧
  (s.thread m.agent m.thread).launching = [(d, m.id)] ∧ 0 < d.toNat ∧ d.toNat < 32

/-- The LAUNCH is over, with a value in its destination. -/
def launched (t : State) (m : Msg) (d : RegNum) (v : Word) : Prop :=
  vget (t.thread m.agent m.thread).g d.toNat 0 = v ∧ (t.thread m.agent m.thread).launching = []

/-- A ring that nothing has entered (R255, R257). -/
def emptyRing (s : State) (hdr : Nat) : Prop :=
  1 ≤ s.readN (rimKey (hdr + 8)) 4 ∧ s.readN (rimKey (hdr + 16)) 8 = 0 ∧ s.readN (rimKey (hdr + 24)) 8 = 0 ∧ s.readN (rimKey (hdr + 32)) 8 = 0

/-- A dispatcher below which gangs of a size are placed, and its children (R347). -/
def above (node gsz : Nat) : Prop := (node = 260 ∧ gsz ≤ 16384) ∨ (256 ≤ node ∧ node < 260 ∧ gsz ≤ 256)
def kidsOf (node : Nat) : List Nat := if node = 260 then [256, 257, 258, 259] else (List.range 64).map fun i => 64 * (node - 256) + i

/-- R257, R335, R336: a LAUNCH that is accepted makes a grid. -/
def acceptMakesGrid : Prop :=
  ∀ (s u : State) (m : Msg) (desc : Word) (x : GridDesc) (io : List IoRegion) (b : SwapBlock) (d : RegNum), launching s m d →
  m.kind = .launch desc → m.checked = some (x, io) → x.queue < 256 → (s.queueGrids m.vd x.queue).length < 256 →
  s.allocSwap m.vd (s.tableBytes s.swapCount x) = some (b, u) →
  let vdAt := 0x10000 + 512 * m.vd
  let n := (Tab.get? s.serials m.vd).getD 1
  let h : Word := BitVec.ofNat 64 (n.toNat + x.queue * 2 ^ 32 + s.mcrN 0x20 8 % 64 * 2 ^ 48)
  let replays := s.mcrN vdAt 1 / 4 % 2 = 1 ∧ s.mcrN 0x50 16 / 32 % 2 = 1
  ∃ t g, exec (.launchAccept m.id) s = .next t ∧ t.grids = s.grids ++ [g] ∧ launched t m d h ∧
    g.handle = h ||| (BitVec.ofNat 64 m.vd <<< 54) ∧ g.vd = m.vd ∧ g.desc = x ∧ g.io = io ∧ g.launcher = some (m.handle, m.vtn) ∧
    g.complete = false ∧ g.cancelled = false ∧ g.started = false ∧ g.table = b.base ∧ (x.mask = 0 → g.lo = 0 ∧ g.hi = x.gcnt) ∧
    g.replay = (if replays then some (BitVec.ofNat 64 (s.mcrN (vdAt + 72) 8)) else none) ∧ t.mcrN (vdAt + 72) 8 = 0 ∧
    Tab.get? t.serials m.vd = some (if n + 1 = 0 then 1 else n + 1) ∧
    ∀ i, g.lo ≤ i → i < g.hi → let e := rimKey (b.base + 32 * i)
      t.readN e 16 = 0 ∧ emptyRing t (t.readN (e + 16) 8) ∧ emptyRing t (t.readN (e + 24) 8)

/-- R332, R334: what a LAUNCH is rejected for, and what one that passes becomes. -/
def descriptorDecides : Prop :=
  ∀ (s : State) (m : Msg) (desc : Word) (d : RegNum), launching s m d → m.kind = .launch desc → m.checked = none → m.hold = none →
  desc.toNat % 128 = 0 → desc.toNat / 2 ^ 56 = 0x40 →
  let space := if State.isCore m.agent then 0 else ((s.grid? m.handle).map fun g => g.desc.space).getD 0
  let rejected (n : Nat) : Prop := ∃ t, exec (.launchAccept m.id) s = .next t ∧ launched t m d (BitVec.ofNat 64 (2 ^ 63 + n)) ∧
    t.grids = s.grids ∧ t.mem = s.mem ∧ t.serials = s.serials ∧ t.records = s.records
  (spaceThere s m.vd space = false → rejected 4) ∧
  (∀ key, unitAt s 52 m.vd space (m.sup || State.isCore m.agent) desc 128 false = some key →
    (anyPoison s key 128 = true → rejected 4) ∧
    (anyPoison s key 128 = false →
      let v := s.readN key 128
      let note := dfield v 88 8
      let noteOk := note / 2 ^ 63 = 0 ∨ ∃ g, s.grid? m.handle = some g ∧ note / 2 ^ 16 % 2 ^ 16 < g.desc.gcnt ∧ note % 2 ^ 16 < g.desc.gsz
      let mask := dfield v 32 8
      let alone := mask = 0
      let fits := s.mcrN (0x10000 + 512 * m.vd) 1 % 2 = 1 ∧ dfield v 12 4 ≤ poolSize s m.vd
      (descAllowed v = false ∨ ¬ noteOk → rejected 1) ∧
      (descAllowed v = true → noteOk → ¬ fits → rejected 2) ∧
      (descAllowed v = true → noteOk → fits → (∃ k < 64, mask.testBit k = true ∧ k ≠ s.mcrN 0x20 8 % 64) →
        (∀ k < 64, mask.testBit k = true → k ≠ s.mcrN 0x20 8 % 64 → s.mcrN (0x4000 + 8 * k) 2 / 2 ^ 15 % 2 = 0 ∨ k ∈ s.podLeft) → rejected 3) ∧
      (descAllowed v = true → noteOk → fits → alone → dfield v 8 4 = 0 → dfield v 72 4 = 0 →
        ∃ t, exec (.launchAccept m.id) s = .next t ∧
          ((∃ g, t.grids = s.grids ++ [g] ∧ descMeans v g.desc ∧ g.io = []) ∨
           (t.grids = s.grids ∧ ∃ m' ∈ t.net, m'.id = m.id ∧ ∃ x, m'.checked = some (x, []) ∧ descMeans v x)))))

/-- R347: a round of a dispatcher that holds one range. -/
def dealingShares : Prop :=
  ∀ (s : State) (g : Grid) (r : DealRange) (node : Nat), s.grid? g.handle = some g → g.cancelled = false → g.imageFault = false →
  (g.image.isSome = true ∨ g.desc.imsz = 0) → above node g.desc.gsz → g.ranges = [r] → r.node = node → r.lo < r.hi →
  ∃ t g', exec (.dealRound node g.handle) s = .next t ∧ t.grid? g.handle = some g' ∧
    (∀ i, (r.lo ≤ i ∧ i < r.hi) ↔ ∃ q ∈ g'.ranges, q.lo ≤ i ∧ i < q.hi) ∧
    (∀ q ∈ g'.ranges, q.lo < q.hi ∧ (q.node = node ∨ (q.node ∈ kidsOf node ∧ q.node ∉ s.withheld))) ∧
    (∀ p ∈ g'.ranges, ∀ q ∈ g'.ranges, q.node ≠ node → (p.node = node ∨ q.node < p.node) → q.hi ≤ p.lo) ∧
    (∀ c ∈ kidsOf node, c ∉ s.withheld → s.freeUnder g.vd c ≠ 0 → s.canPlace g.vd c g.desc.gsz = true →
      (∃ q ∈ g'.ranges, q.node = c) ∨ ∀ q ∈ g'.ranges, q.node ≠ node)

end Sys2Proof.Claims

/-- R257, R335, R336: a LAUNCH that has been checked, has its queue's turn and finds room in it and in the swap region makes a grid: its handle
holds the next serial of the VD, the queue and this module; its residency entries on this module are zero but for the two empty rings that
they name; the VD's replay binding goes to the grid and reads 0; the thread has the handle. R332, R334: a LAUNCH whose descriptor cannot be read
is rejected with reason 4, one with an illegal field with 1, one larger than the partition's pool with 2, one for modules that are not in
the pod with 3: the thread has 1 << 63 with the reason, and nothing else is made. One that passes, and has neither list nor image to read,
becomes a grid of what its descriptor says, or waits for room with just that. The dispatcher's accesses enter at station 52, and the place of the rings is the model's (logs 12, 27).
R347: a round of a dispatcher that holds one range deals it out in ascending order of the children, no gang lost or doubled; a withheld child
gets none, and one that can place a gang gets at least one while any is left. -/
def Obligations.LaunchContent : Prop :=
  acceptMakesGrid ∧ descriptorDecides ∧ dealingShares

namespace Sys2Proof.Claims

open Sys2Proof.Machine

/-- The residency entry of a gang, as a number (R257). -/
def entryN (s : State) (g : Grid) (i : Nat) : Nat := s.readN (rimKey (g.table + 32 * i)) 32

/-- A grid whose gang's entry stands whole in its table, in one block of the swap region with the empty skid queue after it, while no gang's
records are on their way and no watch is held (R255, R257, R393). -/
def calmGang (s : State) (g : Grid) (i : Nat) : Prop :=
  let hdr := entryN s g i / 2 ^ 128 % 2 ^ 64
  Memory.wf s.mem = true ∧ s.watches = [] ∧ s.away = [] ∧ s.grid? g.handle = some g ∧ g.complete = false ∧ g.vd < 256 ∧ i < g.desc.gcnt ∧
  g.desc.gcnt ≤ 65536 ∧ g.desc.gsz ≤ 65536 ∧
  s.mcrN (0x10000 + 512 * g.vd + 2) 2 + (s.mcrN (0x10000 + 512 * g.vd + 4) 2 + 1) ≤ 65536 ∧
  s.readN (rimKey (hdr + 24)) 8 = s.readN (rimKey (hdr + 16)) 8 ∧
  ∃ b ∈ s.swap, b.base ≤ g.table ∧ g.table + 32 * g.desc.gcnt ≤ hdr ∧ hdr + 40 ≤ b.base + b.bytes ∧ b.base + b.bytes ≤ rimBytes

/-- A control thread as R342 starts it. -/
def freshThread (s : State) (g : Grid) (t : Thread) : Prop :=
  t.live = true ∧ t.pc = g.desc.entry ∧ t.tst = 0 ∧ t.park = none ∧ t.fctl = 0x9 ∧ t.fst = 0 ∧ t.ldepth = 0 ∧ t.tepc = 0 ∧ t.tcause = 0 ∧
  t.tvec.toNat = s.mcrN (0x10000 + 512 * g.vd + 32) 8 / 2 * 2 ∧
  ∀ n, 0 < n → n < 32 → vget t.g n 0 = (if n = 2 then (if g.desc.stack = 0 then 0 else 0x6000) else if n = 3 then g.desc.arg
    else if n = 4 then g.handle &&& 0x003FFFFFFFFFFFFF else 0)

/-- A tile as R349 starts it: its pad holds the image and zeros, every full/empty bit is empty, its registers are at their start values, its
control thread is started and no other, and its site is RUNNING. -/
def startedAs (s t : State) (g : Grid) (i rank a : Nat) (mark : RunMark) : Prop :=
  let x := t.tile a
  (∀ off < 0x6000, Mem.read t.mem (tileKey a off) = Mem.read (g.image.getD []) off ∧ t.isFull (tileKey a off) = false ∧
    t.isPoisoned (tileKey a off) = false) ∧
  x.handle = g.handle ∧ x.vtn.toNat = i * 65536 + rank ∧ x.gsize.toNat = g.desc.gsz ∧ x.mark = mark ∧ x.sealed = false ∧
  x.c = Vector.replicate 16 0 ∧ x.trig = Vector.replicate 8 {} ∧ x.streams = Vector.replicate 8 {} ∧ x.mcfg = Vector.replicate 4 0x2080 ∧
  x.barCfg = Vector.replicate 4 0x001F ∧ x.digest = Vector.replicate 4 0 ∧ x.sfull = 0 ∧ x.inbox = [] ∧
  freshThread s g (t.thread a 0) ∧ (∀ th, 0 < th → th < 4 → (t.thread a th).live = false) ∧ (t.site a).state = .running

/-- Sites that a run may be placed on: free, in no withheld yard, not switched off, not marked (R17, R348, R372, R426). -/
def placedOn (s : State) (vd : Nat) (sites : List Nat) : Prop :=
  sites.Pairwise (· < ·) ∧ ∀ a ∈ sites, s.siteState a = .free ∧ a / 256 ∉ s.withheld ∧ s.mcrN (0x60000 + a) 1 % 2 = 0 ∧ (s.site a).pend = false ∧
    s.mcrN (0x10000 + 512 * vd + 2) 2 ≤ a ∧ a < s.mcrN (0x10000 + 512 * vd + 2) 2 + (s.mcrN (0x10000 + 512 * vd + 4) 2 + 1)

/-- Bytes of an image of a tile: its memories at their own offsets, and the words of its header, registers and thread areas (R394, R395). -/
def imageHolds (m t : State) (a base : Nat) : Prop :=
  let x := m.tile a
  let at_ (off n : Nat) : Nat := t.readN (rimKey (base + off)) n
  (∀ off, off < 0x6000 ∨ (0x6400 ≤ off ∧ off < 0xAC00) → Mem.read t.mem (rimKey (base + off)) = Mem.read m.mem (tileKey a off)) ∧
  (∀ j < 6144, (at_ (0x6000 + j / 8) 1).testBit (j % 8) = m.isFull (tileKey a (4 * j))) ∧
  at_ 0x6300 4 = 1 ∧ at_ 0x6304 4 = x.vtn.toNat ∧ at_ 0x6308 8 = x.handle.toNat % 2 ^ 54 ∧ at_ 0x6310 4 = x.gsize.toNat ∧
  (∀ th < 4, (at_ 0x6314 1).testBit th = (m.thread a th).live ∧ at_ (0x6320 + 8 * th) 8 = (m.thread a th).seedSeq.toNat) ∧
  (∀ k < 16, at_ (0xACA0 + 4 * k) 4 = (vget x.c k 0).toNat) ∧ (∀ k < 4, at_ (0x6340 + 4 * k) 4 = (vget x.digest k 0).toNat) ∧
  (∀ k < 8, at_ (0xAC20 + 8 * k) 8 = (vget x.s k 0).toNat) ∧ at_ 0xAC60 1 = x.sfull.toNat ∧
  ∀ th < 4, (m.thread a th).live = true →
    let u := m.thread a th
    let area := if th = 0 then 0xB4A0 else 0xB5E0 + 848 * (th - 1)
    let pcAt := if th = 0 then area + 0xF8 else area + 0x108
    at_ pcAt 8 = u.pc.toNat ∧ at_ (pcAt + 8) 1 % 8 = u.tst.toNat % 8 ∧ at_ (pcAt + 16) 8 = u.tepc.toNat ∧ at_ (pcAt + 24) 8 = u.tval.toNat ∧
    at_ (pcAt + 32) 8 = u.tvec.toNat ∧ at_ (pcAt + 40) 8 = u.tscratch.toNat ∧
    (∀ n, 0 < n → n < 32 → at_ (area + 8 * (n - 1)) 8 = (vget u.g n 0).toNat) ∧
    (0 < th → (∀ n, 0 < n → n < 8 → at_ (area + 0xF8 + 2 * (n - 1)) 2 = (vget u.q n 0).toNat) ∧
      (∀ n < 32, at_ (area + 0x150 + 16 * n) 16 = (vget u.v n 0).toNat) ∧ at_ (area + 0x138) 8 = u.srkey.toNat ∧
      at_ (area + 0x140) 8 = u.srcnt.toNat ∧ at_ (area + 0x149) 1 = u.fst.toNat)

/-- A cruise report (R373). -/
def cruiseBytes (s : State) (kind vd gang : Nat) (handle : Word) (w : Nat) : PendingRecord :=
  ⟨.cruise, BitVec.ofNat 256 (kind + vd % 256 * 2 ^ 8 + s.mcrN 0x20 8 % 64 * 2 ^ 16 + gang % 2 ^ 32 * 2 ^ 32 + handle.toNat % 2 ^ 54 * 2 ^ 64 + w * 2 ^ 128)⟩

/-- Every site of a losing run has gained 16, up to 255, and no other score has changed (R371). -/
def scored (s t : State) (sites : List Nat) : Prop :=
  ∀ a, (t.site a).score.toNat = if a ∈ sites then min 255 ((s.site a).score.toNat + 16) else (s.site a).score.toNat

/-- A run of an audit that has retired in good order: the re-run, or the third run. -/
def finishedRun (s : State) (x : Audit) (r : Gang) : Prop :=
  s.audits.find? (fun y => y.handle == x.handle && y.gang == x.gang) = some x ∧ x.placed = true ∧ x.vd < 256 ∧
  s.run? x.handle x.gang (if x.second.isSome then .third else .rerun) = some r ∧ r.phase = .retired ∧ r.ended = false ∧ r.stalled = false ∧ r.sites = [] ∧
  s.overlays.all (fun o => !o.full) = true

/-- The 64 KiB pages of a grid's input regions and of its pad image, which its cruise-hold covers (R367). -/
def inputPages (g : Grid) : List Nat :=
  let pages (a n : Nat) : List Nat := if n = 0 then [] else
    (List.range ((a % 2 ^ 56 + n - 1) / 65536 + 1 - a % 2 ^ 56 / 65536)).map fun i => (a % 2 ^ 56 / 65536 + i) * 65536
  ((g.io.filter fun r => !r.output && r.addr.toNat / 2 ^ 60 == 4).flatMap fun r => pages r.addr.toNat r.len) ++ pages g.desc.image.toNat g.desc.imsz

/-- R17, R342, R349: where a gang starts, and how. -/
def gangStarts : Prop :=
  ∀ (s t : State) (g : Grid) (i : Nat) (r : Gang), calmGang s g i → (g.holds = true ∨ s.selected g i = false) → (g.image.isSome = true ∨ g.desc.imsz = 0) → Mem.wf (g.image.getD []) = true →
  (∀ c ∈ g.image.getD [], c.1 < 0x6000) → exec (.gangStart g.handle i) s = .next t → s.gang? g.handle i = none → t.gang? g.handle i = some r →
  r.sites.length = g.desc.gsz ∧ placedOn s g.vd r.sites ∧ (∀ (k a : Nat), r.sites[k]? = some a → startedAs s t g i k a .original) ∧
  entryN t g i % 65536 = r.sites.headD 0 ∧ entryN t g i / 2 ^ 16 % 4 = 1

/-- R368: where a re-run starts, and how. -/
def rerunStarts : Prop :=
  ∀ (s t : State) (g : Grid) (x : Audit) (n : Nat) (r : Gang), calmGang s g x.gang → x.handle = g.handle → x.vd = g.vd →
  s.audits.filter (fun y => y.handle == x.handle && y.gang == x.gang) = [x] → (n = 1 ∨ n = 2) → Mem.wf (g.image.getD []) = true →
  (∀ c ∈ g.image.getD [], c.1 < 0x6000) → exec (.gangStart g.handle (x.gang + 65536 * n)) s = .next t →
  let mark := if n = 1 then RunMark.rerun else .third
  s.run? g.handle x.gang mark = none → t.run? g.handle x.gang mark = some r →
  r.sites.length = g.desc.gsz ∧ placedOn s g.vd r.sites ∧ (∀ a ∈ r.sites, a ∉ x.firstSites ∧ (n = 2 → a ∉ x.secondSites)) ∧
  ∀ (k a : Nat), r.sites[k]? = some a → startedAs s t g x.gang k a mark

/-- R393 to R395: what a swap-out writes and frees. -/
def gangSwapsOut : Prop :=
  ∀ (s t : State) (g : Grid) (r r' : Gang) (b : SwapBlock), calmGang s g r.index → r.handle = g.handle → r.mark = .original →
  (∀ w ∈ s.full, w % 4 = 0) →
  s.gang? g.handle r.index = some r → r.phase = .stopping → r.cancelTrap = false → r.sites.Nodup →
  (∀ (k a : Nat), r.sites[k]? = some a → State.isCore a = false ∧ (s.tiles.filter fun y => y.1 == a).length = 1 ∧ (s.tile a).handle = g.handle ∧
    (s.tile a).vtn.toNat = r.index * 65536 + k ∧ (s.tile a).mark = .original ∧ a < 65536 ∧ ∀ off, 0x6000 ≤ off → off < 0x6300 → Mem.read s.mem (tileKey a off) = 0) →
  exec (.gangSwapOut g.handle r.index) s = .next t → t.gang? g.handle r.index = some r' → r'.imageBlock = some b → r'.phase = .swappedOut →
  entryN t g r.index / 2 ^ 16 % 4 = 0 ∧ r'.images.length = r.sites.length ∧
  ∀ (k a : Nat), r.sites[k]? = some a → (t.site a).state = (if (s.site a).pend = true then .quarantined else .free) ∧
    ∃ p, r'.images[k]? = some p ∧ b.base ≤ p ∧ p + 49152 ≤ b.base + b.bytes ∧ imageHolds s t a p

/-- R393 to R395: what a swap-in makes of the images. -/
def gangSwapsIn : Prop :=
  ∀ (s t : State) (g : Grid) (r r' : Gang) (b : SwapBlock), calmGang s g r.index → r.handle = g.handle → r.vd = g.vd → r.mark = .original →
  s.gang? g.handle r.index = some r → r.phase = .swappedOut → r.saved = [] → r.imageBlock = some b → b ∈ s.swap →
  (∀ p ∈ r.images, b.base ≤ p ∧ p + 49152 ≤ b.base + b.bytes) → b.base + b.bytes ≤ rimBytes → r.images.length = g.desc.gsz →
  (b.base + b.bytes ≤ g.table ∨ g.table + 32 * g.desc.gcnt ≤ b.base) → r.index < g.desc.gcnt →
  exec (.gangSwapIn g.handle r.index) s = .next t → t.gang? g.handle r.index = some r' → r'.phase = .resident →
  entryN t g r.index / 2 ^ 16 % 4 = 1 ∧ entryN t g r.index % 65536 = r'.sites.headD 0 ∧ placedOn s g.vd r'.sites ∧
  ∀ (k a p : Nat), r'.sites[k]? = some a → r.images[k]? = some p → (t.site a).state = .running ∧ (t.tile a).sealed = false ∧
    (s.readN (rimKey (p + 0x6304)) 4 = r.index * 65536 + k → s.readN (rimKey (p + 0x6300)) 4 = 1 →
      s.readN (rimKey (p + 0x6308)) 8 = g.handle.toNat % 2 ^ 54 → s.readN (rimKey (p + 0x6310)) 4 < 2 ^ 17 →
      (∀ j < 4, s.readN (rimKey (p + 0xB141 + 2 * j)) 1 = 0 ∧ s.readN (rimKey (p + 0xB140 + 2 * j)) 1 = 0) →
      (∀ j < 4, let area := if j = 0 then 0xB4A0 + 0xF8 else 0xB5E0 + 848 * (j - 1) + 0x108
        s.readN (rimKey (p + area)) 1 % 2 = 0 ∧ s.readN (rimKey (p + area + 32)) 1 % 2 = 0 ∧ s.readN (rimKey (p + area + 8)) 1 < 8) →
      (∀ j, 0 < j → j < 4 → s.readN (rimKey (p + 0xB5E0 + 848 * (j - 1) + 0x149)) 1 < 32) → imageHolds t s a p)

/-- R369 to R371, R373: what a verdict counts, scores and reports. -/
def verdictFalls : Prop :=
  ∀ (s : State) (g : Grid) (x : Audit) (r : Gang), s.grid? x.handle = some g → finishedRun s x r →
  ∃ t, exec (.rerunVerdict x.handle x.gang) s = .next t ∧
    let gone := t.audits.all fun y => !(y.handle == x.handle && y.gang == x.gang)
    let report (kind w : Nat) : Prop := gone = true ∧ t.records.getLast? = some (cruiseBytes s kind x.vd x.gang x.handle w)
    (x.second = none → r.digest = x.first → gone = true ∧ t.records = s.records ∧
      (if s.clean + 1 < 2 ^ 20 then t.clean = s.clean + 1 ∧ t.sites = s.sites
       else t.clean = 0 ∧ ∀ a, (t.site a).score.toNat = (s.site a).score.toNat - 1)) ∧
    (x.second = none → r.digest ≠ x.first → s.workingSites x.vd < 3 * g.desc.gsz → report 3 4 ∧ t.sites = s.sites) ∧
    (x.second = none → r.digest ≠ x.first → 3 * g.desc.gsz ≤ s.workingSites x.vd → t.records = s.records ∧ t.sites = s.sites ∧
      t.audits.find? (fun y => y.handle == x.handle && y.gang == x.gang) =
        some { x with second := some r.digest, secondSites := r.history, placed := false }) ∧
    (∀ d, x.second = some d → r.digest = x.first → report 1 2 ∧ scored s t x.secondSites) ∧
    (∀ d, x.second = some d → r.digest ≠ x.first → r.digest = d → report 1 1 ∧ scored s t x.firstSites) ∧
    (∀ d, x.second = some d → r.digest ≠ x.first → r.digest ≠ d → report 2 0 ∧ t.sites = s.sites)

/-- R367: what the end of a grid's audits clears. -/
def holdEnds : Prop :=
  ∀ (s : State) (g : Grid), Memory.wf s.mem = true → s.mcrN (0x10000 + 512 * g.vd + 8) 8 % 8 = 0 → s.grid? g.handle = some g → g.holds = true →
  s.auditsOver g = true → s.hostPending = [] → s.podPending = [] →
  (∀ x ∈ s.grids, x.handle ≠ g.handle → x.holds = false) →
  ∃ t g', exec (.cruiseHoldClear g.handle) s = .next t ∧ t.grid? g.handle = some g' ∧ g'.holds = false ∧
    let leafOf (va : Nat) := tableLeaf s g.vd g.desc.space (BitVec.ofNat 64 va)
    (∀ va ∈ inputPages g, ∀ bits pa e, leafOf va = some (bits, pa, e) → t.read64 (rimKey pa) = e &&& ~~~0x20#64) ∧
    ∀ k, Mem.read t.mem k ≠ Mem.read s.mem k → ∃ va ∈ inputPages g, ∃ bits pa e, leafOf va = some (bits, pa, e) ∧ k = rimKey pa

end Sys2Proof.Claims

/-- R17, R342, R349: a gang that has started stands on sites that were free, rising, of its VD's partition, one for each rank, each tile as R349
starts it; its entry names the first, with RES = 1 and MOVE = 0. R368: a cruise re-run is started alike, on none of the sites of the runs
before it. R393 to R395: the swap-out of a gang leaves, for every rank, its image in the swap region, its site free or quarantined, and
RES = 0, MOVE = 0; a swap-in makes of every image the tile that it describes, with RES = 1 and MOVE = 0. R369 to R371, R373: a
finished re-run with the original's digest is a clean verdict; one with another starts a third run, or ends the audit with a report of kind 3
where the partition is too small; the third run decides which run has lost, its sites gain 16 and the report names it. Which bit of the
report means which run is the model's choice (log 30). R367: at the end of its audits a grid's pages lose CH, in their leaf entries and nowhere else. -/
def Obligations.GangContent : Prop :=
  gangStarts ∧ rerunStarts ∧ gangSwapsOut ∧ gangSwapsIn ∧ verdictFalls ∧ holdEnds

namespace Sys2Proof.Claims

open Sys2Proof.Machine

/-! ### What the host, module software and the pod leave -/

/-- Nothing from outside waits, no doubleword is watched, poison stands on doublewords, and memory has its canonical form. -/
def calmOutside (s : State) : Prop :=
  Memory.wf s.mem = true ∧ s.hostPending = [] ∧ s.podPending = [] ∧ s.watches = [] ∧ ∀ d ∈ s.poison, d % 8 = 0

/-- Where the host's request for `n` bytes of its rim window leads, through a service core: the host's VD, space 0, U ignored (R410). -/
def hostPlace (s : State) (core : Nat) (addr : Word) (n : Nat) (write : Bool) : Option Nat :=
  unitAt s (State.entryStation (65536 + core)) (s.mcrN 0x80 1) 0 true addr n write

/-- A request of the host is over: one message leaves on its core's port, and nothing waits. -/
def hostAnswered (s t : State) (o : HostOut) : Prop := t.hostOut = s.hostOut ++ [o] ∧ t.hostPending = []

/-- The registers outside a doubleword read as before. -/
def elsewhereSame (s t : State) (off : Nat) : Prop := ∀ k, k < mcrKey off ∨ mcrKey off + 8 ≤ k → Mem.read t.mem k = Mem.read s.mem k

/-- The table of R412, column 'Host writes': the feature request, the nonce, the request and the address of attestation, and TAIL and ERR of
the 16 launch queues. -/
def hostMay (off : Nat) : Word :=
  if 0x40 ≤ off ∧ off < 0x50 ∨ 0x200 ≤ off ∧ off < 0x230 then BitVec.allOnes 64
  else if 0x1100 ≤ off ∧ off < 0x1300 then (match off / 8 % 4 with | 1 => 0xFFFFFFFF00000000 | 3 => 1 | _ => 0) else 0

/-- Registers that stand as they were written: not the identity's part code, the read-watch window, word 0 of a VD entry or a course's
voltage. -/
def standing_ (off : Nat) : Bool :=
  decide (8 ≤ off) && !(decide (0x3400 ≤ off) && decide (off < 0x3800)) && !(decide (0x10000 ≤ off) && decide (off < 0x30000) && off % 512 == 0) &&
  !(decide (0x50000 ≤ off) && decide (off < 0x54000))

/-- What module software's writes leave of a register that acts on nothing else (R412 to R415, R418): VD assignment, attestation, seed log but its
TAIL, queue descriptors, launch queues, read-watch select, routes and the course tables; every other one keeps its value. -/
def softMay (off : Nat) : Word :=
  let within (a n : Nat) : Bool := decide (a ≤ off) && decide (off < a + n)
  if within 0x80 8 then 0xFF else if within 0x88 8 then 0xFFFFFFFF
  else if within 0x200 0x30 || (within 0x1000 0x30 && off != 0x1018) || within 0x1040 16 || within 0x40000 0x10000 then BitVec.allOnes 64
  else if within 0x1100 0x200 then (if off / 8 % 4 = 3 then 0xFFFFFFFF00000001 else BitVec.allOnes 64)
  else if within 0x3000 8 then 0x7FFFF else if within 0x4000 0x200 then 0xBF3F else 0

/-- Registers whose write acts on something else, which other clauses state, and the module number. -/
def acting (off : Nat) : Bool :=
  off == 0x20 || off == 0x40 || off == 0x48 || (decide (0x2000 ≤ off) && decide (off < 0x2200)) || (decide (0x10000 ≤ off) && decide (off < 0x30000)) ||
  (decide (0x60000 ≤ off) && decide (off < 0x70000))

/-- The bits that the table of R413 gives a field, in a doubleword of a VD entry. -/
def entryBits (off : Nat) : Word :=
  if off = 24 then 0xFFFFFFFFFFFF00FF else if off = 48 then 0xFFFFFFFF else if off < 80 then BitVec.allOnes 64
  else if 128 ≤ off ∧ off < 384 then 0xFFFF01FFFFFF01FF else 0

/-- A site holds no tile. -/
def vacant (s : State) (a : Nat) : Bool := let st := s.siteState a; st == .free || st == .defective || st == .quarantined

/-- A VD's interval of sites. -/
def owns (s : State) (vd a : Nat) : Bool :=
  s.mcrN (0x10000 + 512 * vd) 1 % 2 == 1 && decide (s.mcrN (0x10000 + 512 * vd + 2) 2 ≤ a) &&
  decide (a < s.mcrN (0x10000 + 512 * vd + 2) 2 + (s.mcrN (0x10000 + 512 * vd + 4) 2 + 1))

/-- The interval that word 0 of a VD entry gives, and whether R388, R421 and R423 allow it: inside the sites, apart from every other active VD, at
most 64 VDs active, the feature granted, not in recovery, and every site that it leaves without a tile. -/
def given (v : Word) (a : Nat) : Bool := v.getLsbD 0 && decide (v.toNat / 2 ^ 16 % 2 ^ 16 ≤ a) && decide (a < v.toNat / 2 ^ 16 % 2 ^ 16 + (v.toNat / 2 ^ 32 % 2 ^ 16 + 1))
def mayBe (s : State) (vd : Nat) (v : Word) : Prop :=
  (v.getLsbD 0 = true → v.toNat / 2 ^ 16 % 2 ^ 16 + (v.toNat / 2 ^ 32 % 2 ^ 16 + 1) ≤ 65536 ∧ (∀ w < 256, w ≠ vd → ∀ a < 65536, owns s w a = true → given v a = false) ∧
    ((List.range 256).filter fun w => w != vd && s.mcrN (0x10000 + 512 * w) 1 % 2 == 1).length < 64 ∧ s.mcrN 0x50 16 % 2 = 1 ∧ s.recovery = false) ∧
  ∀ a < 131072, owns s vd a = true → given v a = false → vacant s a = true

/-- The code that the votes and the clocks of a course ask for (R424): the highest vote of an active VD with a site there, 10 where there is none, and
no less than 10, 4 or 0 for the divider of each RUNNING tile. -/
def votesOn (s : State) (c n : Nat) : Prop := ∃ vd < 256, Tab.get? s.votes vd = some n ∧ ∃ a, owns s vd a = true ∧ State.courseOf a = c
def floorsOn (s : State) (c n : Nat) : Prop := ∃ p ∈ s.tiles, State.isCore p.1 = false ∧ State.courseOf p.1 = c ∧ s.siteState p.1 = .running ∧
  n = (match (s.siteNow p.1).clkdiv.toNat with | 0 => 10 | 1 => 4 | _ => 0)
def codeIs (s : State) (c code vote : Nat) : Prop :=
  ((∃ n, votesOn s c n) → votesOn s c vote ∧ ∀ n, votesOn s c n → n ≤ vote) ∧ ((¬ ∃ n, votesOn s c n) → vote = 127) ∧
  let asked := if vote = 127 then 10 else vote
  asked ≤ code ∧ (∀ n, floorsOn s c n → n ≤ code) ∧ (code = asked ∨ floorsOn s c code)

/-- The record at HEAD of a launch queue: its address, and whether both of its SEQ fields are right (R414, R415). -/
def recordAddr (s : State) (q : Nat) : Word :=
  BitVec.ofNat 64 (s.mcrN (0x1100 + 32 * q) 8 + 64 * (s.mcrN (0x1100 + 32 * q + 16) 4 % s.mcrN (0x1100 + 32 * q + 8) 4))
def seqRight (s : State) (q key : Nat) : Prop :=
  let n := (s.mcrN (0x1100 + 32 * q + 16) 4 + 1) % 2 ^ 32
  s.readN key 8 = n ∧ s.readN (key + 56) 8 = n

/-- A launch queue has stopped: ERR, the failed position, and an interrupt on the port of its core (R415). -/
def queueStops (s t : State) (q : Nat) : Prop :=
  t.mcrN (0x1100 + 32 * q + 24) 8 = 1 + 2 ^ 32 * s.mcrN (0x1100 + 32 * q + 16) 4 ∧ Tab.get? t.hostQueues q = none ∧ t.net = s.net ∧
  t.hostOut = s.hostOut ++ [.interrupt (s.mcrN (0x1100 + 32 * q + 20) 4 % 4) q]

/-- R410, R412: what a host request changes and how it is answered. -/
def hostServed : Prop :=
  ∀ (s : State) (core n : Nat) (addr : Word) (d : BitVec 512), calmOutside s → core < 4 → (s.recovery = false ∨ core ≠ 0) →
  let legal := (n = 8 ∨ n = 64) ∧ addr.toNat % n = 0
  let lacking (write : Bool) : Prop := spaceThere s (s.mcrN 0x80 1) 0 = true ∧ addr.toNat / 2 ^ 60 = 4 ∧
    ∃ e, cachedLeaf s (State.entryStation (65536 + core)) (s.mcrN 0x80 1) 0 addr = some e ∧ e.leaf.getLsbD (if write then 2 else 1) = false
  (∃ t, exec (.hostWrite core addr n d) s = .next t ∧
    (¬ legal ∨ (addr.toNat / 2 ^ 60 ≠ 4 ∧ addr.toNat / 2 ^ 60 ≠ 12) ∨ lacking true → hostAnswered s t (.error core addr) ∧ t.mem = s.mem) ∧
    (∀ key, legal → hostPlace s core addr n true = some key → hostAnswered s t (.wrote core addr) ∧ bytesAre s t key n d.toNat) ∧
    (legal → addr.toNat / 2 ^ 60 = 12 → let off := addr.toNat % 2 ^ 24
      (n = 64 ∨ hostMay off = 0 → hostAnswered s t (.error core addr) ∧ t.mem = s.mem) ∧
      (n = 8 → hostMay off ≠ 0 → hostAnswered s t (.wrote core addr) ∧ (0x50 ≤ off → elsewhereSame s t off ∧
        t.read64 (mcrKey off) = (s.read64 (mcrKey off) &&& ~~~hostMay off) ||| (d.setWidth 64 &&& hostMay off))))) ∧
  ∃ t, exec (.hostRead core addr n) s = .next t ∧ t.mem = s.mem ∧
    (¬ legal ∨ (addr.toNat / 2 ^ 60 ≠ 4 ∧ addr.toNat / 2 ^ 60 ≠ 12) ∨ lacking false → hostAnswered s t (.error core addr)) ∧
    (∀ key, legal → hostPlace s core addr n false = some key →
      hostAnswered s t (if anyPoison s key n then .error core addr else .data core addr (BitVec.ofNat 512 (s.readN key n)))) ∧
    (legal → addr.toNat / 2 ^ 60 = 12 → ∃ v, hostAnswered s t (.data core addr v) ∧
      ∀ i < n / 8, let off := addr.toNat % 2 ^ 24 + 8 * i
        (standing_ off = true → v.toNat / 2 ^ (64 * i) % 2 ^ 64 = s.mcrN off 8) ∧ (off = 0 → v.toNat % 2 ^ 64 = 0x35362D574850))

/-- R388, R412, R413: what a register write of module software leaves. -/
def registersKept : Prop :=
  ∀ (s : State) (off : Nat) (v : Word), Memory.wf s.mem = true → off % 8 = 0 → off < 2 ^ 24 → ∃ t, exec (.mcrWrite off v) s = .next t ∧
  (acting off = false → elsewhereSame s t off ∧ t.read64 (mcrKey off) = (s.read64 (mcrKey off) &&& ~~~softMay off) ||| (v &&& softMay off)) ∧
  ∀ vd < 256, ∀ at_, off = 0x10000 + 512 * vd + at_ → at_ < 512 →
    (at_ ≠ 0 → elsewhereSame s t off ∧ t.read64 (mcrKey off) = v &&& entryBits at_) ∧
    (at_ = 0 → ¬ mayBe s vd v → t = s) ∧
    (at_ = 0 → mayBe s vd v → t.read64 (mcrKey off) = v &&& 0x0000FFFFFFFF0007 ∧
      (∀ a < 131072, given v a = true → owns s vd a = false → a ∈ t.zeroing) ∧
      (s.mcrN (0x10000 + 512 * vd) 1 % 2 = 1 → v.getLsbD 0 = false → ∀ g ∈ t.grids, g.vd ≠ vd) ∧
      (s.mcrN (0x10000 + 512 * vd) 1 % 2 = 1 → v.getLsbD 0 = false →
        (∀ x ∈ t.audits, x.vd ≠ vd) ∧ (∀ e ∈ t.tlb, e.vd ≠ vd) ∧ ∀ l ∈ t.icache, l.vd ≠ vd))

/-- R423: what a feature request leaves. -/
def featuresGranted : Prop :=
  ∀ (s : State) (v : BitVec 128), Memory.wf s.mem = true → ∃ t, exec (.featureRequestWrite v) s = .next t ∧
  ((∃ w < 256, s.mcrN (0x10000 + 512 * w) 1 % 2 = 1) → t = s) ∧
  ((∀ w < 256, s.mcrN (0x10000 + 512 * w) 1 % 2 = 0) → t.mcrN 0x40 16 = v.toNat ∧ t.mcrN 0x50 16 = v.toNat % 64 ∧
    ∀ k, k < mcrKey 0x40 ∨ mcrKey 0x60 ≤ k → Mem.read t.mem k = Mem.read s.mem k)

/-- R413, R426: what a write of power bits leaves. -/
def powerWritten : Prop :=
  ∀ (s : State) (a : Nat) (b : BitVec 2), Memory.wf s.mem = true → a < 65536 → ∃ t, exec (.sitePowerWrite a b) s = .next t ∧
  (∀ k, k ≠ mcrKey (0x60000 + a) → Mem.read t.mem k = Mem.read s.mem k) ∧
  t.mcrN (0x60000 + a) 1 = if vacant s a ∨ b = 0 then b.toNat else s.mcrN (0x60000 + a) 1

/-- R424: the codes at a window boundary. -/
def windowTurns : Prop :=
  ∀ s : State, Memory.wf s.mem = true → 8 * s.windows ≤ s.time.toNat → (∀ vd n, Tab.get? s.votes vd = some n → n < 127) →
  (∀ p ∈ s.tiles, ∀ th < 4, ∀ d, (s.thread p.1 th).park ≠ some (.voltage d)) →
  ∃ t, exec .voltageWindow s = .next t ∧ ∀ c < 4096, ∃ code vote, t.mcrN (0x50000 + 4 * c) 2 = code + 256 * vote ∧ codeIs s c code vote

/-- R422: the status of an attestation report. -/
def reportWritten : Prop :=
  ∀ s : State, calmOutside s → s.mcrN 0x220 8 = 1 → s.attestHold = none → let addr := s.read64 (mcrKey 0x228)
  ∃ t, exec .attestationRequest s = .next t ∧
    (∀ key, hostPlace s 0 addr 4096 true = some key → t.mcrN 0x230 8 = 1 ∧ t.mcrN 0x220 8 = 0 ∧
      ∀ k, (k < key ∨ key + 4096 ≤ k) → (k < mcrKey 0x220 ∨ mcrKey 0x238 ≤ k) → Mem.read t.mem k = Mem.read s.mem k) ∧
    (spaceThere s (s.mcrN 0x80 1) 0 = false → t.mcrN 0x230 8 = 2 ∧ ∀ k, (k < mcrKey 0x220 ∨ mcrKey 0x238 ≤ k) → Mem.read t.mem k = Mem.read s.mem k)

/-- R158: how a request of another module is answered. -/
def podServed : Prop :=
  ∀ (s : State) (m vd space n : Nat) (addr d : Word) (write : Bool), calmOutside s → (∀ x ∈ s.net, x.agent < 2 * 65536) → m < 64 → m ≠ s.moduleNo →
  s.mcrN (0x4000 + 8 * m) 2 / 2 ^ 15 % 2 = 1 → m ∉ s.podLeft → s.mcrN (0x4000 + 8 * m) 1 % 64 ∉ s.portsDown → addr.toNat / 2 ^ 60 = 5 →
  1 ≤ n → n ≤ 8 → addr.toNat % n = 0 →
  ∃ t, exec (.podRequest m vd space addr n write d) s = .next t ∧
    let here := BitVec.ofNat 64 (2 ^ 62 + addr.toNat % 2 ^ 50)
    let answered (cause : BitVec 8) (v : Word) : Prop := t.podPending = [] ∧ t.podOut = s.podOut ++ [{ module := m, addr := addr, cause := cause, data := v }]
    let good := s.mcrN (0x10000 + 512 * vd) 1 % 2 = 1 ∧ spaceThere s vd space = true
    (¬ good → answered 0x03 0 ∧ t.mem = s.mem) ∧
    (good → (∃ e, cachedLeaf s 0 vd space here = some e ∧ (e.leaf.getLsbD (if write then 2 else 1) = false ∨ e.leaf.getLsbD 4 = false)) →
      answered 0x06 0 ∧ t.mem = s.mem) ∧
    ∀ key, good → unitAt s 0 vd space false here n write = some key →
      (write = true → answered 0 0 ∧ bytesAre s t key n d.toNat) ∧
      (write = false → t.mem = s.mem ∧ if anyPoison s key n then answered 0x0A 0 else answered 0 (BitVec.ofNat 64 (s.readN key n)))

/-- R415: what a launch queue does with the record at HEAD. -/
def launchQueueServed : Prop :=
  ∀ (s : State) (q core : Nat), calmOutside s → q < 16 → core = s.mcrN (0x1100 + 32 * q + 20) 4 % 4 → core ∉ s.hostDown → 1 ≤ s.mcrN (0x1100 + 32 * q + 8) 4 →
  let head := s.mcrN (0x1100 + 32 * q + 16) 4
  let read (n : Nat) (t : State) : Prop := ∀ key, hostPlace s core (recordAddr s q) 64 false = some key →
    (anyPoison s key 64 = true → queueStops s t q) ∧
    (anyPoison s key 64 = false → seqRight s q key → t.mem = s.mem ∧ ∃ m, t.net = s.net ++ [m] ∧ m.kind = .launch (s.read64 (key + 8)) ∧
      m.vd = s.mcrN 0x80 1 ∧ m.queue = some q ∧ Tab.get? t.hostQueues q = some (.launched (s.read64 (key + 16)))) ∧
    (anyPoison s key 64 = false → ¬ seqRight s q key → if n < 16 then t.mem = s.mem ∧ t.net = s.net ∧ Tab.get? t.hostQueues q = some (.retry (n + 1)) else queueStops s t q)
  (Tab.get? s.hostQueues q = none → head ≠ s.mcrN (0x1100 + 32 * q + 12) 4 → s.mcrN (0x1100 + 32 * q + 24) 1 % 2 = 0 →
    ∃ t, exec (.hostLaunchRecordRead q) s = .next t ∧ read 0 t) ∧
  (∀ n, Tab.get? s.hostQueues q = some (.retry n) → ∃ t, exec (.hostRecordRetry q) s = .next t ∧ read n t) ∧
  ∀ (result v : Word) (hold : Park), Tab.get? s.hostQueues q = some (.storing result v hold) → (∀ x, hold ≠ .pageFault x) → result.toNat % 8 = 0 →
    ∃ t, exec (.hostLaunchRecordRead q) s = .next t ∧
      (result = 0 ∨ (∃ key, hostPlace s core result 8 true = some key) → t.mcrN (0x1100 + 32 * q + 16) 4 = (head + 1) % 2 ^ 32 ∧ Tab.get? t.hostQueues q = none) ∧
      ∀ key, result ≠ 0 → hostPlace s core result 8 true = some key → t.read64 key = v

end Sys2Proof.Claims

/-- R410: a host write through a cached leaf changes exactly its bytes, and a read returns them; both are answered with an error completion, nothing
being written, where the size or alignment is not legal, the tag is neither 0x4 nor 0xC, the leaf lacks the permission, or what is read is
poisoned. R412: the host's write of a register changes the bits that the table lets it write and no others, and elsewhere is an error
completion; its read returns the registers; module software's write keeps what the table gives each register. R413, R388: a VD entry takes
the interval of its word 0 where that is allowed, its new sites' vaults are to be zeroed, and a VD that is destroyed leaves no grid, audit, translation
or line; elsewhere the write changes nothing. R423, R426: the feature grant is the request's six features, taken only while no VD is active;
power bits are set only at a site without a tile. R424: at a window boundary every course takes its code; 127 for no vote is log 33. R422: the
status of a report tells whether its address was good; that the request field then reads 0 is log 22. R158: another module's request reads or
writes the partner's bytes, or is answered with 0x03, 0x06 or 0x0A; it enters at station 0 (log 27). R415: a launch queue's valid record starts a
LAUNCH for the host's VD, another is read again up to 16 times, and then, or at once where it is poisoned, the queue stops; a handle is stored,
and HEAD advances. -/
def Obligations.PlatformContent : Prop :=
  hostServed ∧ registersKept ∧ featuresGranted ∧ powerWritten ∧ windowTurns ∧ reportWritten ∧ podServed ∧ launchQueueServed
end

