-- ==== Sys2Proof/Laws/State.lean ====
section
/-! SUPPORT. One lemma per field per named update of the state: what the update leaves alone. -/

namespace Sys2Proof.Machine.State

section
variable (s : State) (key n v : Nat)
@[simp] theorem pokeN_full : (s.pokeN key n v).full = s.full := rfl
@[simp] theorem pokeN_poison : (s.pokeN key n v).poison = s.poison := rfl
@[simp] theorem pokeN_tiles : (s.pokeN key n v).tiles = s.tiles := rfl
@[simp] theorem pokeN_sites : (s.pokeN key n v).sites = s.sites := rfl
@[simp] theorem pokeN_fe : (s.pokeN key n v).fe = s.fe := rfl
@[simp] theorem pokeN_resv : (s.pokeN key n v).resv = s.resv := rfl
@[simp] theorem pokeN_rejected : (s.pokeN key n v).rejected = s.rejected := rfl
@[simp] theorem pokeN_holders : (s.pokeN key n v).holders = s.holders := rfl
@[simp] theorem pokeN_orders : (s.pokeN key n v).orders = s.orders := rfl
@[simp] theorem pokeN_watches : (s.pokeN key n v).watches = s.watches := rfl
@[simp] theorem pokeN_remains : (s.pokeN key n v).remains = s.remains := rfl
@[simp] theorem pokeN_oldWatches : (s.pokeN key n v).oldWatches = s.oldWatches := rfl
@[simp] theorem pokeN_flash : (s.pokeN key n v).flash = s.flash := rfl
@[simp] theorem pokeN_decided : (s.pokeN key n v).decided = s.decided := rfl
@[simp] theorem pokeN_tlb : (s.pokeN key n v).tlb = s.tlb := rfl
@[simp] theorem pokeN_walks : (s.pokeN key n v).walks = s.walks := rfl
@[simp] theorem pokeN_rimFaults : (s.pokeN key n v).rimFaults = s.rimFaults := rfl
@[simp] theorem pokeN_icache : (s.pokeN key n v).icache = s.icache := rfl
@[simp] theorem pokeN_fills : (s.pokeN key n v).fills = s.fills := rfl
@[simp] theorem pokeN_tlbPlru : (s.pokeN key n v).tlbPlru = s.tlbPlru := rfl
@[simp] theorem pokeN_plru : (s.pokeN key n v).plru = s.plru := rfl
@[simp] theorem pokeN_zeroing : (s.pokeN key n v).zeroing = s.zeroing := rfl
@[simp] theorem pokeN_net : (s.pokeN key n v).net = s.net := rfl
@[simp] theorem pokeN_nextMsg : (s.pokeN key n v).nextMsg = s.nextMsg := rfl
@[simp] theorem pokeN_links : (s.pokeN key n v).links = s.links := rfl
@[simp] theorem pokeN_sentWords : (s.pokeN key n v).sentWords = s.sentWords := rfl
@[simp] theorem pokeN_grids : (s.pokeN key n v).grids = s.grids := rfl
@[simp] theorem pokeN_gangs : (s.pokeN key n v).gangs = s.gangs := rfl
@[simp] theorem pokeN_tileFaults : (s.pokeN key n v).tileFaults = s.tileFaults := rfl
@[simp] theorem pokeN_faultTag : (s.pokeN key n v).faultTag = s.faultTag := rfl
@[simp] theorem pokeN_overlays : (s.pokeN key n v).overlays = s.overlays := rfl
@[simp] theorem pokeN_records : (s.pokeN key n v).records = s.records := rfl
@[simp] theorem pokeN_swap : (s.pokeN key n v).swap = s.swap := rfl
@[simp] theorem pokeN_swapCount : (s.pokeN key n v).swapCount = s.swapCount := rfl
@[simp] theorem pokeN_serials : (s.pokeN key n v).serials = s.serials := rfl
@[simp] theorem pokeN_withheld : (s.pokeN key n v).withheld = s.withheld := rfl
@[simp] theorem pokeN_budgetUsed : (s.pokeN key n v).budgetUsed = s.budgetUsed := rfl
@[simp] theorem pokeN_stackStep : (s.pokeN key n v).stackStep = s.stackStep := rfl
@[simp] theorem pokeN_votes : (s.pokeN key n v).votes = s.votes := rfl
@[simp] theorem pokeN_volts : (s.pokeN key n v).volts = s.volts := rfl
@[simp] theorem pokeN_windows : (s.pokeN key n v).windows = s.windows := rfl
@[simp] theorem pokeN_entropyFailing : (s.pokeN key n v).entropyFailing = s.entropyFailing := rfl
@[simp] theorem pokeN_audits : (s.pokeN key n v).audits = s.audits := rfl
@[simp] theorem pokeN_clean : (s.pokeN key n v).clean = s.clean := rfl
@[simp] theorem pokeN_rerunService : (s.pokeN key n v).rerunService = s.rerunService := rfl
@[simp] theorem pokeN_rerunWindow : (s.pokeN key n v).rerunWindow = s.rerunWindow := rfl
@[simp] theorem pokeN_away : (s.pokeN key n v).away = s.away := rfl
@[simp] theorem pokeN_heldReports : (s.pokeN key n v).heldReports = s.heldReports := rfl
@[simp] theorem pokeN_copyRest : (s.pokeN key n v).copyRest = s.copyRest := rfl
@[simp] theorem pokeN_nextCopy : (s.pokeN key n v).nextCopy = s.nextCopy := rfl
@[simp] theorem pokeN_hostPending : (s.pokeN key n v).hostPending = s.hostPending := rfl
@[simp] theorem pokeN_hostOut : (s.pokeN key n v).hostOut = s.hostOut := rfl
@[simp] theorem pokeN_hostQueues : (s.pokeN key n v).hostQueues = s.hostQueues := rfl
@[simp] theorem pokeN_podPending : (s.pokeN key n v).podPending = s.podPending := rfl
@[simp] theorem pokeN_podOut : (s.pokeN key n v).podOut = s.podOut := rfl
@[simp] theorem pokeN_portsDown : (s.pokeN key n v).portsDown = s.portsDown := rfl
@[simp] theorem pokeN_downAt : (s.pokeN key n v).downAt = s.downAt := rfl
@[simp] theorem pokeN_flitReplays : (s.pokeN key n v).flitReplays = s.flitReplays := rfl
@[simp] theorem pokeN_podLeft : (s.pokeN key n v).podLeft = s.podLeft := rfl
@[simp] theorem pokeN_hostDown : (s.pokeN key n v).hostDown = s.hostDown := rfl
@[simp] theorem pokeN_recovery : (s.pokeN key n v).recovery = s.recovery := rfl
@[simp] theorem pokeN_attestHold : (s.pokeN key n v).attestHold = s.attestHold := rfl
@[simp] theorem pokeN_service : (s.pokeN key n v).service = s.service := rfl
@[simp] theorem pokeN_measured : (s.pokeN key n v).measured = s.measured := rfl
@[simp] theorem pokeN_booted : (s.pokeN key n v).booted = s.booted := rfl
@[simp] theorem pokeN_time : (s.pokeN key n v).time = s.time := rfl
@[simp] theorem pokeN_cur : (s.pokeN key n v).cur = s.cur := rfl
@[simp] theorem pokeN_split : (s.pokeN key n v).split = s.split := rfl
@[simp] theorem pokeN_agenda : (s.pokeN key n v).agenda = s.agenda := rfl
@[simp] theorem pokeN_choice : (s.pokeN key n v).choice = s.choice := rfl
@[simp] theorem pokeN_free : (s.pokeN key n v).free = s.free := rfl
end

section
variable (s : State) (k : Nat) (b : Bool)
@[simp] theorem setFull_mem : (s.setFull k b).mem = s.mem := rfl
@[simp] theorem setFull_poison : (s.setFull k b).poison = s.poison := rfl
@[simp] theorem setFull_tiles : (s.setFull k b).tiles = s.tiles := rfl
@[simp] theorem setFull_sites : (s.setFull k b).sites = s.sites := rfl
@[simp] theorem setFull_fe : (s.setFull k b).fe = s.fe := rfl
@[simp] theorem setFull_resv : (s.setFull k b).resv = s.resv := rfl
@[simp] theorem setFull_rejected : (s.setFull k b).rejected = s.rejected := rfl
@[simp] theorem setFull_holders : (s.setFull k b).holders = s.holders := rfl
@[simp] theorem setFull_orders : (s.setFull k b).orders = s.orders := rfl
@[simp] theorem setFull_watches : (s.setFull k b).watches = s.watches := rfl
@[simp] theorem setFull_remains : (s.setFull k b).remains = s.remains := rfl
@[simp] theorem setFull_oldWatches : (s.setFull k b).oldWatches = s.oldWatches := rfl
@[simp] theorem setFull_flash : (s.setFull k b).flash = s.flash := rfl
@[simp] theorem setFull_decided : (s.setFull k b).decided = s.decided := rfl
@[simp] theorem setFull_tlb : (s.setFull k b).tlb = s.tlb := rfl
@[simp] theorem setFull_walks : (s.setFull k b).walks = s.walks := rfl
@[simp] theorem setFull_rimFaults : (s.setFull k b).rimFaults = s.rimFaults := rfl
@[simp] theorem setFull_icache : (s.setFull k b).icache = s.icache := rfl
@[simp] theorem setFull_fills : (s.setFull k b).fills = s.fills := rfl
@[simp] theorem setFull_tlbPlru : (s.setFull k b).tlbPlru = s.tlbPlru := rfl
@[simp] theorem setFull_plru : (s.setFull k b).plru = s.plru := rfl
@[simp] theorem setFull_zeroing : (s.setFull k b).zeroing = s.zeroing := rfl
@[simp] theorem setFull_net : (s.setFull k b).net = s.net := rfl
@[simp] theorem setFull_nextMsg : (s.setFull k b).nextMsg = s.nextMsg := rfl
@[simp] theorem setFull_links : (s.setFull k b).links = s.links := rfl
@[simp] theorem setFull_sentWords : (s.setFull k b).sentWords = s.sentWords := rfl
@[simp] theorem setFull_grids : (s.setFull k b).grids = s.grids := rfl
@[simp] theorem setFull_gangs : (s.setFull k b).gangs = s.gangs := rfl
@[simp] theorem setFull_tileFaults : (s.setFull k b).tileFaults = s.tileFaults := rfl
@[simp] theorem setFull_faultTag : (s.setFull k b).faultTag = s.faultTag := rfl
@[simp] theorem setFull_overlays : (s.setFull k b).overlays = s.overlays := rfl
@[simp] theorem setFull_records : (s.setFull k b).records = s.records := rfl
@[simp] theorem setFull_swap : (s.setFull k b).swap = s.swap := rfl
@[simp] theorem setFull_swapCount : (s.setFull k b).swapCount = s.swapCount := rfl
@[simp] theorem setFull_serials : (s.setFull k b).serials = s.serials := rfl
@[simp] theorem setFull_withheld : (s.setFull k b).withheld = s.withheld := rfl
@[simp] theorem setFull_budgetUsed : (s.setFull k b).budgetUsed = s.budgetUsed := rfl
@[simp] theorem setFull_stackStep : (s.setFull k b).stackStep = s.stackStep := rfl
@[simp] theorem setFull_votes : (s.setFull k b).votes = s.votes := rfl
@[simp] theorem setFull_volts : (s.setFull k b).volts = s.volts := rfl
@[simp] theorem setFull_windows : (s.setFull k b).windows = s.windows := rfl
@[simp] theorem setFull_entropyFailing : (s.setFull k b).entropyFailing = s.entropyFailing := rfl
@[simp] theorem setFull_audits : (s.setFull k b).audits = s.audits := rfl
@[simp] theorem setFull_clean : (s.setFull k b).clean = s.clean := rfl
@[simp] theorem setFull_rerunService : (s.setFull k b).rerunService = s.rerunService := rfl
@[simp] theorem setFull_rerunWindow : (s.setFull k b).rerunWindow = s.rerunWindow := rfl
@[simp] theorem setFull_away : (s.setFull k b).away = s.away := rfl
@[simp] theorem setFull_heldReports : (s.setFull k b).heldReports = s.heldReports := rfl
@[simp] theorem setFull_copyRest : (s.setFull k b).copyRest = s.copyRest := rfl
@[simp] theorem setFull_nextCopy : (s.setFull k b).nextCopy = s.nextCopy := rfl
@[simp] theorem setFull_hostPending : (s.setFull k b).hostPending = s.hostPending := rfl
@[simp] theorem setFull_hostOut : (s.setFull k b).hostOut = s.hostOut := rfl
@[simp] theorem setFull_hostQueues : (s.setFull k b).hostQueues = s.hostQueues := rfl
@[simp] theorem setFull_podPending : (s.setFull k b).podPending = s.podPending := rfl
@[simp] theorem setFull_podOut : (s.setFull k b).podOut = s.podOut := rfl
@[simp] theorem setFull_portsDown : (s.setFull k b).portsDown = s.portsDown := rfl
@[simp] theorem setFull_downAt : (s.setFull k b).downAt = s.downAt := rfl
@[simp] theorem setFull_flitReplays : (s.setFull k b).flitReplays = s.flitReplays := rfl
@[simp] theorem setFull_podLeft : (s.setFull k b).podLeft = s.podLeft := rfl
@[simp] theorem setFull_hostDown : (s.setFull k b).hostDown = s.hostDown := rfl
@[simp] theorem setFull_recovery : (s.setFull k b).recovery = s.recovery := rfl
@[simp] theorem setFull_attestHold : (s.setFull k b).attestHold = s.attestHold := rfl
@[simp] theorem setFull_service : (s.setFull k b).service = s.service := rfl
@[simp] theorem setFull_measured : (s.setFull k b).measured = s.measured := rfl
@[simp] theorem setFull_booted : (s.setFull k b).booted = s.booted := rfl
@[simp] theorem setFull_time : (s.setFull k b).time = s.time := rfl
@[simp] theorem setFull_cur : (s.setFull k b).cur = s.cur := rfl
@[simp] theorem setFull_split : (s.setFull k b).split = s.split := rfl
@[simp] theorem setFull_agenda : (s.setFull k b).agenda = s.agenda := rfl
@[simp] theorem setFull_choice : (s.setFull k b).choice = s.choice := rfl
@[simp] theorem setFull_free : (s.setFull k b).free = s.free := rfl
end

section
variable (s : State) (a : Nat) (t : Tile)
@[simp] theorem setTile_mem : (s.setTile a t).mem = s.mem := rfl
@[simp] theorem setTile_full : (s.setTile a t).full = s.full := rfl
@[simp] theorem setTile_poison : (s.setTile a t).poison = s.poison := rfl
@[simp] theorem setTile_sites : (s.setTile a t).sites = s.sites := rfl
@[simp] theorem setTile_fe : (s.setTile a t).fe = s.fe := rfl
@[simp] theorem setTile_resv : (s.setTile a t).resv = s.resv := rfl
@[simp] theorem setTile_rejected : (s.setTile a t).rejected = s.rejected := rfl
@[simp] theorem setTile_holders : (s.setTile a t).holders = s.holders := rfl
@[simp] theorem setTile_orders : (s.setTile a t).orders = s.orders := rfl
@[simp] theorem setTile_watches : (s.setTile a t).watches = s.watches := rfl
@[simp] theorem setTile_remains : (s.setTile a t).remains = s.remains := rfl
@[simp] theorem setTile_oldWatches : (s.setTile a t).oldWatches = s.oldWatches := rfl
@[simp] theorem setTile_flash : (s.setTile a t).flash = s.flash := rfl
@[simp] theorem setTile_decided : (s.setTile a t).decided = s.decided := rfl
@[simp] theorem setTile_tlb : (s.setTile a t).tlb = s.tlb := rfl
@[simp] theorem setTile_walks : (s.setTile a t).walks = s.walks := rfl
@[simp] theorem setTile_rimFaults : (s.setTile a t).rimFaults = s.rimFaults := rfl
@[simp] theorem setTile_icache : (s.setTile a t).icache = s.icache := rfl
@[simp] theorem setTile_fills : (s.setTile a t).fills = s.fills := rfl
@[simp] theorem setTile_tlbPlru : (s.setTile a t).tlbPlru = s.tlbPlru := rfl
@[simp] theorem setTile_plru : (s.setTile a t).plru = s.plru := rfl
@[simp] theorem setTile_zeroing : (s.setTile a t).zeroing = s.zeroing := rfl
@[simp] theorem setTile_net : (s.setTile a t).net = s.net := rfl
@[simp] theorem setTile_nextMsg : (s.setTile a t).nextMsg = s.nextMsg := rfl
@[simp] theorem setTile_links : (s.setTile a t).links = s.links := rfl
@[simp] theorem setTile_sentWords : (s.setTile a t).sentWords = s.sentWords := rfl
@[simp] theorem setTile_grids : (s.setTile a t).grids = s.grids := rfl
@[simp] theorem setTile_gangs : (s.setTile a t).gangs = s.gangs := rfl
@[simp] theorem setTile_tileFaults : (s.setTile a t).tileFaults = s.tileFaults := rfl
@[simp] theorem setTile_faultTag : (s.setTile a t).faultTag = s.faultTag := rfl
@[simp] theorem setTile_overlays : (s.setTile a t).overlays = s.overlays := rfl
@[simp] theorem setTile_records : (s.setTile a t).records = s.records := rfl
@[simp] theorem setTile_swap : (s.setTile a t).swap = s.swap := rfl
@[simp] theorem setTile_swapCount : (s.setTile a t).swapCount = s.swapCount := rfl
@[simp] theorem setTile_serials : (s.setTile a t).serials = s.serials := rfl
@[simp] theorem setTile_withheld : (s.setTile a t).withheld = s.withheld := rfl
@[simp] theorem setTile_budgetUsed : (s.setTile a t).budgetUsed = s.budgetUsed := rfl
@[simp] theorem setTile_stackStep : (s.setTile a t).stackStep = s.stackStep := rfl
@[simp] theorem setTile_votes : (s.setTile a t).votes = s.votes := rfl
@[simp] theorem setTile_volts : (s.setTile a t).volts = s.volts := rfl
@[simp] theorem setTile_windows : (s.setTile a t).windows = s.windows := rfl
@[simp] theorem setTile_entropyFailing : (s.setTile a t).entropyFailing = s.entropyFailing := rfl
@[simp] theorem setTile_audits : (s.setTile a t).audits = s.audits := rfl
@[simp] theorem setTile_clean : (s.setTile a t).clean = s.clean := rfl
@[simp] theorem setTile_rerunService : (s.setTile a t).rerunService = s.rerunService := rfl
@[simp] theorem setTile_rerunWindow : (s.setTile a t).rerunWindow = s.rerunWindow := rfl
@[simp] theorem setTile_away : (s.setTile a t).away = s.away := rfl
@[simp] theorem setTile_heldReports : (s.setTile a t).heldReports = s.heldReports := rfl
@[simp] theorem setTile_copyRest : (s.setTile a t).copyRest = s.copyRest := rfl
@[simp] theorem setTile_nextCopy : (s.setTile a t).nextCopy = s.nextCopy := rfl
@[simp] theorem setTile_hostPending : (s.setTile a t).hostPending = s.hostPending := rfl
@[simp] theorem setTile_hostOut : (s.setTile a t).hostOut = s.hostOut := rfl
@[simp] theorem setTile_hostQueues : (s.setTile a t).hostQueues = s.hostQueues := rfl
@[simp] theorem setTile_podPending : (s.setTile a t).podPending = s.podPending := rfl
@[simp] theorem setTile_podOut : (s.setTile a t).podOut = s.podOut := rfl
@[simp] theorem setTile_portsDown : (s.setTile a t).portsDown = s.portsDown := rfl
@[simp] theorem setTile_downAt : (s.setTile a t).downAt = s.downAt := rfl
@[simp] theorem setTile_flitReplays : (s.setTile a t).flitReplays = s.flitReplays := rfl
@[simp] theorem setTile_podLeft : (s.setTile a t).podLeft = s.podLeft := rfl
@[simp] theorem setTile_hostDown : (s.setTile a t).hostDown = s.hostDown := rfl
@[simp] theorem setTile_recovery : (s.setTile a t).recovery = s.recovery := rfl
@[simp] theorem setTile_attestHold : (s.setTile a t).attestHold = s.attestHold := rfl
@[simp] theorem setTile_service : (s.setTile a t).service = s.service := rfl
@[simp] theorem setTile_measured : (s.setTile a t).measured = s.measured := rfl
@[simp] theorem setTile_booted : (s.setTile a t).booted = s.booted := rfl
@[simp] theorem setTile_time : (s.setTile a t).time = s.time := rfl
@[simp] theorem setTile_cur : (s.setTile a t).cur = s.cur := rfl
@[simp] theorem setTile_split : (s.setTile a t).split = s.split := rfl
@[simp] theorem setTile_agenda : (s.setTile a t).agenda = s.agenda := rfl
@[simp] theorem setTile_choice : (s.setTile a t).choice = s.choice := rfl
@[simp] theorem setTile_free : (s.setTile a t).free = s.free := rfl
end

section
variable (s : State) (a : Nat) (f : Tile → Tile)
@[simp] theorem modTile_mem : (s.modTile a f).mem = s.mem := rfl
@[simp] theorem modTile_full : (s.modTile a f).full = s.full := rfl
@[simp] theorem modTile_poison : (s.modTile a f).poison = s.poison := rfl
@[simp] theorem modTile_sites : (s.modTile a f).sites = s.sites := rfl
@[simp] theorem modTile_fe : (s.modTile a f).fe = s.fe := rfl
@[simp] theorem modTile_resv : (s.modTile a f).resv = s.resv := rfl
@[simp] theorem modTile_rejected : (s.modTile a f).rejected = s.rejected := rfl
@[simp] theorem modTile_holders : (s.modTile a f).holders = s.holders := rfl
@[simp] theorem modTile_orders : (s.modTile a f).orders = s.orders := rfl
@[simp] theorem modTile_watches : (s.modTile a f).watches = s.watches := rfl
@[simp] theorem modTile_remains : (s.modTile a f).remains = s.remains := rfl
@[simp] theorem modTile_oldWatches : (s.modTile a f).oldWatches = s.oldWatches := rfl
@[simp] theorem modTile_flash : (s.modTile a f).flash = s.flash := rfl
@[simp] theorem modTile_decided : (s.modTile a f).decided = s.decided := rfl
@[simp] theorem modTile_tlb : (s.modTile a f).tlb = s.tlb := rfl
@[simp] theorem modTile_walks : (s.modTile a f).walks = s.walks := rfl
@[simp] theorem modTile_rimFaults : (s.modTile a f).rimFaults = s.rimFaults := rfl
@[simp] theorem modTile_icache : (s.modTile a f).icache = s.icache := rfl
@[simp] theorem modTile_fills : (s.modTile a f).fills = s.fills := rfl
@[simp] theorem modTile_tlbPlru : (s.modTile a f).tlbPlru = s.tlbPlru := rfl
@[simp] theorem modTile_plru : (s.modTile a f).plru = s.plru := rfl
@[simp] theorem modTile_zeroing : (s.modTile a f).zeroing = s.zeroing := rfl
@[simp] theorem modTile_net : (s.modTile a f).net = s.net := rfl
@[simp] theorem modTile_nextMsg : (s.modTile a f).nextMsg = s.nextMsg := rfl
@[simp] theorem modTile_links : (s.modTile a f).links = s.links := rfl
@[simp] theorem modTile_sentWords : (s.modTile a f).sentWords = s.sentWords := rfl
@[simp] theorem modTile_grids : (s.modTile a f).grids = s.grids := rfl
@[simp] theorem modTile_gangs : (s.modTile a f).gangs = s.gangs := rfl
@[simp] theorem modTile_tileFaults : (s.modTile a f).tileFaults = s.tileFaults := rfl
@[simp] theorem modTile_faultTag : (s.modTile a f).faultTag = s.faultTag := rfl
@[simp] theorem modTile_overlays : (s.modTile a f).overlays = s.overlays := rfl
@[simp] theorem modTile_records : (s.modTile a f).records = s.records := rfl
@[simp] theorem modTile_swap : (s.modTile a f).swap = s.swap := rfl
@[simp] theorem modTile_swapCount : (s.modTile a f).swapCount = s.swapCount := rfl
@[simp] theorem modTile_serials : (s.modTile a f).serials = s.serials := rfl
@[simp] theorem modTile_withheld : (s.modTile a f).withheld = s.withheld := rfl
@[simp] theorem modTile_budgetUsed : (s.modTile a f).budgetUsed = s.budgetUsed := rfl
@[simp] theorem modTile_stackStep : (s.modTile a f).stackStep = s.stackStep := rfl
@[simp] theorem modTile_votes : (s.modTile a f).votes = s.votes := rfl
@[simp] theorem modTile_volts : (s.modTile a f).volts = s.volts := rfl
@[simp] theorem modTile_windows : (s.modTile a f).windows = s.windows := rfl
@[simp] theorem modTile_entropyFailing : (s.modTile a f).entropyFailing = s.entropyFailing := rfl
@[simp] theorem modTile_audits : (s.modTile a f).audits = s.audits := rfl
@[simp] theorem modTile_clean : (s.modTile a f).clean = s.clean := rfl
@[simp] theorem modTile_rerunService : (s.modTile a f).rerunService = s.rerunService := rfl
@[simp] theorem modTile_rerunWindow : (s.modTile a f).rerunWindow = s.rerunWindow := rfl
@[simp] theorem modTile_away : (s.modTile a f).away = s.away := rfl
@[simp] theorem modTile_heldReports : (s.modTile a f).heldReports = s.heldReports := rfl
@[simp] theorem modTile_copyRest : (s.modTile a f).copyRest = s.copyRest := rfl
@[simp] theorem modTile_nextCopy : (s.modTile a f).nextCopy = s.nextCopy := rfl
@[simp] theorem modTile_hostPending : (s.modTile a f).hostPending = s.hostPending := rfl
@[simp] theorem modTile_hostOut : (s.modTile a f).hostOut = s.hostOut := rfl
@[simp] theorem modTile_hostQueues : (s.modTile a f).hostQueues = s.hostQueues := rfl
@[simp] theorem modTile_podPending : (s.modTile a f).podPending = s.podPending := rfl
@[simp] theorem modTile_podOut : (s.modTile a f).podOut = s.podOut := rfl
@[simp] theorem modTile_portsDown : (s.modTile a f).portsDown = s.portsDown := rfl
@[simp] theorem modTile_downAt : (s.modTile a f).downAt = s.downAt := rfl
@[simp] theorem modTile_flitReplays : (s.modTile a f).flitReplays = s.flitReplays := rfl
@[simp] theorem modTile_podLeft : (s.modTile a f).podLeft = s.podLeft := rfl
@[simp] theorem modTile_hostDown : (s.modTile a f).hostDown = s.hostDown := rfl
@[simp] theorem modTile_recovery : (s.modTile a f).recovery = s.recovery := rfl
@[simp] theorem modTile_attestHold : (s.modTile a f).attestHold = s.attestHold := rfl
@[simp] theorem modTile_service : (s.modTile a f).service = s.service := rfl
@[simp] theorem modTile_measured : (s.modTile a f).measured = s.measured := rfl
@[simp] theorem modTile_booted : (s.modTile a f).booted = s.booted := rfl
@[simp] theorem modTile_time : (s.modTile a f).time = s.time := rfl
@[simp] theorem modTile_cur : (s.modTile a f).cur = s.cur := rfl
@[simp] theorem modTile_split : (s.modTile a f).split = s.split := rfl
@[simp] theorem modTile_agenda : (s.modTile a f).agenda = s.agenda := rfl
@[simp] theorem modTile_choice : (s.modTile a f).choice = s.choice := rfl
@[simp] theorem modTile_free : (s.modTile a f).free = s.free := rfl
end

section
variable (s : State) (a th : Nat) (f : Thread → Thread)
@[simp] theorem modThread_mem : (s.modThread a th f).mem = s.mem := rfl
@[simp] theorem modThread_full : (s.modThread a th f).full = s.full := rfl
@[simp] theorem modThread_poison : (s.modThread a th f).poison = s.poison := rfl
@[simp] theorem modThread_sites : (s.modThread a th f).sites = s.sites := rfl
@[simp] theorem modThread_fe : (s.modThread a th f).fe = s.fe := rfl
@[simp] theorem modThread_resv : (s.modThread a th f).resv = s.resv := rfl
@[simp] theorem modThread_rejected : (s.modThread a th f).rejected = s.rejected := rfl
@[simp] theorem modThread_holders : (s.modThread a th f).holders = s.holders := rfl
@[simp] theorem modThread_orders : (s.modThread a th f).orders = s.orders := rfl
@[simp] theorem modThread_watches : (s.modThread a th f).watches = s.watches := rfl
@[simp] theorem modThread_remains : (s.modThread a th f).remains = s.remains := rfl
@[simp] theorem modThread_oldWatches : (s.modThread a th f).oldWatches = s.oldWatches := rfl
@[simp] theorem modThread_flash : (s.modThread a th f).flash = s.flash := rfl
@[simp] theorem modThread_decided : (s.modThread a th f).decided = s.decided := rfl
@[simp] theorem modThread_tlb : (s.modThread a th f).tlb = s.tlb := rfl
@[simp] theorem modThread_walks : (s.modThread a th f).walks = s.walks := rfl
@[simp] theorem modThread_rimFaults : (s.modThread a th f).rimFaults = s.rimFaults := rfl
@[simp] theorem modThread_icache : (s.modThread a th f).icache = s.icache := rfl
@[simp] theorem modThread_fills : (s.modThread a th f).fills = s.fills := rfl
@[simp] theorem modThread_tlbPlru : (s.modThread a th f).tlbPlru = s.tlbPlru := rfl
@[simp] theorem modThread_plru : (s.modThread a th f).plru = s.plru := rfl
@[simp] theorem modThread_zeroing : (s.modThread a th f).zeroing = s.zeroing := rfl
@[simp] theorem modThread_net : (s.modThread a th f).net = s.net := rfl
@[simp] theorem modThread_nextMsg : (s.modThread a th f).nextMsg = s.nextMsg := rfl
@[simp] theorem modThread_links : (s.modThread a th f).links = s.links := rfl
@[simp] theorem modThread_sentWords : (s.modThread a th f).sentWords = s.sentWords := rfl
@[simp] theorem modThread_grids : (s.modThread a th f).grids = s.grids := rfl
@[simp] theorem modThread_gangs : (s.modThread a th f).gangs = s.gangs := rfl
@[simp] theorem modThread_tileFaults : (s.modThread a th f).tileFaults = s.tileFaults := rfl
@[simp] theorem modThread_faultTag : (s.modThread a th f).faultTag = s.faultTag := rfl
@[simp] theorem modThread_overlays : (s.modThread a th f).overlays = s.overlays := rfl
@[simp] theorem modThread_records : (s.modThread a th f).records = s.records := rfl
@[simp] theorem modThread_swap : (s.modThread a th f).swap = s.swap := rfl
@[simp] theorem modThread_swapCount : (s.modThread a th f).swapCount = s.swapCount := rfl
@[simp] theorem modThread_serials : (s.modThread a th f).serials = s.serials := rfl
@[simp] theorem modThread_withheld : (s.modThread a th f).withheld = s.withheld := rfl
@[simp] theorem modThread_budgetUsed : (s.modThread a th f).budgetUsed = s.budgetUsed := rfl
@[simp] theorem modThread_stackStep : (s.modThread a th f).stackStep = s.stackStep := rfl
@[simp] theorem modThread_votes : (s.modThread a th f).votes = s.votes := rfl
@[simp] theorem modThread_volts : (s.modThread a th f).volts = s.volts := rfl
@[simp] theorem modThread_windows : (s.modThread a th f).windows = s.windows := rfl
@[simp] theorem modThread_entropyFailing : (s.modThread a th f).entropyFailing = s.entropyFailing := rfl
@[simp] theorem modThread_audits : (s.modThread a th f).audits = s.audits := rfl
@[simp] theorem modThread_clean : (s.modThread a th f).clean = s.clean := rfl
@[simp] theorem modThread_rerunService : (s.modThread a th f).rerunService = s.rerunService := rfl
@[simp] theorem modThread_rerunWindow : (s.modThread a th f).rerunWindow = s.rerunWindow := rfl
@[simp] theorem modThread_away : (s.modThread a th f).away = s.away := rfl
@[simp] theorem modThread_heldReports : (s.modThread a th f).heldReports = s.heldReports := rfl
@[simp] theorem modThread_copyRest : (s.modThread a th f).copyRest = s.copyRest := rfl
@[simp] theorem modThread_nextCopy : (s.modThread a th f).nextCopy = s.nextCopy := rfl
@[simp] theorem modThread_hostPending : (s.modThread a th f).hostPending = s.hostPending := rfl
@[simp] theorem modThread_hostOut : (s.modThread a th f).hostOut = s.hostOut := rfl
@[simp] theorem modThread_hostQueues : (s.modThread a th f).hostQueues = s.hostQueues := rfl
@[simp] theorem modThread_podPending : (s.modThread a th f).podPending = s.podPending := rfl
@[simp] theorem modThread_podOut : (s.modThread a th f).podOut = s.podOut := rfl
@[simp] theorem modThread_portsDown : (s.modThread a th f).portsDown = s.portsDown := rfl
@[simp] theorem modThread_downAt : (s.modThread a th f).downAt = s.downAt := rfl
@[simp] theorem modThread_flitReplays : (s.modThread a th f).flitReplays = s.flitReplays := rfl
@[simp] theorem modThread_podLeft : (s.modThread a th f).podLeft = s.podLeft := rfl
@[simp] theorem modThread_hostDown : (s.modThread a th f).hostDown = s.hostDown := rfl
@[simp] theorem modThread_recovery : (s.modThread a th f).recovery = s.recovery := rfl
@[simp] theorem modThread_attestHold : (s.modThread a th f).attestHold = s.attestHold := rfl
@[simp] theorem modThread_service : (s.modThread a th f).service = s.service := rfl
@[simp] theorem modThread_measured : (s.modThread a th f).measured = s.measured := rfl
@[simp] theorem modThread_booted : (s.modThread a th f).booted = s.booted := rfl
@[simp] theorem modThread_time : (s.modThread a th f).time = s.time := rfl
@[simp] theorem modThread_cur : (s.modThread a th f).cur = s.cur := rfl
@[simp] theorem modThread_split : (s.modThread a th f).split = s.split := rfl
@[simp] theorem modThread_agenda : (s.modThread a th f).agenda = s.agenda := rfl
@[simp] theorem modThread_choice : (s.modThread a th f).choice = s.choice := rfl
@[simp] theorem modThread_free : (s.modThread a th f).free = s.free := rfl
end

section
variable (s : State) (f : Thread → Thread)
@[simp] theorem modMe_mem : (s.modMe f).mem = s.mem := rfl
@[simp] theorem modMe_full : (s.modMe f).full = s.full := rfl
@[simp] theorem modMe_poison : (s.modMe f).poison = s.poison := rfl
@[simp] theorem modMe_sites : (s.modMe f).sites = s.sites := rfl
@[simp] theorem modMe_fe : (s.modMe f).fe = s.fe := rfl
@[simp] theorem modMe_resv : (s.modMe f).resv = s.resv := rfl
@[simp] theorem modMe_rejected : (s.modMe f).rejected = s.rejected := rfl
@[simp] theorem modMe_holders : (s.modMe f).holders = s.holders := rfl
@[simp] theorem modMe_orders : (s.modMe f).orders = s.orders := rfl
@[simp] theorem modMe_watches : (s.modMe f).watches = s.watches := rfl
@[simp] theorem modMe_remains : (s.modMe f).remains = s.remains := rfl
@[simp] theorem modMe_oldWatches : (s.modMe f).oldWatches = s.oldWatches := rfl
@[simp] theorem modMe_flash : (s.modMe f).flash = s.flash := rfl
@[simp] theorem modMe_decided : (s.modMe f).decided = s.decided := rfl
@[simp] theorem modMe_tlb : (s.modMe f).tlb = s.tlb := rfl
@[simp] theorem modMe_walks : (s.modMe f).walks = s.walks := rfl
@[simp] theorem modMe_rimFaults : (s.modMe f).rimFaults = s.rimFaults := rfl
@[simp] theorem modMe_icache : (s.modMe f).icache = s.icache := rfl
@[simp] theorem modMe_fills : (s.modMe f).fills = s.fills := rfl
@[simp] theorem modMe_tlbPlru : (s.modMe f).tlbPlru = s.tlbPlru := rfl
@[simp] theorem modMe_plru : (s.modMe f).plru = s.plru := rfl
@[simp] theorem modMe_zeroing : (s.modMe f).zeroing = s.zeroing := rfl
@[simp] theorem modMe_net : (s.modMe f).net = s.net := rfl
@[simp] theorem modMe_nextMsg : (s.modMe f).nextMsg = s.nextMsg := rfl
@[simp] theorem modMe_links : (s.modMe f).links = s.links := rfl
@[simp] theorem modMe_sentWords : (s.modMe f).sentWords = s.sentWords := rfl
@[simp] theorem modMe_grids : (s.modMe f).grids = s.grids := rfl
@[simp] theorem modMe_gangs : (s.modMe f).gangs = s.gangs := rfl
@[simp] theorem modMe_tileFaults : (s.modMe f).tileFaults = s.tileFaults := rfl
@[simp] theorem modMe_faultTag : (s.modMe f).faultTag = s.faultTag := rfl
@[simp] theorem modMe_overlays : (s.modMe f).overlays = s.overlays := rfl
@[simp] theorem modMe_records : (s.modMe f).records = s.records := rfl
@[simp] theorem modMe_swap : (s.modMe f).swap = s.swap := rfl
@[simp] theorem modMe_swapCount : (s.modMe f).swapCount = s.swapCount := rfl
@[simp] theorem modMe_serials : (s.modMe f).serials = s.serials := rfl
@[simp] theorem modMe_withheld : (s.modMe f).withheld = s.withheld := rfl
@[simp] theorem modMe_budgetUsed : (s.modMe f).budgetUsed = s.budgetUsed := rfl
@[simp] theorem modMe_stackStep : (s.modMe f).stackStep = s.stackStep := rfl
@[simp] theorem modMe_votes : (s.modMe f).votes = s.votes := rfl
@[simp] theorem modMe_volts : (s.modMe f).volts = s.volts := rfl
@[simp] theorem modMe_windows : (s.modMe f).windows = s.windows := rfl
@[simp] theorem modMe_entropyFailing : (s.modMe f).entropyFailing = s.entropyFailing := rfl
@[simp] theorem modMe_audits : (s.modMe f).audits = s.audits := rfl
@[simp] theorem modMe_clean : (s.modMe f).clean = s.clean := rfl
@[simp] theorem modMe_rerunService : (s.modMe f).rerunService = s.rerunService := rfl
@[simp] theorem modMe_rerunWindow : (s.modMe f).rerunWindow = s.rerunWindow := rfl
@[simp] theorem modMe_away : (s.modMe f).away = s.away := rfl
@[simp] theorem modMe_heldReports : (s.modMe f).heldReports = s.heldReports := rfl
@[simp] theorem modMe_copyRest : (s.modMe f).copyRest = s.copyRest := rfl
@[simp] theorem modMe_nextCopy : (s.modMe f).nextCopy = s.nextCopy := rfl
@[simp] theorem modMe_hostPending : (s.modMe f).hostPending = s.hostPending := rfl
@[simp] theorem modMe_hostOut : (s.modMe f).hostOut = s.hostOut := rfl
@[simp] theorem modMe_hostQueues : (s.modMe f).hostQueues = s.hostQueues := rfl
@[simp] theorem modMe_podPending : (s.modMe f).podPending = s.podPending := rfl
@[simp] theorem modMe_podOut : (s.modMe f).podOut = s.podOut := rfl
@[simp] theorem modMe_portsDown : (s.modMe f).portsDown = s.portsDown := rfl
@[simp] theorem modMe_downAt : (s.modMe f).downAt = s.downAt := rfl
@[simp] theorem modMe_flitReplays : (s.modMe f).flitReplays = s.flitReplays := rfl
@[simp] theorem modMe_podLeft : (s.modMe f).podLeft = s.podLeft := rfl
@[simp] theorem modMe_hostDown : (s.modMe f).hostDown = s.hostDown := rfl
@[simp] theorem modMe_recovery : (s.modMe f).recovery = s.recovery := rfl
@[simp] theorem modMe_attestHold : (s.modMe f).attestHold = s.attestHold := rfl
@[simp] theorem modMe_service : (s.modMe f).service = s.service := rfl
@[simp] theorem modMe_measured : (s.modMe f).measured = s.measured := rfl
@[simp] theorem modMe_booted : (s.modMe f).booted = s.booted := rfl
@[simp] theorem modMe_time : (s.modMe f).time = s.time := rfl
@[simp] theorem modMe_cur : (s.modMe f).cur = s.cur := rfl
@[simp] theorem modMe_split : (s.modMe f).split = s.split := rfl
@[simp] theorem modMe_agenda : (s.modMe f).agenda = s.agenda := rfl
@[simp] theorem modMe_choice : (s.modMe f).choice = s.choice := rfl
@[simp] theorem modMe_free : (s.modMe f).free = s.free := rfl
end

section
variable (s : State) (a : Nat) (f : Site → Site)
@[simp] theorem modSite_mem : (s.modSite a f).mem = s.mem := rfl
@[simp] theorem modSite_full : (s.modSite a f).full = s.full := rfl
@[simp] theorem modSite_poison : (s.modSite a f).poison = s.poison := rfl
@[simp] theorem modSite_tiles : (s.modSite a f).tiles = s.tiles := rfl
@[simp] theorem modSite_fe : (s.modSite a f).fe = s.fe := rfl
@[simp] theorem modSite_resv : (s.modSite a f).resv = s.resv := rfl
@[simp] theorem modSite_rejected : (s.modSite a f).rejected = s.rejected := rfl
@[simp] theorem modSite_holders : (s.modSite a f).holders = s.holders := rfl
@[simp] theorem modSite_orders : (s.modSite a f).orders = s.orders := rfl
@[simp] theorem modSite_watches : (s.modSite a f).watches = s.watches := rfl
@[simp] theorem modSite_remains : (s.modSite a f).remains = s.remains := rfl
@[simp] theorem modSite_oldWatches : (s.modSite a f).oldWatches = s.oldWatches := rfl
@[simp] theorem modSite_flash : (s.modSite a f).flash = s.flash := rfl
@[simp] theorem modSite_decided : (s.modSite a f).decided = s.decided := rfl
@[simp] theorem modSite_tlb : (s.modSite a f).tlb = s.tlb := rfl
@[simp] theorem modSite_walks : (s.modSite a f).walks = s.walks := rfl
@[simp] theorem modSite_rimFaults : (s.modSite a f).rimFaults = s.rimFaults := rfl
@[simp] theorem modSite_icache : (s.modSite a f).icache = s.icache := rfl
@[simp] theorem modSite_fills : (s.modSite a f).fills = s.fills := rfl
@[simp] theorem modSite_tlbPlru : (s.modSite a f).tlbPlru = s.tlbPlru := rfl
@[simp] theorem modSite_plru : (s.modSite a f).plru = s.plru := rfl
@[simp] theorem modSite_zeroing : (s.modSite a f).zeroing = s.zeroing := rfl
@[simp] theorem modSite_net : (s.modSite a f).net = s.net := rfl
@[simp] theorem modSite_nextMsg : (s.modSite a f).nextMsg = s.nextMsg := rfl
@[simp] theorem modSite_links : (s.modSite a f).links = s.links := rfl
@[simp] theorem modSite_sentWords : (s.modSite a f).sentWords = s.sentWords := rfl
@[simp] theorem modSite_grids : (s.modSite a f).grids = s.grids := rfl
@[simp] theorem modSite_gangs : (s.modSite a f).gangs = s.gangs := rfl
@[simp] theorem modSite_tileFaults : (s.modSite a f).tileFaults = s.tileFaults := rfl
@[simp] theorem modSite_faultTag : (s.modSite a f).faultTag = s.faultTag := rfl
@[simp] theorem modSite_overlays : (s.modSite a f).overlays = s.overlays := rfl
@[simp] theorem modSite_records : (s.modSite a f).records = s.records := rfl
@[simp] theorem modSite_swap : (s.modSite a f).swap = s.swap := rfl
@[simp] theorem modSite_swapCount : (s.modSite a f).swapCount = s.swapCount := rfl
@[simp] theorem modSite_serials : (s.modSite a f).serials = s.serials := rfl
@[simp] theorem modSite_withheld : (s.modSite a f).withheld = s.withheld := rfl
@[simp] theorem modSite_budgetUsed : (s.modSite a f).budgetUsed = s.budgetUsed := rfl
@[simp] theorem modSite_stackStep : (s.modSite a f).stackStep = s.stackStep := rfl
@[simp] theorem modSite_votes : (s.modSite a f).votes = s.votes := rfl
@[simp] theorem modSite_volts : (s.modSite a f).volts = s.volts := rfl
@[simp] theorem modSite_windows : (s.modSite a f).windows = s.windows := rfl
@[simp] theorem modSite_entropyFailing : (s.modSite a f).entropyFailing = s.entropyFailing := rfl
@[simp] theorem modSite_audits : (s.modSite a f).audits = s.audits := rfl
@[simp] theorem modSite_clean : (s.modSite a f).clean = s.clean := rfl
@[simp] theorem modSite_rerunService : (s.modSite a f).rerunService = s.rerunService := rfl
@[simp] theorem modSite_rerunWindow : (s.modSite a f).rerunWindow = s.rerunWindow := rfl
@[simp] theorem modSite_away : (s.modSite a f).away = s.away := rfl
@[simp] theorem modSite_heldReports : (s.modSite a f).heldReports = s.heldReports := rfl
@[simp] theorem modSite_copyRest : (s.modSite a f).copyRest = s.copyRest := rfl
@[simp] theorem modSite_nextCopy : (s.modSite a f).nextCopy = s.nextCopy := rfl
@[simp] theorem modSite_hostPending : (s.modSite a f).hostPending = s.hostPending := rfl
@[simp] theorem modSite_hostOut : (s.modSite a f).hostOut = s.hostOut := rfl
@[simp] theorem modSite_hostQueues : (s.modSite a f).hostQueues = s.hostQueues := rfl
@[simp] theorem modSite_podPending : (s.modSite a f).podPending = s.podPending := rfl
@[simp] theorem modSite_podOut : (s.modSite a f).podOut = s.podOut := rfl
@[simp] theorem modSite_portsDown : (s.modSite a f).portsDown = s.portsDown := rfl
@[simp] theorem modSite_downAt : (s.modSite a f).downAt = s.downAt := rfl
@[simp] theorem modSite_flitReplays : (s.modSite a f).flitReplays = s.flitReplays := rfl
@[simp] theorem modSite_podLeft : (s.modSite a f).podLeft = s.podLeft := rfl
@[simp] theorem modSite_hostDown : (s.modSite a f).hostDown = s.hostDown := rfl
@[simp] theorem modSite_recovery : (s.modSite a f).recovery = s.recovery := rfl
@[simp] theorem modSite_attestHold : (s.modSite a f).attestHold = s.attestHold := rfl
@[simp] theorem modSite_service : (s.modSite a f).service = s.service := rfl
@[simp] theorem modSite_measured : (s.modSite a f).measured = s.measured := rfl
@[simp] theorem modSite_booted : (s.modSite a f).booted = s.booted := rfl
@[simp] theorem modSite_time : (s.modSite a f).time = s.time := rfl
@[simp] theorem modSite_cur : (s.modSite a f).cur = s.cur := rfl
@[simp] theorem modSite_split : (s.modSite a f).split = s.split := rfl
@[simp] theorem modSite_agenda : (s.modSite a f).agenda = s.agenda := rfl
@[simp] theorem modSite_choice : (s.modSite a f).choice = s.choice := rfl
@[simp] theorem modSite_free : (s.modSite a f).free = s.free := rfl
end

section
variable (s : State) (h : Word) (f : Grid → Grid)
@[simp] theorem modGrid_mem : (s.modGrid h f).mem = s.mem := rfl
@[simp] theorem modGrid_full : (s.modGrid h f).full = s.full := rfl
@[simp] theorem modGrid_poison : (s.modGrid h f).poison = s.poison := rfl
@[simp] theorem modGrid_tiles : (s.modGrid h f).tiles = s.tiles := rfl
@[simp] theorem modGrid_sites : (s.modGrid h f).sites = s.sites := rfl
@[simp] theorem modGrid_fe : (s.modGrid h f).fe = s.fe := rfl
@[simp] theorem modGrid_resv : (s.modGrid h f).resv = s.resv := rfl
@[simp] theorem modGrid_rejected : (s.modGrid h f).rejected = s.rejected := rfl
@[simp] theorem modGrid_holders : (s.modGrid h f).holders = s.holders := rfl
@[simp] theorem modGrid_orders : (s.modGrid h f).orders = s.orders := rfl
@[simp] theorem modGrid_watches : (s.modGrid h f).watches = s.watches := rfl
@[simp] theorem modGrid_remains : (s.modGrid h f).remains = s.remains := rfl
@[simp] theorem modGrid_oldWatches : (s.modGrid h f).oldWatches = s.oldWatches := rfl
@[simp] theorem modGrid_flash : (s.modGrid h f).flash = s.flash := rfl
@[simp] theorem modGrid_decided : (s.modGrid h f).decided = s.decided := rfl
@[simp] theorem modGrid_tlb : (s.modGrid h f).tlb = s.tlb := rfl
@[simp] theorem modGrid_walks : (s.modGrid h f).walks = s.walks := rfl
@[simp] theorem modGrid_rimFaults : (s.modGrid h f).rimFaults = s.rimFaults := rfl
@[simp] theorem modGrid_icache : (s.modGrid h f).icache = s.icache := rfl
@[simp] theorem modGrid_fills : (s.modGrid h f).fills = s.fills := rfl
@[simp] theorem modGrid_tlbPlru : (s.modGrid h f).tlbPlru = s.tlbPlru := rfl
@[simp] theorem modGrid_plru : (s.modGrid h f).plru = s.plru := rfl
@[simp] theorem modGrid_zeroing : (s.modGrid h f).zeroing = s.zeroing := rfl
@[simp] theorem modGrid_net : (s.modGrid h f).net = s.net := rfl
@[simp] theorem modGrid_nextMsg : (s.modGrid h f).nextMsg = s.nextMsg := rfl
@[simp] theorem modGrid_links : (s.modGrid h f).links = s.links := rfl
@[simp] theorem modGrid_sentWords : (s.modGrid h f).sentWords = s.sentWords := rfl
@[simp] theorem modGrid_gangs : (s.modGrid h f).gangs = s.gangs := rfl
@[simp] theorem modGrid_tileFaults : (s.modGrid h f).tileFaults = s.tileFaults := rfl
@[simp] theorem modGrid_faultTag : (s.modGrid h f).faultTag = s.faultTag := rfl
@[simp] theorem modGrid_overlays : (s.modGrid h f).overlays = s.overlays := rfl
@[simp] theorem modGrid_records : (s.modGrid h f).records = s.records := rfl
@[simp] theorem modGrid_swap : (s.modGrid h f).swap = s.swap := rfl
@[simp] theorem modGrid_swapCount : (s.modGrid h f).swapCount = s.swapCount := rfl
@[simp] theorem modGrid_serials : (s.modGrid h f).serials = s.serials := rfl
@[simp] theorem modGrid_withheld : (s.modGrid h f).withheld = s.withheld := rfl
@[simp] theorem modGrid_budgetUsed : (s.modGrid h f).budgetUsed = s.budgetUsed := rfl
@[simp] theorem modGrid_stackStep : (s.modGrid h f).stackStep = s.stackStep := rfl
@[simp] theorem modGrid_votes : (s.modGrid h f).votes = s.votes := rfl
@[simp] theorem modGrid_volts : (s.modGrid h f).volts = s.volts := rfl
@[simp] theorem modGrid_windows : (s.modGrid h f).windows = s.windows := rfl
@[simp] theorem modGrid_entropyFailing : (s.modGrid h f).entropyFailing = s.entropyFailing := rfl
@[simp] theorem modGrid_audits : (s.modGrid h f).audits = s.audits := rfl
@[simp] theorem modGrid_clean : (s.modGrid h f).clean = s.clean := rfl
@[simp] theorem modGrid_rerunService : (s.modGrid h f).rerunService = s.rerunService := rfl
@[simp] theorem modGrid_rerunWindow : (s.modGrid h f).rerunWindow = s.rerunWindow := rfl
@[simp] theorem modGrid_away : (s.modGrid h f).away = s.away := rfl
@[simp] theorem modGrid_heldReports : (s.modGrid h f).heldReports = s.heldReports := rfl
@[simp] theorem modGrid_copyRest : (s.modGrid h f).copyRest = s.copyRest := rfl
@[simp] theorem modGrid_nextCopy : (s.modGrid h f).nextCopy = s.nextCopy := rfl
@[simp] theorem modGrid_hostPending : (s.modGrid h f).hostPending = s.hostPending := rfl
@[simp] theorem modGrid_hostOut : (s.modGrid h f).hostOut = s.hostOut := rfl
@[simp] theorem modGrid_hostQueues : (s.modGrid h f).hostQueues = s.hostQueues := rfl
@[simp] theorem modGrid_podPending : (s.modGrid h f).podPending = s.podPending := rfl
@[simp] theorem modGrid_podOut : (s.modGrid h f).podOut = s.podOut := rfl
@[simp] theorem modGrid_portsDown : (s.modGrid h f).portsDown = s.portsDown := rfl
@[simp] theorem modGrid_downAt : (s.modGrid h f).downAt = s.downAt := rfl
@[simp] theorem modGrid_flitReplays : (s.modGrid h f).flitReplays = s.flitReplays := rfl
@[simp] theorem modGrid_podLeft : (s.modGrid h f).podLeft = s.podLeft := rfl
@[simp] theorem modGrid_hostDown : (s.modGrid h f).hostDown = s.hostDown := rfl
@[simp] theorem modGrid_recovery : (s.modGrid h f).recovery = s.recovery := rfl
@[simp] theorem modGrid_attestHold : (s.modGrid h f).attestHold = s.attestHold := rfl
@[simp] theorem modGrid_service : (s.modGrid h f).service = s.service := rfl
@[simp] theorem modGrid_measured : (s.modGrid h f).measured = s.measured := rfl
@[simp] theorem modGrid_booted : (s.modGrid h f).booted = s.booted := rfl
@[simp] theorem modGrid_time : (s.modGrid h f).time = s.time := rfl
@[simp] theorem modGrid_cur : (s.modGrid h f).cur = s.cur := rfl
@[simp] theorem modGrid_split : (s.modGrid h f).split = s.split := rfl
@[simp] theorem modGrid_agenda : (s.modGrid h f).agenda = s.agenda := rfl
@[simp] theorem modGrid_choice : (s.modGrid h f).choice = s.choice := rfl
@[simp] theorem modGrid_free : (s.modGrid h f).free = s.free := rfl
end

section
variable (s : State) (a : Nat) (f : Gang → Gang)
@[simp] theorem modGangOfTile_mem : (s.modGangOfTile a f).mem = s.mem := rfl
@[simp] theorem modGangOfTile_full : (s.modGangOfTile a f).full = s.full := rfl
@[simp] theorem modGangOfTile_poison : (s.modGangOfTile a f).poison = s.poison := rfl
@[simp] theorem modGangOfTile_tiles : (s.modGangOfTile a f).tiles = s.tiles := rfl
@[simp] theorem modGangOfTile_sites : (s.modGangOfTile a f).sites = s.sites := rfl
@[simp] theorem modGangOfTile_fe : (s.modGangOfTile a f).fe = s.fe := rfl
@[simp] theorem modGangOfTile_resv : (s.modGangOfTile a f).resv = s.resv := rfl
@[simp] theorem modGangOfTile_rejected : (s.modGangOfTile a f).rejected = s.rejected := rfl
@[simp] theorem modGangOfTile_holders : (s.modGangOfTile a f).holders = s.holders := rfl
@[simp] theorem modGangOfTile_orders : (s.modGangOfTile a f).orders = s.orders := rfl
@[simp] theorem modGangOfTile_watches : (s.modGangOfTile a f).watches = s.watches := rfl
@[simp] theorem modGangOfTile_remains : (s.modGangOfTile a f).remains = s.remains := rfl
@[simp] theorem modGangOfTile_oldWatches : (s.modGangOfTile a f).oldWatches = s.oldWatches := rfl
@[simp] theorem modGangOfTile_flash : (s.modGangOfTile a f).flash = s.flash := rfl
@[simp] theorem modGangOfTile_decided : (s.modGangOfTile a f).decided = s.decided := rfl
@[simp] theorem modGangOfTile_tlb : (s.modGangOfTile a f).tlb = s.tlb := rfl
@[simp] theorem modGangOfTile_walks : (s.modGangOfTile a f).walks = s.walks := rfl
@[simp] theorem modGangOfTile_rimFaults : (s.modGangOfTile a f).rimFaults = s.rimFaults := rfl
@[simp] theorem modGangOfTile_icache : (s.modGangOfTile a f).icache = s.icache := rfl
@[simp] theorem modGangOfTile_fills : (s.modGangOfTile a f).fills = s.fills := rfl
@[simp] theorem modGangOfTile_tlbPlru : (s.modGangOfTile a f).tlbPlru = s.tlbPlru := rfl
@[simp] theorem modGangOfTile_plru : (s.modGangOfTile a f).plru = s.plru := rfl
@[simp] theorem modGangOfTile_zeroing : (s.modGangOfTile a f).zeroing = s.zeroing := rfl
@[simp] theorem modGangOfTile_net : (s.modGangOfTile a f).net = s.net := rfl
@[simp] theorem modGangOfTile_nextMsg : (s.modGangOfTile a f).nextMsg = s.nextMsg := rfl
@[simp] theorem modGangOfTile_links : (s.modGangOfTile a f).links = s.links := rfl
@[simp] theorem modGangOfTile_sentWords : (s.modGangOfTile a f).sentWords = s.sentWords := rfl
@[simp] theorem modGangOfTile_grids : (s.modGangOfTile a f).grids = s.grids := rfl
@[simp] theorem modGangOfTile_tileFaults : (s.modGangOfTile a f).tileFaults = s.tileFaults := rfl
@[simp] theorem modGangOfTile_faultTag : (s.modGangOfTile a f).faultTag = s.faultTag := rfl
@[simp] theorem modGangOfTile_overlays : (s.modGangOfTile a f).overlays = s.overlays := rfl
@[simp] theorem modGangOfTile_records : (s.modGangOfTile a f).records = s.records := rfl
@[simp] theorem modGangOfTile_swap : (s.modGangOfTile a f).swap = s.swap := rfl
@[simp] theorem modGangOfTile_swapCount : (s.modGangOfTile a f).swapCount = s.swapCount := rfl
@[simp] theorem modGangOfTile_serials : (s.modGangOfTile a f).serials = s.serials := rfl
@[simp] theorem modGangOfTile_withheld : (s.modGangOfTile a f).withheld = s.withheld := rfl
@[simp] theorem modGangOfTile_budgetUsed : (s.modGangOfTile a f).budgetUsed = s.budgetUsed := rfl
@[simp] theorem modGangOfTile_stackStep : (s.modGangOfTile a f).stackStep = s.stackStep := rfl
@[simp] theorem modGangOfTile_votes : (s.modGangOfTile a f).votes = s.votes := rfl
@[simp] theorem modGangOfTile_volts : (s.modGangOfTile a f).volts = s.volts := rfl
@[simp] theorem modGangOfTile_windows : (s.modGangOfTile a f).windows = s.windows := rfl
@[simp] theorem modGangOfTile_entropyFailing : (s.modGangOfTile a f).entropyFailing = s.entropyFailing := rfl
@[simp] theorem modGangOfTile_audits : (s.modGangOfTile a f).audits = s.audits := rfl
@[simp] theorem modGangOfTile_clean : (s.modGangOfTile a f).clean = s.clean := rfl
@[simp] theorem modGangOfTile_rerunService : (s.modGangOfTile a f).rerunService = s.rerunService := rfl
@[simp] theorem modGangOfTile_rerunWindow : (s.modGangOfTile a f).rerunWindow = s.rerunWindow := rfl
@[simp] theorem modGangOfTile_away : (s.modGangOfTile a f).away = s.away := rfl
@[simp] theorem modGangOfTile_heldReports : (s.modGangOfTile a f).heldReports = s.heldReports := rfl
@[simp] theorem modGangOfTile_copyRest : (s.modGangOfTile a f).copyRest = s.copyRest := rfl
@[simp] theorem modGangOfTile_nextCopy : (s.modGangOfTile a f).nextCopy = s.nextCopy := rfl
@[simp] theorem modGangOfTile_hostPending : (s.modGangOfTile a f).hostPending = s.hostPending := rfl
@[simp] theorem modGangOfTile_hostOut : (s.modGangOfTile a f).hostOut = s.hostOut := rfl
@[simp] theorem modGangOfTile_hostQueues : (s.modGangOfTile a f).hostQueues = s.hostQueues := rfl
@[simp] theorem modGangOfTile_podPending : (s.modGangOfTile a f).podPending = s.podPending := rfl
@[simp] theorem modGangOfTile_podOut : (s.modGangOfTile a f).podOut = s.podOut := rfl
@[simp] theorem modGangOfTile_portsDown : (s.modGangOfTile a f).portsDown = s.portsDown := rfl
@[simp] theorem modGangOfTile_downAt : (s.modGangOfTile a f).downAt = s.downAt := rfl
@[simp] theorem modGangOfTile_flitReplays : (s.modGangOfTile a f).flitReplays = s.flitReplays := rfl
@[simp] theorem modGangOfTile_podLeft : (s.modGangOfTile a f).podLeft = s.podLeft := rfl
@[simp] theorem modGangOfTile_hostDown : (s.modGangOfTile a f).hostDown = s.hostDown := rfl
@[simp] theorem modGangOfTile_recovery : (s.modGangOfTile a f).recovery = s.recovery := rfl
@[simp] theorem modGangOfTile_attestHold : (s.modGangOfTile a f).attestHold = s.attestHold := rfl
@[simp] theorem modGangOfTile_service : (s.modGangOfTile a f).service = s.service := rfl
@[simp] theorem modGangOfTile_measured : (s.modGangOfTile a f).measured = s.measured := rfl
@[simp] theorem modGangOfTile_booted : (s.modGangOfTile a f).booted = s.booted := rfl
@[simp] theorem modGangOfTile_time : (s.modGangOfTile a f).time = s.time := rfl
@[simp] theorem modGangOfTile_cur : (s.modGangOfTile a f).cur = s.cur := rfl
@[simp] theorem modGangOfTile_split : (s.modGangOfTile a f).split = s.split := rfl
@[simp] theorem modGangOfTile_agenda : (s.modGangOfTile a f).agenda = s.agenda := rfl
@[simp] theorem modGangOfTile_choice : (s.modGangOfTile a f).choice = s.choice := rfl
@[simp] theorem modGangOfTile_free : (s.modGangOfTile a f).free = s.free := rfl
end

section
variable (s : State) (key n : Nat)
@[simp] theorem unpoison_mem : (s.unpoison key n).mem = s.mem := rfl
@[simp] theorem unpoison_full : (s.unpoison key n).full = s.full := rfl
@[simp] theorem unpoison_tiles : (s.unpoison key n).tiles = s.tiles := rfl
@[simp] theorem unpoison_sites : (s.unpoison key n).sites = s.sites := rfl
@[simp] theorem unpoison_fe : (s.unpoison key n).fe = s.fe := rfl
@[simp] theorem unpoison_resv : (s.unpoison key n).resv = s.resv := rfl
@[simp] theorem unpoison_rejected : (s.unpoison key n).rejected = s.rejected := rfl
@[simp] theorem unpoison_holders : (s.unpoison key n).holders = s.holders := rfl
@[simp] theorem unpoison_orders : (s.unpoison key n).orders = s.orders := rfl
@[simp] theorem unpoison_watches : (s.unpoison key n).watches = s.watches := rfl
@[simp] theorem unpoison_remains : (s.unpoison key n).remains = s.remains := rfl
@[simp] theorem unpoison_oldWatches : (s.unpoison key n).oldWatches = s.oldWatches := rfl
@[simp] theorem unpoison_flash : (s.unpoison key n).flash = s.flash := rfl
@[simp] theorem unpoison_decided : (s.unpoison key n).decided = s.decided := rfl
@[simp] theorem unpoison_tlb : (s.unpoison key n).tlb = s.tlb := rfl
@[simp] theorem unpoison_walks : (s.unpoison key n).walks = s.walks := rfl
@[simp] theorem unpoison_rimFaults : (s.unpoison key n).rimFaults = s.rimFaults := rfl
@[simp] theorem unpoison_icache : (s.unpoison key n).icache = s.icache := rfl
@[simp] theorem unpoison_fills : (s.unpoison key n).fills = s.fills := rfl
@[simp] theorem unpoison_tlbPlru : (s.unpoison key n).tlbPlru = s.tlbPlru := rfl
@[simp] theorem unpoison_plru : (s.unpoison key n).plru = s.plru := rfl
@[simp] theorem unpoison_zeroing : (s.unpoison key n).zeroing = s.zeroing := rfl
@[simp] theorem unpoison_net : (s.unpoison key n).net = s.net := rfl
@[simp] theorem unpoison_nextMsg : (s.unpoison key n).nextMsg = s.nextMsg := rfl
@[simp] theorem unpoison_links : (s.unpoison key n).links = s.links := rfl
@[simp] theorem unpoison_sentWords : (s.unpoison key n).sentWords = s.sentWords := rfl
@[simp] theorem unpoison_grids : (s.unpoison key n).grids = s.grids := rfl
@[simp] theorem unpoison_gangs : (s.unpoison key n).gangs = s.gangs := rfl
@[simp] theorem unpoison_tileFaults : (s.unpoison key n).tileFaults = s.tileFaults := rfl
@[simp] theorem unpoison_faultTag : (s.unpoison key n).faultTag = s.faultTag := rfl
@[simp] theorem unpoison_overlays : (s.unpoison key n).overlays = s.overlays := rfl
@[simp] theorem unpoison_records : (s.unpoison key n).records = s.records := rfl
@[simp] theorem unpoison_swap : (s.unpoison key n).swap = s.swap := rfl
@[simp] theorem unpoison_swapCount : (s.unpoison key n).swapCount = s.swapCount := rfl
@[simp] theorem unpoison_serials : (s.unpoison key n).serials = s.serials := rfl
@[simp] theorem unpoison_withheld : (s.unpoison key n).withheld = s.withheld := rfl
@[simp] theorem unpoison_budgetUsed : (s.unpoison key n).budgetUsed = s.budgetUsed := rfl
@[simp] theorem unpoison_stackStep : (s.unpoison key n).stackStep = s.stackStep := rfl
@[simp] theorem unpoison_votes : (s.unpoison key n).votes = s.votes := rfl
@[simp] theorem unpoison_volts : (s.unpoison key n).volts = s.volts := rfl
@[simp] theorem unpoison_windows : (s.unpoison key n).windows = s.windows := rfl
@[simp] theorem unpoison_entropyFailing : (s.unpoison key n).entropyFailing = s.entropyFailing := rfl
@[simp] theorem unpoison_audits : (s.unpoison key n).audits = s.audits := rfl
@[simp] theorem unpoison_clean : (s.unpoison key n).clean = s.clean := rfl
@[simp] theorem unpoison_rerunService : (s.unpoison key n).rerunService = s.rerunService := rfl
@[simp] theorem unpoison_rerunWindow : (s.unpoison key n).rerunWindow = s.rerunWindow := rfl
@[simp] theorem unpoison_away : (s.unpoison key n).away = s.away := rfl
@[simp] theorem unpoison_heldReports : (s.unpoison key n).heldReports = s.heldReports := rfl
@[simp] theorem unpoison_copyRest : (s.unpoison key n).copyRest = s.copyRest := rfl
@[simp] theorem unpoison_nextCopy : (s.unpoison key n).nextCopy = s.nextCopy := rfl
@[simp] theorem unpoison_hostPending : (s.unpoison key n).hostPending = s.hostPending := rfl
@[simp] theorem unpoison_hostOut : (s.unpoison key n).hostOut = s.hostOut := rfl
@[simp] theorem unpoison_hostQueues : (s.unpoison key n).hostQueues = s.hostQueues := rfl
@[simp] theorem unpoison_podPending : (s.unpoison key n).podPending = s.podPending := rfl
@[simp] theorem unpoison_podOut : (s.unpoison key n).podOut = s.podOut := rfl
@[simp] theorem unpoison_portsDown : (s.unpoison key n).portsDown = s.portsDown := rfl
@[simp] theorem unpoison_downAt : (s.unpoison key n).downAt = s.downAt := rfl
@[simp] theorem unpoison_flitReplays : (s.unpoison key n).flitReplays = s.flitReplays := rfl
@[simp] theorem unpoison_podLeft : (s.unpoison key n).podLeft = s.podLeft := rfl
@[simp] theorem unpoison_hostDown : (s.unpoison key n).hostDown = s.hostDown := rfl
@[simp] theorem unpoison_recovery : (s.unpoison key n).recovery = s.recovery := rfl
@[simp] theorem unpoison_attestHold : (s.unpoison key n).attestHold = s.attestHold := rfl
@[simp] theorem unpoison_service : (s.unpoison key n).service = s.service := rfl
@[simp] theorem unpoison_measured : (s.unpoison key n).measured = s.measured := rfl
@[simp] theorem unpoison_booted : (s.unpoison key n).booted = s.booted := rfl
@[simp] theorem unpoison_time : (s.unpoison key n).time = s.time := rfl
@[simp] theorem unpoison_cur : (s.unpoison key n).cur = s.cur := rfl
@[simp] theorem unpoison_split : (s.unpoison key n).split = s.split := rfl
@[simp] theorem unpoison_agenda : (s.unpoison key n).agenda = s.agenda := rfl
@[simp] theorem unpoison_choice : (s.unpoison key n).choice = s.choice := rfl
@[simp] theorem unpoison_free : (s.unpoison key n).free = s.free := rfl
end

section
variable (s : State) (q : RecordQueue) (b : BitVec 256)
@[simp] theorem addRecord_mem : (s.addRecord q b).mem = s.mem := rfl
@[simp] theorem addRecord_full : (s.addRecord q b).full = s.full := rfl
@[simp] theorem addRecord_poison : (s.addRecord q b).poison = s.poison := rfl
@[simp] theorem addRecord_tiles : (s.addRecord q b).tiles = s.tiles := rfl
@[simp] theorem addRecord_sites : (s.addRecord q b).sites = s.sites := rfl
@[simp] theorem addRecord_fe : (s.addRecord q b).fe = s.fe := rfl
@[simp] theorem addRecord_resv : (s.addRecord q b).resv = s.resv := rfl
@[simp] theorem addRecord_rejected : (s.addRecord q b).rejected = s.rejected := rfl
@[simp] theorem addRecord_holders : (s.addRecord q b).holders = s.holders := rfl
@[simp] theorem addRecord_orders : (s.addRecord q b).orders = s.orders := rfl
@[simp] theorem addRecord_watches : (s.addRecord q b).watches = s.watches := rfl
@[simp] theorem addRecord_remains : (s.addRecord q b).remains = s.remains := rfl
@[simp] theorem addRecord_oldWatches : (s.addRecord q b).oldWatches = s.oldWatches := rfl
@[simp] theorem addRecord_flash : (s.addRecord q b).flash = s.flash := rfl
@[simp] theorem addRecord_decided : (s.addRecord q b).decided = s.decided := rfl
@[simp] theorem addRecord_tlb : (s.addRecord q b).tlb = s.tlb := rfl
@[simp] theorem addRecord_walks : (s.addRecord q b).walks = s.walks := rfl
@[simp] theorem addRecord_rimFaults : (s.addRecord q b).rimFaults = s.rimFaults := rfl
@[simp] theorem addRecord_icache : (s.addRecord q b).icache = s.icache := rfl
@[simp] theorem addRecord_fills : (s.addRecord q b).fills = s.fills := rfl
@[simp] theorem addRecord_tlbPlru : (s.addRecord q b).tlbPlru = s.tlbPlru := rfl
@[simp] theorem addRecord_plru : (s.addRecord q b).plru = s.plru := rfl
@[simp] theorem addRecord_zeroing : (s.addRecord q b).zeroing = s.zeroing := rfl
@[simp] theorem addRecord_net : (s.addRecord q b).net = s.net := rfl
@[simp] theorem addRecord_nextMsg : (s.addRecord q b).nextMsg = s.nextMsg := rfl
@[simp] theorem addRecord_links : (s.addRecord q b).links = s.links := rfl
@[simp] theorem addRecord_sentWords : (s.addRecord q b).sentWords = s.sentWords := rfl
@[simp] theorem addRecord_grids : (s.addRecord q b).grids = s.grids := rfl
@[simp] theorem addRecord_gangs : (s.addRecord q b).gangs = s.gangs := rfl
@[simp] theorem addRecord_tileFaults : (s.addRecord q b).tileFaults = s.tileFaults := rfl
@[simp] theorem addRecord_faultTag : (s.addRecord q b).faultTag = s.faultTag := rfl
@[simp] theorem addRecord_overlays : (s.addRecord q b).overlays = s.overlays := rfl
@[simp] theorem addRecord_swap : (s.addRecord q b).swap = s.swap := rfl
@[simp] theorem addRecord_swapCount : (s.addRecord q b).swapCount = s.swapCount := rfl
@[simp] theorem addRecord_serials : (s.addRecord q b).serials = s.serials := rfl
@[simp] theorem addRecord_withheld : (s.addRecord q b).withheld = s.withheld := rfl
@[simp] theorem addRecord_budgetUsed : (s.addRecord q b).budgetUsed = s.budgetUsed := rfl
@[simp] theorem addRecord_stackStep : (s.addRecord q b).stackStep = s.stackStep := rfl
@[simp] theorem addRecord_votes : (s.addRecord q b).votes = s.votes := rfl
@[simp] theorem addRecord_volts : (s.addRecord q b).volts = s.volts := rfl
@[simp] theorem addRecord_windows : (s.addRecord q b).windows = s.windows := rfl
@[simp] theorem addRecord_entropyFailing : (s.addRecord q b).entropyFailing = s.entropyFailing := rfl
@[simp] theorem addRecord_audits : (s.addRecord q b).audits = s.audits := rfl
@[simp] theorem addRecord_clean : (s.addRecord q b).clean = s.clean := rfl
@[simp] theorem addRecord_rerunService : (s.addRecord q b).rerunService = s.rerunService := rfl
@[simp] theorem addRecord_rerunWindow : (s.addRecord q b).rerunWindow = s.rerunWindow := rfl
@[simp] theorem addRecord_away : (s.addRecord q b).away = s.away := rfl
@[simp] theorem addRecord_heldReports : (s.addRecord q b).heldReports = s.heldReports := rfl
@[simp] theorem addRecord_copyRest : (s.addRecord q b).copyRest = s.copyRest := rfl
@[simp] theorem addRecord_nextCopy : (s.addRecord q b).nextCopy = s.nextCopy := rfl
@[simp] theorem addRecord_hostPending : (s.addRecord q b).hostPending = s.hostPending := rfl
@[simp] theorem addRecord_hostOut : (s.addRecord q b).hostOut = s.hostOut := rfl
@[simp] theorem addRecord_hostQueues : (s.addRecord q b).hostQueues = s.hostQueues := rfl
@[simp] theorem addRecord_podPending : (s.addRecord q b).podPending = s.podPending := rfl
@[simp] theorem addRecord_podOut : (s.addRecord q b).podOut = s.podOut := rfl
@[simp] theorem addRecord_portsDown : (s.addRecord q b).portsDown = s.portsDown := rfl
@[simp] theorem addRecord_downAt : (s.addRecord q b).downAt = s.downAt := rfl
@[simp] theorem addRecord_flitReplays : (s.addRecord q b).flitReplays = s.flitReplays := rfl
@[simp] theorem addRecord_podLeft : (s.addRecord q b).podLeft = s.podLeft := rfl
@[simp] theorem addRecord_hostDown : (s.addRecord q b).hostDown = s.hostDown := rfl
@[simp] theorem addRecord_recovery : (s.addRecord q b).recovery = s.recovery := rfl
@[simp] theorem addRecord_attestHold : (s.addRecord q b).attestHold = s.attestHold := rfl
@[simp] theorem addRecord_service : (s.addRecord q b).service = s.service := rfl
@[simp] theorem addRecord_measured : (s.addRecord q b).measured = s.measured := rfl
@[simp] theorem addRecord_booted : (s.addRecord q b).booted = s.booted := rfl
@[simp] theorem addRecord_time : (s.addRecord q b).time = s.time := rfl
@[simp] theorem addRecord_cur : (s.addRecord q b).cur = s.cur := rfl
@[simp] theorem addRecord_split : (s.addRecord q b).split = s.split := rfl
@[simp] theorem addRecord_agenda : (s.addRecord q b).agenda = s.agenda := rfl
@[simp] theorem addRecord_choice : (s.addRecord q b).choice = s.choice := rfl
@[simp] theorem addRecord_free : (s.addRecord q b).free = s.free := rfl
end

end Sys2Proof.Machine.State
end

