-- ==== Sys2Proof/Laws/Tables.lean ====
section
/-! SUPPORT. Small laws of the finite tables. -/

namespace Sys2Proof.Machine

theorem Tab.get?_set {α : Type} (l : List (Nat × α)) (n m : Nat) (v : α) :
    Tab.get? (Tab.set l n v) m = if n = m then some v else Tab.get? l m := by
  induction l with
  | nil => simp [Tab.set, Tab.get?]
  | cons p t ih =>
    obtain ⟨k, w⟩ := p
    simp only [Tab.set]
    split_ifs with h1 h2 h3 h3 h3 <;> simp_all [Tab.get?]
    all_goals (intro h; omega)

@[simp] theorem Tab.get?_set_self {α : Type} (l : List (Nat × α)) (n : Nat) (v : α) :
    Tab.get? (Tab.set l n v) n = some v := by simp [Tab.get?_set]

theorem Tab.get?_set_ne {α : Type} (l : List (Nat × α)) {n m : Nat} (v : α) (h : n ≠ m) :
    Tab.get? (Tab.set l n v) m = Tab.get? l m := by simp [Tab.get?_set, h]

@[simp] theorem Tab.set_set {α : Type} (l : List (Nat × α)) (n : Nat) (v w : α) :
    Tab.set (Tab.set l n v) n w = Tab.set l n w := by
  induction l with
  | nil => simp [Tab.set]
  | cons p t ih =>
    obtain ⟨k, u⟩ := p
    by_cases h1 : n < k
    · simp [Tab.set, h1]
    · by_cases h2 : n = k
      · simp [Tab.set, h2]
      · simp [Tab.set, h1, h2, ih]

@[simp] theorem vget_vset_self {α : Type} {n : Nat} (v : Vector α n) (i : Nat) (a d : α) (h : i < n) :
    vget (vset v i a) i d = a := by
  simp [vget, vset, h]

theorem vget_vset_ne {α : Type} {n : Nat} (v : Vector α n) {i j : Nat} (a d : α) (h : i ≠ j) :
    vget (vset v i a) j d = vget v j d := by
  simp [vget, vset, h]

@[simp] theorem vset_vset {α : Type} {n : Nat} (v : Vector α n) (i : Nat) (a b : α) :
    vset (vset v i a) i b = vset v i b := by
  simp [vset]

theorem NSet.mem_insert (l : List Nat) (n m : Nat) : NSet.mem (NSet.insert l n) m = (decide (m = n) || NSet.mem l m) := by
  induction l with
  | nil => simp [NSet.insert, NSet.mem]
  | cons k t ih =>
    simp only [NSet.insert, NSet.mem, List.contains_eq_mem, List.mem_cons] at *
    split_ifs with h1 h2 <;> simp_all [Bool.or_left_comm]

theorem NSet.mem_erase (l : List Nat) (n m : Nat) : NSet.mem (NSet.erase l n) m = (m != n && NSet.mem l m) := by
  simp only [NSet.mem, NSet.erase, List.contains_eq_mem, List.mem_filter]
  by_cases h : m = n <;> simp [h]

end Sys2Proof.Machine
end

