-- ==== Sys2Proof/Laws/Issue.lean ====
section
/-! SUPPORT. What an issue slot and the operand operations do, once and for all. -/

namespace Sys2Proof.Machine

namespace State

@[simp] theorem tile_setTile (s : State) (a : Nat) (t : Tile) : (s.setTile a t).tile a = t := by simp [tile, setTile]
theorem tile_setTile_ne (s : State) {a b : Nat} (t : Tile) (h : a ≠ b) : (s.setTile a t).tile b = s.tile b := by
  simp [tile, setTile, Tab.get?_set_ne _ _ h]
@[simp] theorem tile_modTile (s : State) (a : Nat) (f : Tile → Tile) : (s.modTile a f).tile a = f (s.tile a) := by simp [modTile]
theorem tile_modTile_ne (s : State) {a b : Nat} (f : Tile → Tile) (h : a ≠ b) : (s.modTile a f).tile b = s.tile b := by
  simp [modTile, tile_setTile_ne _ _ h]

theorem modTile_modTile (s : State) (a : Nat) (f g : Tile → Tile) :
    (s.modTile a f).modTile a g = s.modTile a fun t => g (f t) := by
  simp [modTile, setTile, tile]

theorem modThread_eq (s : State) (a th : Nat) (f : Thread → Thread) :
    s.modThread a th f = s.modTile a fun x => { x with threads := vset x.threads th (f (vget x.threads th {})) } := rfl

theorem modThread_modThread (s : State) (a th : Nat) (f g : Thread → Thread) (h : th < 4) :
    (s.modThread a th f).modThread a th g = s.modThread a th fun t => g (f t) := by
  simp [modThread_eq, modTile_modTile, h]

@[simp] theorem thread_modThread (s : State) (a th : Nat) (f : Thread → Thread) (h : th < 4) :
    (s.modThread a th f).thread a th = f (s.thread a th) := by
  simp [thread, modThread_eq, h]

theorem thread_modThread_ne (s : State) {a th b u : Nat} (f : Thread → Thread) (h : a ≠ b ∨ th ≠ u) :
    (s.modThread a th f).thread b u = s.thread b u := by
  by_cases hab : a = b
  · subst hab
    have : th ≠ u := by simpa using h
    simp [thread, modThread_eq, vget_vset_ne _ _ _ this]
  · simp [thread, modThread_eq, tile_modTile_ne _ _ hab]

end State

/-- An instruction whose thread meets its conditions does its own effect. -/
theorem issue_admitted {r : Op.Rules} {c : Chain} {s : State} {m : Op Unit} (h : s.admits r c = true) :
    issue r c s m = Op.run s c m := by
  simp only [State.admits, Bool.and_eq_true, decide_eq_true_eq, Bool.not_eq_true'] at h
  obtain ⟨⟨⟨⟨⟨⟨⟨-, h1⟩, h2⟩, h3⟩, h3'⟩, h4⟩, h5⟩, h6⟩ := h
  have e1 : (r.compute && s.cur.2 == 0 || r.control && s.cur.2 != 0) = false := by rw [h1, h2]; rfl
  have e3 : (r.privileged && !s.me.sup || r.core && !State.isCore s.cur.1) = false := by
    revert h3 h3'; cases r.privileged <;> cases s.me.sup <;> cases r.core <;> cases State.isCore s.cur.1 <;> decide
  have e4 : (r.guarded && !Op.guardHolds s c) = false := by revert h4; cases r.guarded <;> cases Op.guardHolds s c <;> decide
  have e5 : (r.held && s.me.spec.isSome) = false := by
    revert h5; cases r.held <;> cases s.me.spec <;> simp
  have e6 : (r.drained && !s.me.relaxed.isEmpty) = false := by revert h6; cases r.drained <;> cases s.me.relaxed.isEmpty <;> decide
  simp [issue, e1, e3, e4, e5, e6]

end Sys2Proof.Machine
end

