-- ==== Sys2Proof/Laws/Operands.lean ====
section
/-! SUPPORT. What reading and writing an operand leaves alone. -/

namespace Sys2Proof.Machine
namespace State

theorem thread_modTile (s : State) (a b th : Nat) (f : Tile → Tile) (hf : ∀ t, (f t).threads = t.threads) :
    (s.modTile a f).thread b th = s.thread b th := by
  by_cases h : a = b
  · subst h; rw [thread, tile_modTile, hf]; rfl
  · rw [thread, tile_modTile_ne _ _ h]; rfl

theorem thread_linkPush (s : State) (a b th : Nat) (d : Dir) (w : Word) : (s.linkPush a d w).thread b th = s.thread b th := by
  unfold linkPush
  cases s.linkPeer a d <;> rfl

theorem cur_linkPush (s : State) (a : Nat) (d : Dir) (w : Word) : (s.linkPush a d w).cur = s.cur := by
  unfold linkPush
  cases s.linkPeer a d <;> rfl

theorem mem_linkPush (s : State) (a : Nat) (d : Dir) (w : Word) : (s.linkPush a d w).mem = s.mem := by
  unfold linkPush
  cases s.linkPeer a d <;> rfl

theorem cur_rollWhere (s : State) (p : Watch → Bool) : (s.rollWhere p).cur = s.cur := by
  have : ∀ (ws : List Watch) (s : State),
      (ws.foldl (fun s w => s.modThread w.agent w.thread fun t => { t with rollback := true }) s).cur = s.cur := by
    intro ws
    induction ws with
    | nil => exact fun _ => rfl
    | cons w ws ih => intro s; rw [List.foldl_cons, ih]; rfl
  exact this _ _

theorem cur_store (s : State) (key n v : Nat) : (s.store key n v).cur = s.cur := by
  unfold store rollWatchers
  simp [cur_rollWhere]

/-- A push, now or on its way, leaves who issues. -/
theorem cur_pushLater (s : State) (a th : Nat) (p : PushTo) (v : VReg) (lat : Nat) : (s.pushLater a th p v lat).cur = s.cur := by
  have h : ∀ q, (s.performPush a q).cur = s.cur := by
    intro q
    unfold performPush
    cases q.to_
    · exact cur_linkPush _ _ _ _
    · unfold streamPush
      dsimp only
      split
      · rw [modTile_cur, cur_store]
      · rfl
  unfold pushLater
  dsimp only
  split
  · exact h _
  · rfl

/-- Reading a general register changes no thread, no memory and not who issues. -/
theorem readG_frame (s : State) (a th : Nat) (n : RegNum) :
    (∀ b u, (s.readG a th n).2.thread b u = s.thread b u) ∧ (s.readG a th n).2.cur = s.cur ∧ (s.readG a th n).2.mem = s.mem := by
  have hu : ∀ f, (∀ b u, (s.popUp a f).2.thread b u = s.thread b u) ∧ (s.popUp a f).2.cur = s.cur ∧ (s.popUp a f).2.mem = s.mem := by
    intro f
    unfold popUp
    refine ⟨fun b u => ?_, ?_, ?_⟩ <;> dsimp only <;> split
    · exact (thread_linkPush _ _ _ _ _ _).trans (thread_modTile _ _ _ _ _ (fun _ => rfl))
    · exact thread_modTile _ _ _ _ _ (fun _ => rfl)
    · exact cur_linkPush _ _ _ _
    · rfl
    · exact mem_linkPush _ _ _ _
    · rfl
  have hd : ∀ f, (∀ b u, (s.popDown a f).2.thread b u = s.thread b u) ∧ (s.popDown a f).2.cur = s.cur ∧ (s.popDown a f).2.mem = s.mem := by
    intro f
    unfold popDown
    refine ⟨fun b u => ?_, ?_, ?_⟩ <;> dsimp only <;> split
    · exact (thread_linkPush _ _ _ _ _ _).trans (thread_modTile _ _ _ _ _ (fun _ => rfl))
    · exact thread_modTile _ _ _ _ _ (fun _ => rfl)
    · exact cur_linkPush _ _ _ _
    · rfl
    · exact mem_linkPush _ _ _ _
    · rfl
  unfold readG
  cases regClass n
  case ln => exact hu false
  case lnf => exact hu true
  case lp => exact hd false
  case lpf => exact hd true
  case inbox => exact ⟨fun b u => thread_modTile _ _ _ _ _ (fun _ => rfl), rfl, rfl⟩
  case stream h => exact ⟨fun b u => thread_modTile _ _ _ _ _ (fun _ => rfl), rfl, rfl⟩
  all_goals exact ⟨fun _ _ => rfl, rfl, rfl⟩

/-- Reading a vector register changes no thread, no memory and not who issues. -/
theorem readV_frame (s : State) (a th : Nat) (n : RegNum) :
    (∀ b u, (s.readV a th n).2.thread b u = s.thread b u) ∧ (s.readV a th n).2.cur = s.cur ∧ (s.readV a th n).2.mem = s.mem := by
  unfold readV
  split
  · exact ⟨fun _ _ => rfl, rfl, rfl⟩
  · split
    · exact ⟨fun b u => thread_modTile _ _ _ _ _ (fun _ => rfl), rfl, rfl⟩
    · exact ⟨fun _ _ => rfl, rfl, rfl⟩


/-- A read that pops is recorded. -/
theorem src_popping (s : State) (n : RegNum) (h : Op.pops n = true) :
    (s.src n).2 = (s.readG s.cur.1 s.cur.2 n).2.modMe
      fun t => t.setPops (t.popped ++ [(s.popName s.cur.1 n, (s.readG s.cur.1 s.cur.2 n).1.setWidth 128)]) t.held := by
  show (if Op.pops n = true then _ else s) = _
  rw [if_pos h]
/-- Any other read changes nothing. -/
theorem src_plain (s : State) (n : RegNum) (h : ¬Op.pops n = true) : (s.src n).2 = s := by
  show (if Op.pops n = true then _ else s) = _
  rw [if_neg h]
theorem srcV_popping (s : State) (n : RegNum) (h : isHandle n = true) :
    (s.srcV n).2 = (s.readV s.cur.1 s.cur.2 n).2.modMe
      fun t => t.setPops (t.popped ++ [(s.popName s.cur.1 n, (s.readV s.cur.1 s.cur.2 n).1)]) t.held := by
  show (if isHandle n = true then _ else s) = _
  rw [if_pos h]
theorem srcV_plain (s : State) (n : RegNum) (h : ¬isHandle n = true) : (s.srcV n).2 = s := by
  show (if isHandle n = true then _ else s) = _
  rw [if_neg h]

theorem src_cur (s : State) (n : RegNum) : (s.src n).2.cur = s.cur := by
  by_cases h : Op.pops n = true
  · rw [src_popping s n h]; exact (s.readG_frame s.cur.1 s.cur.2 n).2.1
  · rw [src_plain s n h]

theorem src_mem (s : State) (n : RegNum) : (s.src n).2.mem = s.mem := by
  by_cases h : Op.pops n = true
  · rw [src_popping s n h]; exact (s.readG_frame s.cur.1 s.cur.2 n).2.2
  · rw [src_plain s n h]

/-- The issuing thread after a read, but for its record of pops. -/
theorem src_me (s : State) (n : RegNum) (h4 : s.cur.2 < 4) : ∃ l, (s.src n).2.me = s.me.setPops l s.me.held := by
  by_cases h : Op.pops n = true
  · rw [src_popping s n h]
    obtain ⟨h1, h2, -⟩ := s.readG_frame s.cur.1 s.cur.2 n
    refine ⟨s.me.popped ++ [(s.popName s.cur.1 n, (s.readG s.cur.1 s.cur.2 n).1.setWidth 128)], ?_⟩
    unfold modMe me
    rw [modThread_cur, h2, thread_modThread _ _ _ _ h4, h1]
  · rw [src_plain s n h]; exact ⟨s.me.popped, rfl⟩

theorem srcV_cur (s : State) (n : RegNum) : (s.srcV n).2.cur = s.cur := by
  by_cases h : isHandle n = true
  · rw [srcV_popping s n h]; exact (s.readV_frame s.cur.1 s.cur.2 n).2.1
  · rw [srcV_plain s n h]

theorem srcV_mem (s : State) (n : RegNum) : (s.srcV n).2.mem = s.mem := by
  by_cases h : isHandle n = true
  · rw [srcV_popping s n h]; exact (s.readV_frame s.cur.1 s.cur.2 n).2.2
  · rw [srcV_plain s n h]

/-- The issuing thread after a read, but for its record of pops. -/
theorem srcV_me (s : State) (n : RegNum) (h4 : s.cur.2 < 4) : ∃ l, (s.srcV n).2.me = s.me.setPops l s.me.held := by
  by_cases h : isHandle n = true
  · rw [srcV_popping s n h]
    obtain ⟨h1, h2, -⟩ := s.readV_frame s.cur.1 s.cur.2 n
    refine ⟨s.me.popped ++ [(s.popName s.cur.1 n, (s.readV s.cur.1 s.cur.2 n).1)], ?_⟩
    unfold modMe me
    rw [modThread_cur, h2, thread_modThread _ _ _ _ h4, h1]
  · rw [srcV_plain s n h]; exact ⟨s.me.popped, rfl⟩

theorem src_held (s : State) (n : RegNum) (h4 : s.cur.2 < 4) : (s.src n).2.me.held = s.me.held := by
  obtain ⟨l, h⟩ := s.src_me n h4; rw [h]; rfl
theorem src_pc (s : State) (n : RegNum) (h4 : s.cur.2 < 4) : (s.src n).2.me.pc = s.me.pc := by
  obtain ⟨l, h⟩ := s.src_me n h4; rw [h]; rfl
theorem srcV_held (s : State) (n : RegNum) (h4 : s.cur.2 < 4) : (s.srcV n).2.me.held = s.me.held := by
  obtain ⟨l, h⟩ := s.srcV_me n h4; rw [h]; rfl
theorem srcV_pc (s : State) (n : RegNum) (h4 : s.cur.2 < 4) : (s.srcV n).2.me.pc = s.me.pc := by
  obtain ⟨l, h⟩ := s.srcV_me n h4; rw [h]; rfl
theorem src_after (s : State) (n : RegNum) (c : Chain) (h4 : s.cur.2 < 4) : (s.src n).2.after c = s.after c := by
  unfold after; rw [src_pc s n h4]

end State
end Sys2Proof.Machine
end

