-- ==== Sys2Proof/Laws/Meanings.lean ====
section
/-! SUPPORT. The steps of a meaning, one lemma each: checking operands, reading, writing, completing. -/

namespace Sys2Proof.Machine

namespace Op

theorem bind_ok {α β : Type} {m : Op α} {f : α → Op β} {s s' : State} {a : α} (h : m s = .ok (a, s')) :
    (m >>= f) s = f a s' := by
  show (do let p ← m s; f p.1 p.2) = _
  rw [h]; rfl

/-- Operands at hand pass the check. -/
theorem need_ok {reads dests : List OpRef} {s : State} (h : s.atHand reads dests = true) : need reads dests s = .ok ((), s) := by
  simp only [State.atHand, Bool.and_eq_true, Bool.not_eq_true', beq_iff_eq] at h
  obtain ⟨⟨⟨h1, h2⟩, h3⟩, h4⟩ := h
  have ht : toTake s.me reads = reads := by simp [toTake, h1, h2]
  have e : need reads dests s = (do
      if s.me.spec.isSome && (reads ++ dests).any heldInSpec then park .speculating
      match s.readiness s.cur.1 s.cur.2 (toTake s.me reads) dests with
      | .ready => pure ()
      | .wait => park (.operands reads dests)
      | .bad cause v => trap cause v : Op Unit) s := rfl
  rw [e, h3, ht, h4]
  rfl

/-- Taking a popping source for the first time. -/
theorem take_ok {s : State} (n : RegNum) (pop : State → VReg × State) (h : s.me.held = []) :
    take n pop s = .ok ((pop s).1, (pop s).2.modMe fun t => t.setPops (t.popped ++ [(s.popName s.cur.1 n, (pop s).1)]) t.held) := by
  have e : take n pop s = (match s.me.held with
      | p :: rest => (do
        set (s.modMe fun t => t.setPops (t.popped ++ [p]) rest)
        pure p.2 : Op VReg)
      | [] => (do
        let r := pop s
        set (r.2.modMe fun t => t.setPops (t.popped ++ [(s.popName s.cur.1 n, r.1)]) t.held)
        pure r.1 : Op VReg)) s := rfl
  rw [e, h]
  rfl

/-- Reading a general operand. -/
theorem readG_ok {s : State} (n : RegNum) (h : s.me.held = []) : readG n s = .ok ((s.src n).1, (s.src n).2) := by
  unfold readG
  by_cases hp : pops n = true
  · rw [if_pos hp, bind_ok (take_ok n _ h)]
    have hw : (((s.readG s.cur.1 s.cur.2 n).1.setWidth 128 : VReg).setWidth 64 : Word) = (s.readG s.cur.1 s.cur.2 n).1 := by
      apply BitVec.eq_of_toNat_eq
      simp only [BitVec.toNat_setWidth]
      have := (s.readG s.cur.1 s.cur.2 n).1.isLt
      omega
    show Except.ok ((_ : Word), _) = _
    rw [hw, ← State.src_popping s n hp]; rfl
  · rw [if_neg hp]
    show Except.ok ((s.readG s.cur.1 s.cur.2 n).1, s) = Except.ok ((s.src n).1, (s.src n).2)
    rw [State.src_plain s n hp]; rfl

/-- Reading a vector operand. -/
theorem readV_ok {s : State} (n : RegNum) (h : s.me.held = []) : readV n s = .ok ((s.srcV n).1, (s.srcV n).2) := by
  unfold readV
  by_cases hp : isHandle n = true
  · rw [if_pos hp, take_ok n _ h, ← State.srcV_popping s n hp]; rfl
  · rw [if_neg hp]
    show Except.ok ((s.readV s.cur.1 s.cur.2 n).1, s) = Except.ok ((s.srcV n).1, (s.srcV n).2)
    rw [State.srcV_plain s n hp]; rfl

theorem writeG_ok (s : State) (n : RegNum) (v : Word) (lat : Nat) : writeG n v lat s = .ok ((), s.dst n v lat) := rfl
theorem writeV_ok (s : State) (n : RegNum) (v : VReg) (lat : Nat) : writeV n v lat s = .ok ((), s.dstV n v lat) := rfl
theorem retire_ok (s : State) (c : Chain) : retire c s = .ok ((), s.fell c) := rfl
theorem retireTo_ok (s : State) (next : Word) (b : Bool) : retireTo next b s = .ok ((), s.went next b) := rfl

theorem run_ok {s s' : State} {c : Chain} {m : Op Unit} (h : m s = .ok ((), s')) : run s c m = .next s' := by
  simp [run, h]

end Op

theorem State.atHand_held {s : State} {reads dests : List OpRef} (h : s.atHand reads dests = true) : s.me.held = [] := by
  simp only [State.atHand, Bool.and_eq_true] at h
  simpa using h.1.1.1

theorem State.admits_lt {s : State} {r : Op.Rules} {c : Chain} (h : s.admits r c = true) : s.cur.2 < 4 := by
  simp only [State.admits, Bool.and_eq_true, decide_eq_true_eq] at h
  exact h.1.1.1.1.1.1.1

theorem State.dst_cur (s : State) (n : RegNum) (v : Word) (lat : Nat) : (s.dst n v lat).cur = s.cur := by
  unfold State.dst State.writeG
  cases regClass n
  case ln | lnf | lp | lpf | stream => exact State.cur_pushLater _ _ _ _ _ _
  all_goals rfl

/-! ### The scalar shapes -/

/-- Two sources and a destination. -/
theorem alu3_next {c : Chain} {x y z : RegNum} {lat : Nat} {f : Word → Word → Word} {s : State} (h4 : s.cur.2 < 4)
    (hr : s.atHand [.g y, .g z] [.g x] = true) :
    Op.run s c (alu3 c x y z lat f)
      = .next ((((s.src y).2.src z).2.dst x (f (s.src y).1 ((s.src y).2.src z).1) lat).fell c) := by
  apply Op.run_ok
  have hh := State.atHand_held hr
  unfold alu3
  rw [Op.bind_ok (Op.need_ok hr), Op.bind_ok (Op.readG_ok y hh), Op.bind_ok (Op.readG_ok z ((State.src_held s y h4).trans hh)),
    Op.bind_ok (Op.writeG_ok _ x _ lat)]
  rfl

/-- One source and a destination. -/
theorem alu2_next {c : Chain} {x y : RegNum} {f : Word → Word} {s : State} (hr : s.atHand [.g y] [.g x] = true) :
    Op.run s c (alu2 c x y f) = .next (((s.src y).2.dst x (f (s.src y).1)).fell c) := by
  apply Op.run_ok
  unfold alu2
  rw [Op.bind_ok (Op.need_ok hr), Op.bind_ok (Op.readG_ok y (State.atHand_held hr)), Op.bind_ok (Op.writeG_ok _ x _ 1)]
  rfl

/-- A destination and a value fixed at issue. -/
theorem loadConst_next {c : Chain} {x : RegNum} {v : State → Word} {s : State} (hr : s.atHand [] [.g x] = true) :
    Op.run s c (loadConst c x v) = .next ((s.dst x (v s)).fell c) := by
  apply Op.run_ok
  unfold loadConst
  rw [Op.bind_ok (Op.need_ok hr)]
  rfl

/-- A branch on one register. -/
theorem branch1_next {c : Chain} {x : RegNum} {o : Word} {p : Word → Bool} {s : State} (h4 : s.cur.2 < 4)
    (hr : s.atHand [.g x] [] = true) :
    Op.run s c (branch1 c x o p) = .next (if p (s.src x).1 then (s.src x).2.went (s.me.pc + o * 2) true else (s.src x).2.fell c) := by
  apply Op.run_ok
  unfold branch1
  rw [Op.bind_ok (Op.need_ok hr), Op.bind_ok (Op.readG_ok x (State.atHand_held hr)), ← State.src_pc s x h4]
  cases p (s.src x).1 <;> rfl

/-- A branch on two registers. -/
theorem branch2_next {c : Chain} {x y : RegNum} {o : Word} {p : Word → Word → Bool} {s : State} (h4 : s.cur.2 < 4)
    (hr : s.atHand [.g x, .g y] [] = true) :
    Op.run s c (branch2 c x y o p) = .next (if p (s.src x).1 ((s.src x).2.src y).1
      then ((s.src x).2.src y).2.went (s.me.pc + o * 2) true else ((s.src x).2.src y).2.fell c) := by
  have h4' : (s.src x).2.cur.2 < 4 := by rw [State.src_cur]; exact h4
  apply Op.run_ok
  unfold branch2
  rw [Op.bind_ok (Op.need_ok hr), Op.bind_ok (Op.readG_ok x (State.atHand_held hr)),
    Op.bind_ok (Op.readG_ok y ((State.src_held s x h4).trans (State.atHand_held hr))), ← State.src_pc s x h4, ← State.src_pc _ y h4']
  cases p (s.src x).1 ((s.src x).2.src y).1 <;> rfl

end Sys2Proof.Machine
end

