-- ==== Sys2Proof/Laws/Memory.lean ====
section
/-! SUPPORT. Laws of the canonical list of cells: what a read after a write gives, and that every operation keeps the form. -/

namespace Sys2Proof.Machine

/-! ### The canonical form -/

theorem Mem.wf_iff (m : List Host.Cell) :
    Mem.wf m = true ↔ m.Pairwise (fun x y => x.1 < y.1) ∧ ∀ c ∈ m, c.2 ≠ 0 := by
  induction m with
  | nil => simp [Mem.wf]
  | cons c t ih =>
    obtain ⟨k, b⟩ := c
    cases t with
    | nil => simp [Mem.wf]
    | cons d u =>
      obtain ⟨k', b'⟩ := d
      simp only [Mem.wf, Bool.and_eq_true, ih, bne_iff_ne, decide_eq_true_eq]
      simp only [List.pairwise_cons, List.mem_cons, forall_eq_or_imp]
      constructor
      · rintro ⟨⟨hb, hk⟩, ⟨hp, hu⟩, hb', hz⟩
        exact ⟨⟨⟨hk, fun x hx => lt_trans hk (hp x hx)⟩, hp, hu⟩, hb, hb', hz⟩
      · rintro ⟨⟨⟨hk, _⟩, hp, hu⟩, hb, hb', hz⟩
        exact ⟨⟨hb, hk⟩, ⟨hp, hu⟩, hb', hz⟩

theorem Mem.mem_write {m : List Host.Cell} {n : Nat} {b : Byte} {c : Host.Cell} (h : c ∈ Mem.write m n b) :
    c ∈ m ∨ (c = (n, b) ∧ b ≠ 0) := by
  induction m with
  | nil =>
    simp only [Mem.write] at h
    split_ifs at h with hb
    · simp at h
    · simp_all
  | cons d t ih =>
    obtain ⟨k, e⟩ := d
    simp only [Mem.write] at h
    split_ifs at h <;> simp_all <;> tauto

theorem Mem.write_wf {m : List Host.Cell} (n : Nat) (b : Byte) (h : Mem.wf m = true) : Mem.wf (Mem.write m n b) = true := by
  rw [Mem.wf_iff] at *
  obtain ⟨hp, hz⟩ := h
  refine ⟨?_, fun c hc => ?_⟩
  · clear hz
    induction m with
    | nil => simp only [Mem.write]; split_ifs <;> simp
    | cons d t ih =>
      obtain ⟨k, e⟩ := d
      have hp' := hp
      rw [List.pairwise_cons] at hp
      simp only [Mem.write]
      split_ifs with h1 h2 h3 h4
      · exact hp'
      · rw [List.pairwise_cons]
        refine ⟨fun c hc => ?_, hp'⟩
        rcases List.mem_cons.1 hc with rfl | hc
        · exact h1
        · exact lt_trans h1 (hp.1 c hc)
      · exact hp.2
      · subst h3
        rw [List.pairwise_cons]
        exact ⟨hp.1, hp.2⟩
      · rw [List.pairwise_cons]
        refine ⟨fun c hc => ?_, ih hp.2⟩
        rcases Mem.mem_write hc with hc | ⟨rfl, -⟩
        · exact hp.1 c hc
        · show k < n; omega
  · rcases Mem.mem_write hc with hc | ⟨rfl, hb⟩
    · exact hz c hc
    · exact hb

theorem Mem.writeN_wf (n : Nat) : ∀ {m : List Host.Cell} (k v : Nat), Mem.wf m = true → Mem.wf (Mem.writeN m k n v) = true := by
  induction n with
  | zero => intro m k v h; exact h
  | succ n ih => intro m k v h; exact ih _ _ (Mem.write_wf k _ h)

theorem Mem.writeMasked_wf (n : Nat) :
    ∀ {m : List Host.Cell} (k mask v : Nat), Mem.wf m = true → Mem.wf (Mem.writeMasked m k n mask v) = true := by
  induction n with
  | zero => intro m k mask v h; exact h
  | succ n ih =>
    intro m k mask v h
    simp only [Mem.writeMasked]
    split_ifs
    · exact ih _ _ _ (Mem.write_wf k _ h)
    · exact ih _ _ _ h

theorem Mem.filter_wf {m : List Host.Cell} (p : Host.Cell → Bool) (h : Mem.wf m = true) : Mem.wf (m.filter p) = true := by
  rw [Mem.wf_iff] at *
  exact ⟨h.1.filter p, fun c hc => h.2 c (List.mem_of_mem_filter hc)⟩

theorem Mem.clear_wf {m : List Host.Cell} (lo n : Nat) (h : Mem.wf m = true) : Mem.wf (Mem.clear m lo n) = true :=
  Mem.filter_wf _ h

theorem Mem.paste_wf (cells : List Host.Cell) :
    ∀ {m : List Host.Cell} (lo : Nat), Mem.wf m = true → Mem.wf (Mem.paste m lo cells) = true := by
  induction cells with
  | nil => intro m lo h; exact h
  | cons c t ih => intro m lo h; exact ih lo (Mem.write_wf _ _ h)

/-! ### Reading after writing -/

/-- A key below every listed one reads 0. -/
theorem Mem.read_below {m : List Host.Cell} {n : Nat} (h : ∀ c ∈ m, n < c.1) : Mem.read m n = 0 := by
  induction m with
  | nil => rfl
  | cons c t ih =>
    obtain ⟨k, b⟩ := c
    have hk := h (k, b) (by simp)
    have : k ≠ n := by simp only at hk; omega
    simp only [Mem.read, this, if_false]
    exact ih fun c hc => h c (by simp [hc])

theorem Mem.read_write_self {m : List Host.Cell} (n : Nat) (b : Byte) (h : Mem.wf m = true) :
    Mem.read (Mem.write m n b) n = b := by
  rw [Mem.wf_iff] at h
  obtain ⟨hp, -⟩ := h
  induction m with
  | nil => simp only [Mem.write]; split_ifs with hb <;> simp [Mem.read, hb]
  | cons d t ih =>
    obtain ⟨k, e⟩ := d
    rw [List.pairwise_cons] at hp
    simp only [Mem.write]
    split_ifs with h1 h2 h3 h4
    · rw [h2]
      refine Mem.read_below fun c hc => ?_
      rcases List.mem_cons.1 hc with rfl | hc
      · exact h1
      · exact lt_trans h1 (hp.1 c hc)
    · simp [Mem.read]
    · rw [h4, h3]
      exact Mem.read_below hp.1
    · simp [Mem.read]
    · have : k ≠ n := by omega
      simp only [Mem.read, this, if_false]
      exact ih hp.2

theorem Mem.read_write_ne (m : List Host.Cell) {n k : Nat} (b : Byte) (h : n ≠ k) :
    Mem.read (Mem.write m n b) k = Mem.read m k := by
  induction m with
  | nil => simp only [Mem.write]; split_ifs <;> simp [Mem.read, h]
  | cons d t ih =>
    obtain ⟨j, e⟩ := d
    simp only [Mem.write]
    split_ifs with h1 h2 h3 h4
    · rfl
    · simp [Mem.read, h]
    · have : j ≠ k := by omega
      simp [Mem.read, this]
    · have : j ≠ k := by omega
      simp [Mem.read, this, h]
    · simp only [Mem.read, ih]

/-- A store leaves every byte outside it alone. -/
theorem Mem.read_writeN_outside (n : Nat) :
    ∀ (m : List Host.Cell) {k a : Nat} (v : Nat), (a < k ∨ k + n ≤ a) → Mem.read (Mem.writeN m k n v) a = Mem.read m a := by
  induction n with
  | zero => intro m k a v _; rfl
  | succ n ih =>
    intro m k a v h
    simp only [Mem.writeN]
    rw [ih _ _ (by omega), Mem.read_write_ne _ _ (by omega)]

/-- A store puts byte i of its value at its i-th key. -/
theorem Mem.read_writeN (n : Nat) :
    ∀ {m : List Host.Cell} (k v i : Nat), Mem.wf m = true → i < n →
      Mem.read (Mem.writeN m k n v) (k + i) = BitVec.ofNat 8 (v / 256 ^ i) := by
  induction n with
  | zero => intro m k v i _ h; omega
  | succ n ih =>
    intro m k v i hw h
    simp only [Mem.writeN]
    rcases Nat.eq_zero_or_pos i with rfl | hi
    · rw [Mem.read_writeN_outside _ _ _ (by omega)]
      simpa using Mem.read_write_self k _ hw
    · obtain ⟨j, rfl⟩ : ∃ j, i = j + 1 := ⟨i - 1, by omega⟩
      have : k + (j + 1) = k + 1 + j := by omega
      rw [this, ih (k + 1) (v / 256) j (Mem.write_wf k _ hw) (by omega), Nat.div_div_eq_div_mul, pow_succ, Nat.mul_comm]

/-- Reading back what a store of `n` bytes put there. -/
theorem Mem.readN_writeN (n : Nat) :
    ∀ {m : List Host.Cell} (k v : Nat), Mem.wf m = true → Mem.readN (Mem.writeN m k n v) k n = v % 256 ^ n := by
  induction n with
  | zero => intro m k v _; simp [Mem.readN, Nat.mod_one]
  | succ n ih =>
    intro m k v h
    simp only [Mem.readN, Mem.writeN]
    rw [ih _ _ (Mem.write_wf k _ h), Mem.read_writeN_outside _ _ _ (by omega), Mem.read_write_self k _ h]
    have hp : 256 ^ (n + 1) = 256 * 256 ^ n := by rw [pow_succ, Nat.mul_comm]
    rw [BitVec.toNat_ofNat, hp, Nat.mod_mul]

theorem Mem.readN_lt (m : List Host.Cell) (n : Nat) : ∀ k, Mem.readN m k n < 256 ^ n := by
  induction n with
  | zero => intro k; simp [Mem.readN]
  | succ n ih =>
    intro k
    simp only [Mem.readN]
    have h1 := (Mem.read m k).isLt
    have h2 := ih (k + 1)
    rw [pow_succ]
    omega

/-- A read depends on its own bytes only. -/
theorem Mem.readN_congr (n : Nat) :
    ∀ {m m' : List Host.Cell} (k : Nat), (∀ a, k ≤ a → a < k + n → Mem.read m a = Mem.read m' a) →
      Mem.readN m k n = Mem.readN m' k n := by
  induction n with
  | zero => intro m m' k _; rfl
  | succ n ih =>
    intro m m' k h
    simp only [Mem.readN]
    rw [h k (by omega) (by omega), ih (k + 1) fun a h1 h2 => h a (by omega) (by omega)]

end Sys2Proof.Machine
end

