-- ==== Sys2Proof/Laws/PerInstr.lean ====
section
/-! SUPPORT. One fact of every constructor of `Instr`: the base halfword of its encoding is none of major 0xF, so a chain ends at it
(R27, R35). -/

namespace Sys2Proof.Laws.BaseEndsChain

open Sys2Proof

/-- The base halfword of an encoding does not continue its chain. -/
def Statement (i : Instr) : Prop := ∀ e, i.enc = some e → isPrefixWord e.base.half = false

/-! The major opcode of each layout. -/

theorem major_rrr (m : BitVec 4) (x y z f : BitVec 3) : majorOf (rrr m x y z f) = m := by
  apply BitVec.eq_of_getLsbD_eq
  intro i hi
  simp only [majorOf, rrr, BitVec.getLsbD_extractLsb', BitVec.getLsbD_append, hi, decide_true, Bool.true_and]
  rw [if_neg (by omega), if_neg (by omega), if_neg (by omega), if_neg (by omega)]
  congr 1; omega

theorem major_rrf (m : BitVec 4) (x y : BitVec 3) (f : BitVec 6) : majorOf (rrf m x y f) = m := by
  apply BitVec.eq_of_getLsbD_eq
  intro i hi
  simp only [majorOf, rrf, BitVec.getLsbD_extractLsb', BitVec.getLsbD_append, hi, decide_true, Bool.true_and]
  rw [if_neg (by omega), if_neg (by omega), if_neg (by omega)]
  congr 1; omega

theorem major_imm4 (m : BitVec 4) (x y : BitVec 3) (c : BitVec 2) (v : BitVec 4) : majorOf (((m ++ x ++ y ++ c) ++ v : Half)) = m := by
  apply BitVec.eq_of_getLsbD_eq
  intro i hi
  simp only [majorOf, BitVec.getLsbD_extractLsb', BitVec.getLsbD_append, hi, decide_true, Bool.true_and]
  rw [if_neg (by omega), if_neg (by omega), if_neg (by omega), if_neg (by omega)]
  congr 1; omega

theorem major_imm6 (m : BitVec 4) (x y : BitVec 3) (v : BitVec 6) : majorOf (((m ++ x ++ y) ++ v : Half)) = m := by
  apply BitVec.eq_of_getLsbD_eq
  intro i hi
  simp only [majorOf, BitVec.getLsbD_extractLsb', BitVec.getLsbD_append, hi, decide_true, Bool.true_and]
  rw [if_neg (by omega), if_neg (by omega), if_neg (by omega)]
  congr 1; omega

theorem major_imm9 (m : BitVec 4) (x : BitVec 3) (v : BitVec 9) : majorOf (((m ++ x) ++ v : Half)) = m := by
  apply BitVec.eq_of_getLsbD_eq
  intro i hi
  simp only [majorOf, BitVec.getLsbD_extractLsb', BitVec.getLsbD_append, hi, decide_true, Bool.true_and]
  rw [if_neg (by omega), if_neg (by omega)]
  congr 1; omega

theorem major_imm12 (m : BitVec 4) (v : BitVec 12) : majorOf ((m ++ v : Half)) = m := by
  apply BitVec.eq_of_getLsbD_eq
  intro i hi
  simp only [majorOf, BitVec.getLsbD_extractLsb', BitVec.getLsbD_append, hi, decide_true, Bool.true_and]
  rw [if_neg (by omega)]
  congr 1; omega

theorem major_s (f x : BitVec 3) (k : BitVec 5) : isPrefixWord (sLayout f x k) = false := by
  have h : (majorOf (sLayout f x k)).getLsbD 3 = false := by
    simp only [majorOf, sLayout, BitVec.getLsbD_extractLsb', BitVec.getLsbD_append]
    rfl
  unfold isPrefixWord
  rw [beq_eq_false_iff_ne]
  intro hh; rw [hh] at h; exact absurd h (by decide)

theorem major_h (c : BitVec 3) (k : BitVec 8) : isPrefixWord (hLayout c k) = false := by
  have h : (majorOf (hLayout c k)).getLsbD 3 = false := by
    simp only [majorOf, hLayout, BitVec.getLsbD_extractLsb', BitVec.getLsbD_append]
    rfl
  unfold isPrefixWord
  rw [beq_eq_false_iff_ne]
  intro hh; rw [hh] at h; exact absurd h (by decide)

theorem major_imm8 (m : BitVec 8) (v : BitVec 8) (hm : m.getLsbD 7 = false) : isPrefixWord (m ++ v : Half) = false := by
  have h : (majorOf (m ++ v : Half)).getLsbD 3 = false := by
    simp only [majorOf, BitVec.getLsbD_extractLsb', BitVec.getLsbD_append]
    exact hm
  unfold isPrefixWord
  rw [beq_eq_false_iff_ne]
  intro hh; rw [hh] at h; exact absurd h (by decide)

/-- A major opcode other than 0xF ends the chain. -/
theorem ends {w : Half} {m : BitVec 4} (h : majorOf w = m) (hm : (m == 0xF#4) = false) : isPrefixWord w = false := by
  unfold isPrefixWord; rw [h]; exact hm

/-! The constructors. -/

theorem nop : ∀ a0, Statement (.nop a0) := by
  intros; rintro e ⟨⟩; exact major_s _ _ _
theorem trap : ∀ a0 a1, Statement (.trap a0 a1) := by
  intros; rintro e ⟨⟩; exact major_imm8 _ _ rfl
theorem eret : ∀ a0, Statement (.eret a0) := by
  intros; rintro e ⟨⟩; exact major_s _ _ _
theorem mfs : ∀ a0 a1 a2, Statement (.mfs a0 a1 a2) := by
  intros; rintro e ⟨⟩; exact major_s _ _ _
theorem mts : ∀ a0 a1 a2, Statement (.mts a0 a1 a2) := by
  intros; rintro e ⟨⟩; exact major_s _ _ _
theorem brk : ∀ a0 a1, Statement (.brk a0 a1) := by
  intros; rintro e ⟨⟩; exact major_imm8 _ _ rfl
theorem halt : ∀ a0, Statement (.halt a0) := by
  intros; rintro e ⟨⟩; exact major_s _ _ _
theorem sleep : ∀ a0, Statement (.sleep a0) := by
  intros; rintro e ⟨⟩; exact major_s _ _ _
theorem align : ∀ a0 a1, Statement (.align a0 a1) := by
  intros; rintro e ⟨⟩; exact major_h _ _
theorem pref : ∀ a0 a1, Statement (.pref a0 a1) := by
  intros; rintro e ⟨⟩; exact major_h _ _
theorem tstop : ∀ a0 a1, Statement (.tstop a0 a1) := by
  intros; rintro e ⟨⟩; exact ends (major_rrf _ _ _ _) rfl
theorem tsave : ∀ a0 a1 a2, Statement (.tsave a0 a1 a2) := by
  intros; rintro e ⟨⟩; exact ends (major_rrf _ _ _ _) rfl
theorem tload : ∀ a0 a1 a2, Statement (.tload a0 a1 a2) := by
  intros; rintro e ⟨⟩; exact ends (major_rrf _ _ _ _) rfl
theorem tgo : ∀ a0 a1, Statement (.tgo a0 a1) := by
  intros; rintro e ⟨⟩; exact ends (major_rrf _ _ _ _) rfl
theorem tmap : ∀ a0 a1 a2, Statement (.tmap a0 a1 a2) := by
  intros; rintro e ⟨⟩; exact ends (major_rrf _ _ _ _) rfl
theorem tquar : ∀ a0 a1, Statement (.tquar a0 a1) := by
  intros; rintro e ⟨⟩; exact ends (major_rrf _ _ _ _) rfl
theorem zero : ∀ a0 a1 a2, Statement (.zero a0 a1 a2) := by
  intros; rintro e ⟨⟩; exact ends (major_rrf _ _ _ _) rfl
theorem tlbinv : ∀ a0 a1 a2, Statement (.tlbinv a0 a1 a2) := by
  intros; rintro e ⟨⟩; exact ends (major_rrf _ _ _ _) rfl
theorem vote : ∀ a0 a1, Statement (.vote a0 a1) := by
  intros; rintro e ⟨⟩; exact ends (major_rrf _ _ _ _) rfl
theorem add : ∀ a0 a1 a2 a3, Statement (.add a0 a1 a2 a3) := by
  intros; rintro e ⟨⟩; exact ends (major_rrr _ _ _ _ _) rfl
theorem sub : ∀ a0 a1 a2 a3, Statement (.sub a0 a1 a2 a3) := by
  intros; rintro e ⟨⟩; exact ends (major_rrr _ _ _ _ _) rfl
theorem and : ∀ a0 a1 a2 a3, Statement (.and a0 a1 a2 a3) := by
  intros; rintro e ⟨⟩; exact ends (major_rrr _ _ _ _ _) rfl
theorem or : ∀ a0 a1 a2 a3, Statement (.or a0 a1 a2 a3) := by
  intros; rintro e ⟨⟩; exact ends (major_rrr _ _ _ _ _) rfl
theorem xor : ∀ a0 a1 a2 a3, Statement (.xor a0 a1 a2 a3) := by
  intros; rintro e ⟨⟩; exact ends (major_rrr _ _ _ _ _) rfl
theorem shl : ∀ a0 a1 a2 a3, Statement (.shl a0 a1 a2 a3) := by
  intros; rintro e ⟨⟩; exact ends (major_rrr _ _ _ _ _) rfl
theorem shr : ∀ a0 a1 a2 a3, Statement (.shr a0 a1 a2 a3) := by
  intros; rintro e ⟨⟩; exact ends (major_rrr _ _ _ _ _) rfl
theorem sar : ∀ a0 a1 a2 a3, Statement (.sar a0 a1 a2 a3) := by
  intros; rintro e ⟨⟩; exact ends (major_rrr _ _ _ _ _) rfl
theorem addw : ∀ a0 a1 a2 a3, Statement (.addw a0 a1 a2 a3) := by
  intros; rintro e ⟨⟩; exact ends (major_rrr _ _ _ _ _) rfl
theorem subw : ∀ a0 a1 a2 a3, Statement (.subw a0 a1 a2 a3) := by
  intros; rintro e ⟨⟩; exact ends (major_rrr _ _ _ _ _) rfl
theorem andn : ∀ a0 a1 a2 a3, Statement (.andn a0 a1 a2 a3) := by
  intros; rintro e ⟨⟩; exact ends (major_rrr _ _ _ _ _) rfl
theorem orn : ∀ a0 a1 a2 a3, Statement (.orn a0 a1 a2 a3) := by
  intros; rintro e ⟨⟩; exact ends (major_rrr _ _ _ _ _) rfl
theorem xnor : ∀ a0 a1 a2 a3, Statement (.xnor a0 a1 a2 a3) := by
  intros; rintro e ⟨⟩; exact ends (major_rrr _ _ _ _ _) rfl
theorem rol : ∀ a0 a1 a2 a3, Statement (.rol a0 a1 a2 a3) := by
  intros; rintro e ⟨⟩; exact ends (major_rrr _ _ _ _ _) rfl
theorem ror : ∀ a0 a1 a2 a3, Statement (.ror a0 a1 a2 a3) := by
  intros; rintro e ⟨⟩; exact ends (major_rrr _ _ _ _ _) rfl
theorem scadd : ∀ a0 a1 a2 a3, Statement (.scadd a0 a1 a2 a3) := by
  intros; rintro e ⟨⟩; exact ends (major_rrr _ _ _ _ _) rfl
theorem mul : ∀ a0 a1 a2 a3, Statement (.mul a0 a1 a2 a3) := by
  intros; rintro e ⟨⟩; exact ends (major_rrr _ _ _ _ _) rfl
theorem mulh : ∀ a0 a1 a2 a3, Statement (.mulh a0 a1 a2 a3) := by
  intros; rintro e ⟨⟩; exact ends (major_rrr _ _ _ _ _) rfl
theorem mulhu : ∀ a0 a1 a2 a3, Statement (.mulhu a0 a1 a2 a3) := by
  intros; rintro e ⟨⟩; exact ends (major_rrr _ _ _ _ _) rfl
theorem mulhsu : ∀ a0 a1 a2 a3, Statement (.mulhsu a0 a1 a2 a3) := by
  intros; rintro e ⟨⟩; exact ends (major_rrr _ _ _ _ _) rfl
theorem div : ∀ a0 a1 a2 a3, Statement (.div a0 a1 a2 a3) := by
  intros; rintro e ⟨⟩; exact ends (major_rrr _ _ _ _ _) rfl
theorem divu : ∀ a0 a1 a2 a3, Statement (.divu a0 a1 a2 a3) := by
  intros; rintro e ⟨⟩; exact ends (major_rrr _ _ _ _ _) rfl
theorem rem : ∀ a0 a1 a2 a3, Statement (.rem a0 a1 a2 a3) := by
  intros; rintro e ⟨⟩; exact ends (major_rrr _ _ _ _ _) rfl
theorem remu : ∀ a0 a1 a2 a3, Statement (.remu a0 a1 a2 a3) := by
  intros; rintro e ⟨⟩; exact ends (major_rrr _ _ _ _ _) rfl
theorem slt : ∀ a0 a1 a2 a3, Statement (.slt a0 a1 a2 a3) := by
  intros; rintro e ⟨⟩; exact ends (major_rrr _ _ _ _ _) rfl
theorem sltu : ∀ a0 a1 a2 a3, Statement (.sltu a0 a1 a2 a3) := by
  intros; rintro e ⟨⟩; exact ends (major_rrr _ _ _ _ _) rfl
theorem seq : ∀ a0 a1 a2 a3, Statement (.seq a0 a1 a2 a3) := by
  intros; rintro e ⟨⟩; exact ends (major_rrr _ _ _ _ _) rfl
theorem sne : ∀ a0 a1 a2 a3, Statement (.sne a0 a1 a2 a3) := by
  intros; rintro e ⟨⟩; exact ends (major_rrr _ _ _ _ _) rfl
theorem min : ∀ a0 a1 a2 a3, Statement (.min a0 a1 a2 a3) := by
  intros; rintro e ⟨⟩; exact ends (major_rrr _ _ _ _ _) rfl
theorem max : ∀ a0 a1 a2 a3, Statement (.max a0 a1 a2 a3) := by
  intros; rintro e ⟨⟩; exact ends (major_rrr _ _ _ _ _) rfl
theorem minu : ∀ a0 a1 a2 a3, Statement (.minu a0 a1 a2 a3) := by
  intros; rintro e ⟨⟩; exact ends (major_rrr _ _ _ _ _) rfl
theorem maxu : ∀ a0 a1 a2 a3, Statement (.maxu a0 a1 a2 a3) := by
  intros; rintro e ⟨⟩; exact ends (major_rrr _ _ _ _ _) rfl
theorem clz : ∀ a0 a1 a2, Statement (.clz a0 a1 a2) := by
  intros; rintro e ⟨⟩; exact ends (major_rrr _ _ _ _ _) rfl
theorem ctz : ∀ a0 a1 a2, Statement (.ctz a0 a1 a2) := by
  intros; rintro e ⟨⟩; exact ends (major_rrr _ _ _ _ _) rfl
theorem popc : ∀ a0 a1 a2, Statement (.popc a0 a1 a2) := by
  intros; rintro e ⟨⟩; exact ends (major_rrr _ _ _ _ _) rfl
theorem brev : ∀ a0 a1 a2, Statement (.brev a0 a1 a2) := by
  intros; rintro e ⟨⟩; exact ends (major_rrr _ _ _ _ _) rfl
theorem bswap : ∀ a0 a1 a2, Statement (.bswap a0 a1 a2) := by
  intros; rintro e ⟨⟩; exact ends (major_rrr _ _ _ _ _) rfl
theorem sexb : ∀ a0 a1 a2, Statement (.sexb a0 a1 a2) := by
  intros; rintro e ⟨⟩; exact ends (major_rrr _ _ _ _ _) rfl
theorem sexh : ∀ a0 a1 a2, Statement (.sexh a0 a1 a2) := by
  intros; rintro e ⟨⟩; exact ends (major_rrr _ _ _ _ _) rfl
theorem sexw : ∀ a0 a1 a2, Statement (.sexw a0 a1 a2) := by
  intros; rintro e ⟨⟩; exact ends (major_rrr _ _ _ _ _) rfl
theorem hxy : ∀ a0 a1 a2 a3, Statement (.hxy a0 a1 a2 a3) := by
  intros; rintro e ⟨⟩; exact ends (major_rrr _ _ _ _ _) rfl
theorem hidx : ∀ a0 a1 a2 a3, Statement (.hidx a0 a1 a2 a3) := by
  intros; rintro e ⟨⟩; exact ends (major_rrr _ _ _ _ _) rfl
theorem sel : ∀ a0 a1 a2 a3, Statement (.sel a0 a1 a2 a3) := by
  intros; rintro e ⟨⟩; exact ends (major_rrr _ _ _ _ _) rfl
theorem j : ∀ a0 a1, Statement (.j a0 a1) := by
  intros; rintro e ⟨⟩; exact ends (major_imm12 _ _) rfl
theorem call : ∀ a0 a1, Statement (.call a0 a1) := by
  intros; rintro e ⟨⟩; exact ends (major_imm12 _ _) rfl
theorem jr : ∀ a0 a1, Statement (.jr a0 a1) := by
  intros; rintro e ⟨⟩; exact ends (major_rrr _ _ _ _ _) rfl
theorem callr : ∀ a0 a1, Statement (.callr a0 a1) := by
  intros; rintro e ⟨⟩; exact ends (major_rrr _ _ _ _ _) rfl
theorem ret : ∀ a0, Statement (.ret a0) := by
  intros; rintro e ⟨⟩; exact ends (major_rrr _ _ _ _ _) rfl
theorem addi : ∀ a0 a1 a2 a3, Statement (.addi a0 a1 a2 a3) := by
  intros; rintro e ⟨⟩; exact ends (major_imm6 _ _ _ _) rfl
theorem andi : ∀ a0 a1 a2 a3, Statement (.andi a0 a1 a2 a3) := by
  intros; rintro e ⟨⟩; exact ends (major_imm6 _ _ _ _) rfl
theorem ori : ∀ a0 a1 a2 a3, Statement (.ori a0 a1 a2 a3) := by
  intros; rintro e ⟨⟩; exact ends (major_imm6 _ _ _ _) rfl
theorem xori : ∀ a0 a1 a2 a3, Statement (.xori a0 a1 a2 a3) := by
  intros; rintro e ⟨⟩; exact ends (major_imm6 _ _ _ _) rfl
theorem shli : ∀ a0 a1 a2 a3, Statement (.shli a0 a1 a2 a3) := by
  intros; rintro e ⟨⟩; exact ends (major_imm6 _ _ _ _) rfl
theorem shri : ∀ a0 a1 a2 a3, Statement (.shri a0 a1 a2 a3) := by
  intros; rintro e ⟨⟩; exact ends (major_imm6 _ _ _ _) rfl
theorem sari : ∀ a0 a1 a2 a3, Statement (.sari a0 a1 a2 a3) := by
  intros; rintro e ⟨⟩; exact ends (major_imm6 _ _ _ _) rfl
theorem li : ∀ a0 a1 a2, Statement (.li a0 a1 a2) := by
  intros; rintro e ⟨⟩; exact ends (major_imm9 _ _ _) rfl
theorem lih : ∀ a0 a1 a2, Statement (.lih a0 a1 a2) := by
  intros; rintro e ⟨⟩; exact ends (major_imm9 _ _ _) rfl
theorem addpc : ∀ a0 a1 a2, Statement (.addpc a0 a1 a2) := by
  intros; rintro e ⟨⟩; exact ends (major_imm9 _ _ _) rfl
theorem ldb : ∀ a0 a1 a2 a3, Statement (.ldb a0 a1 a2 a3) := by
  intros; rintro e ⟨⟩; exact ends (major_imm4 _ _ _ _ _) rfl
theorem ldh : ∀ a0 a1 a2 a3, Statement (.ldh a0 a1 a2 a3) := by
  intros; rintro e ⟨⟩; exact ends (major_imm4 _ _ _ _ _) rfl
theorem ldw : ∀ a0 a1 a2 a3, Statement (.ldw a0 a1 a2 a3) := by
  intros; rintro e ⟨⟩; exact ends (major_imm4 _ _ _ _ _) rfl
theorem ldd : ∀ a0 a1 a2 a3, Statement (.ldd a0 a1 a2 a3) := by
  intros; rintro e ⟨⟩; exact ends (major_imm4 _ _ _ _ _) rfl
theorem ldbs : ∀ a0 a1 a2 a3, Statement (.ldbs a0 a1 a2 a3) := by
  intros; rintro e ⟨⟩; exact ends (major_imm4 _ _ _ _ _) rfl
theorem ldhs : ∀ a0 a1 a2 a3, Statement (.ldhs a0 a1 a2 a3) := by
  intros; rintro e ⟨⟩; exact ends (major_imm4 _ _ _ _ _) rfl
theorem ldws : ∀ a0 a1 a2 a3, Statement (.ldws a0 a1 a2 a3) := by
  intros; rintro e ⟨⟩; exact ends (major_imm4 _ _ _ _ _) rfl
theorem ldf : ∀ a0 a1 a2 a3, Statement (.ldf a0 a1 a2 a3) := by
  intros; rintro e ⟨⟩; exact ends (major_imm4 _ _ _ _ _) rfl
theorem ldfd : ∀ a0 a1 a2 a3, Statement (.ldfd a0 a1 a2 a3) := by
  intros; rintro e ⟨⟩; exact ends (major_imm4 _ _ _ _ _) rfl
theorem ldfe : ∀ a0 a1 a2 a3, Statement (.ldfe a0 a1 a2 a3) := by
  intros; rintro e ⟨⟩; exact ends (major_imm4 _ _ _ _ _) rfl
theorem ldfed : ∀ a0 a1 a2 a3, Statement (.ldfed a0 a1 a2 a3) := by
  intros; rintro e ⟨⟩; exact ends (major_imm4 _ _ _ _ _) rfl
theorem vld : ∀ a0 a1 a2 a3, Statement (.vld a0 a1 a2 a3) := by
  intros; rintro e ⟨⟩; exact ends (major_imm4 _ _ _ _ _) rfl
theorem stb : ∀ a0 a1 a2 a3, Statement (.stb a0 a1 a2 a3) := by
  intros; rintro e ⟨⟩; exact ends (major_imm4 _ _ _ _ _) rfl
theorem sth : ∀ a0 a1 a2 a3, Statement (.sth a0 a1 a2 a3) := by
  intros; rintro e ⟨⟩; exact ends (major_imm4 _ _ _ _ _) rfl
theorem stw : ∀ a0 a1 a2 a3, Statement (.stw a0 a1 a2 a3) := by
  intros; rintro e ⟨⟩; exact ends (major_imm4 _ _ _ _ _) rfl
theorem std : ∀ a0 a1 a2 a3, Statement (.std a0 a1 a2 a3) := by
  intros; rintro e ⟨⟩; exact ends (major_imm4 _ _ _ _ _) rfl
theorem ste : ∀ a0 a1 a2 a3, Statement (.ste a0 a1 a2 a3) := by
  intros; rintro e ⟨⟩; exact ends (major_imm4 _ _ _ _ _) rfl
theorem sted : ∀ a0 a1 a2 a3, Statement (.sted a0 a1 a2 a3) := by
  intros; rintro e ⟨⟩; exact ends (major_imm4 _ _ _ _ _) rfl
theorem stf : ∀ a0 a1 a2 a3, Statement (.stf a0 a1 a2 a3) := by
  intros; rintro e ⟨⟩; exact ends (major_imm4 _ _ _ _ _) rfl
theorem stfd : ∀ a0 a1 a2 a3, Statement (.stfd a0 a1 a2 a3) := by
  intros; rintro e ⟨⟩; exact ends (major_imm4 _ _ _ _ _) rfl
theorem vst : ∀ a0 a1 a2 a3, Statement (.vst a0 a1 a2 a3) := by
  intros; rintro e ⟨⟩; exact ends (major_imm4 _ _ _ _ _) rfl
theorem bz : ∀ a0 a1 a2, Statement (.bz a0 a1 a2) := by
  intros; rintro e ⟨⟩; exact ends (major_imm6 _ _ _ _) rfl
theorem bnz : ∀ a0 a1 a2, Statement (.bnz a0 a1 a2) := by
  intros; rintro e ⟨⟩; exact ends (major_imm6 _ _ _ _) rfl
theorem bltz : ∀ a0 a1 a2, Statement (.bltz a0 a1 a2) := by
  intros; rintro e ⟨⟩; exact ends (major_imm6 _ _ _ _) rfl
theorem bgez : ∀ a0 a1 a2, Statement (.bgez a0 a1 a2) := by
  intros; rintro e ⟨⟩; exact ends (major_imm6 _ _ _ _) rfl
theorem bq : ∀ a0 a1 a2, Statement (.bq a0 a1 a2) := by
  intros; rintro e ⟨⟩; exact ends (major_imm6 _ _ _ _) rfl
theorem bnq : ∀ a0 a1 a2, Statement (.bnq a0 a1 a2) := by
  intros; rintro e ⟨⟩; exact ends (major_imm6 _ _ _ _) rfl
theorem loop : ∀ a0 a1 a2, Statement (.loop a0 a1 a2) := by
  intros; rintro e ⟨⟩; exact ends (major_imm6 _ _ _ _) rfl
theorem beq : ∀ a0 a1 a2 a3, Statement (.beq a0 a1 a2 a3) := by
  intros; rintro e ⟨⟩; exact ends (major_imm6 _ _ _ _) rfl
theorem bne : ∀ a0 a1 a2 a3, Statement (.bne a0 a1 a2 a3) := by
  intros; rintro e ⟨⟩; exact ends (major_imm6 _ _ _ _) rfl
theorem blt : ∀ a0 a1 a2 a3, Statement (.blt a0 a1 a2 a3) := by
  intros; rintro e ⟨⟩; exact ends (major_imm6 _ _ _ _) rfl
theorem bge : ∀ a0 a1 a2 a3, Statement (.bge a0 a1 a2 a3) := by
  intros; rintro e ⟨⟩; exact ends (major_imm6 _ _ _ _) rfl
theorem bltu : ∀ a0 a1 a2 a3, Statement (.bltu a0 a1 a2 a3) := by
  intros; rintro e ⟨⟩; exact ends (major_imm6 _ _ _ _) rfl
theorem bgeu : ∀ a0 a1 a2 a3, Statement (.bgeu a0 a1 a2 a3) := by
  intros; rintro e ⟨⟩; exact ends (major_imm6 _ _ _ _) rfl
theorem lrw : ∀ a0 a1 a2, Statement (.lrw a0 a1 a2) := by
  intros; rintro e ⟨⟩; exact ends (major_rrf _ _ _ _) rfl
theorem sch : ∀ a0 a1 a2, Statement (.sch a0 a1 a2) := by
  intros; rintro e ⟨⟩; exact ends (major_rrf _ _ _ _) rfl
theorem lro : ∀ a0 a1 a2, Statement (.lro a0 a1 a2) := by
  intros; rintro e ⟨⟩; exact ends (major_rrf _ _ _ _) rfl
theorem sco : ∀ a0 a1 a2, Statement (.sco a0 a1 a2) := by
  intros; rintro e ⟨⟩; exact ends (major_rrf _ _ _ _) rfl
theorem oinit : ∀ a0 a1 a2, Statement (.oinit a0 a1 a2) := by
  intros; rintro e ⟨⟩; exact ends (major_rrf _ _ _ _) rfl
theorem aadd : ∀ a0 a1 a2, Statement (.aadd a0 a1 a2) := by
  intros; rintro e ⟨⟩; exact ends (major_rrf _ _ _ _) rfl
theorem aand : ∀ a0 a1 a2, Statement (.aand a0 a1 a2) := by
  intros; rintro e ⟨⟩; exact ends (major_rrf _ _ _ _) rfl
theorem aor : ∀ a0 a1 a2, Statement (.aor a0 a1 a2) := by
  intros; rintro e ⟨⟩; exact ends (major_rrf _ _ _ _) rfl
theorem axor : ∀ a0 a1 a2, Statement (.axor a0 a1 a2) := by
  intros; rintro e ⟨⟩; exact ends (major_rrf _ _ _ _) rfl
theorem amin : ∀ a0 a1 a2, Statement (.amin a0 a1 a2) := by
  intros; rintro e ⟨⟩; exact ends (major_rrf _ _ _ _) rfl
theorem amax : ∀ a0 a1 a2, Statement (.amax a0 a1 a2) := by
  intros; rintro e ⟨⟩; exact ends (major_rrf _ _ _ _) rfl
theorem aminu : ∀ a0 a1 a2, Statement (.aminu a0 a1 a2) := by
  intros; rintro e ⟨⟩; exact ends (major_rrf _ _ _ _) rfl
theorem amaxu : ∀ a0 a1 a2, Statement (.amaxu a0 a1 a2) := by
  intros; rintro e ⟨⟩; exact ends (major_rrf _ _ _ _) rfl
theorem aswap : ∀ a0 a1 a2, Statement (.aswap a0 a1 a2) := by
  intros; rintro e ⟨⟩; exact ends (major_rrf _ _ _ _) rfl
theorem acas : ∀ a0 a1 a2, Statement (.acas a0 a1 a2) := by
  intros; rintro e ⟨⟩; exact ends (major_rrf _ _ _ _) rfl
theorem afadd : ∀ a0 a1 a2, Statement (.afadd a0 a1 a2) := by
  intros; rintro e ⟨⟩; exact ends (major_rrf _ _ _ _) rfl
theorem afaddo : ∀ a0 a1 a2, Statement (.afaddo a0 a1 a2) := by
  intros; rintro e ⟨⟩; exact ends (major_rrf _ _ _ _) rfl
theorem aaddw : ∀ a0 a1 a2, Statement (.aaddw a0 a1 a2) := by
  intros; rintro e ⟨⟩; exact ends (major_rrf _ _ _ _) rfl
theorem aandw : ∀ a0 a1 a2, Statement (.aandw a0 a1 a2) := by
  intros; rintro e ⟨⟩; exact ends (major_rrf _ _ _ _) rfl
theorem aorw : ∀ a0 a1 a2, Statement (.aorw a0 a1 a2) := by
  intros; rintro e ⟨⟩; exact ends (major_rrf _ _ _ _) rfl
theorem axorw : ∀ a0 a1 a2, Statement (.axorw a0 a1 a2) := by
  intros; rintro e ⟨⟩; exact ends (major_rrf _ _ _ _) rfl
theorem aminw : ∀ a0 a1 a2, Statement (.aminw a0 a1 a2) := by
  intros; rintro e ⟨⟩; exact ends (major_rrf _ _ _ _) rfl
theorem amaxw : ∀ a0 a1 a2, Statement (.amaxw a0 a1 a2) := by
  intros; rintro e ⟨⟩; exact ends (major_rrf _ _ _ _) rfl
theorem aminuw : ∀ a0 a1 a2, Statement (.aminuw a0 a1 a2) := by
  intros; rintro e ⟨⟩; exact ends (major_rrf _ _ _ _) rfl
theorem amaxuw : ∀ a0 a1 a2, Statement (.amaxuw a0 a1 a2) := by
  intros; rintro e ⟨⟩; exact ends (major_rrf _ _ _ _) rfl
theorem aswapw : ∀ a0 a1 a2, Statement (.aswapw a0 a1 a2) := by
  intros; rintro e ⟨⟩; exact ends (major_rrf _ _ _ _) rfl
theorem acasw : ∀ a0 a1 a2, Statement (.acasw a0 a1 a2) := by
  intros; rintro e ⟨⟩; exact ends (major_rrf _ _ _ _) rfl
theorem afaddw : ∀ a0 a1 a2, Statement (.afaddw a0 a1 a2) := by
  intros; rintro e ⟨⟩; exact ends (major_rrf _ _ _ _) rfl
theorem afaddow : ∀ a0 a1 a2, Statement (.afaddow a0 a1 a2) := by
  intros; rintro e ⟨⟩; exact ends (major_rrf _ _ _ _) rfl
theorem fence : ∀ a0, Statement (.fence a0) := by
  intros; rintro e ⟨⟩; exact ends (major_rrf _ _ _ _) rfl
theorem fenceG : ∀ a0, Statement (.fenceG a0) := by
  intros; rintro e ⟨⟩; exact ends (major_rrf _ _ _ _) rfl
theorem fenceM : ∀ a0, Statement (.fenceM a0) := by
  intros; rintro e ⟨⟩; exact ends (major_rrf _ _ _ _) rfl
theorem fenceP : ∀ a0, Statement (.fenceP a0) := by
  intros; rintro e ⟨⟩; exact ends (major_rrf _ _ _ _) rfl
theorem waitc : ∀ a0 a1 a2, Statement (.waitc a0 a1 a2) := by
  intros; rintro e ⟨⟩; exact ends (major_rrf _ _ _ _) rfl
theorem waitf : ∀ a0 a1, Statement (.waitf a0 a1) := by
  intros; rintro e ⟨⟩; exact ends (major_rrf _ _ _ _) rfl
theorem clrf : ∀ a0 a1, Statement (.clrf a0 a1) := by
  intros; rintro e ⟨⟩; exact ends (major_rrf _ _ _ _) rfl
theorem take : ∀ a0 a1 a2, Statement (.take a0 a1 a2) := by
  intros; rintro e ⟨⟩; exact ends (major_rrf _ _ _ _) rfl
theorem bar : ∀ a0 a1, Statement (.bar a0 a1) := by
  intros; rintro e ⟨⟩; exact ends (major_rrf _ _ _ _) rfl
theorem bars : ∀ a0 a1, Statement (.bars a0 a1) := by
  intros; rintro e ⟨⟩; exact ends (major_rrf _ _ _ _) rfl
theorem barcfg : ∀ a0 a1 a2, Statement (.barcfg a0 a1 a2) := by
  intros; rintro e ⟨⟩; exact ends (major_rrf _ _ _ _) rfl
theorem barq : ∀ a0 a1 a2, Statement (.barq a0 a1 a2) := by
  intros; rintro e ⟨⟩; exact ends (major_rrf _ _ _ _) rfl
theorem barr : ∀ a0 a1 a2 a3, Statement (.barr a0 a1 a2 a3) := by
  intros; rintro e ⟨⟩; exact ends (major_rrf _ _ _ _) rfl
theorem put : ∀ a0 a1 a2 a3, Statement (.put a0 a1 a2 a3) := by
  intros; rintro e ⟨⟩; exact ends (major_rrr _ _ _ _ _) rfl
theorem putv : ∀ a0 a1 a2 a3, Statement (.putv a0 a1 a2 a3) := by
  intros; rintro e ⟨⟩; exact ends (major_rrr _ _ _ _ _) rfl
theorem get : ∀ a0 a1 a2 a3, Statement (.get a0 a1 a2 a3) := by
  intros; rintro e ⟨⟩; exact ends (major_rrr _ _ _ _ _) rfl
theorem send : ∀ a0 a1 a2, Statement (.send a0 a1 a2) := by
  intros; rintro e ⟨⟩; exact ends (major_rrr _ _ _ _ _) rfl
theorem cset : ∀ a0 a1 a2, Statement (.cset a0 a1 a2) := by
  intros; rintro e ⟨⟩; exact ends (major_rrr _ _ _ _ _) rfl
theorem cinc : ∀ a0 a1 a2 a3, Statement (.cinc a0 a1 a2 a3) := by
  intros; rintro e ⟨⟩; exact ends (major_rrr _ _ _ _ _) rfl
theorem crd : ∀ a0 a1 a2, Statement (.crd a0 a1 a2) := by
  intros; rintro e ⟨⟩; exact ends (major_rrr _ _ _ _ _) rfl
theorem post : ∀ a0 a1 a2, Statement (.post a0 a1 a2) := by
  intros; rintro e ⟨⟩; exact ends (major_rrr _ _ _ _ _) rfl
theorem arm : ∀ a0 a1 a2 a3, Statement (.arm a0 a1 a2 a3) := by
  intros; rintro e ⟨⟩; exact ends (major_rrr _ _ _ _ _) rfl
theorem disarm : ∀ a0 a1, Statement (.disarm a0 a1) := by
  intros; rintro e ⟨⟩; exact ends (major_rrr _ _ _ _ _) rfl
theorem vadd : ∀ a0 a1 a2 a3 a4, Statement (.vadd a0 a1 a2 a3 a4) := by
  intros; rintro e ⟨⟩; exact ends (major_rrr _ _ _ _ _) rfl
theorem vsub : ∀ a0 a1 a2 a3 a4, Statement (.vsub a0 a1 a2 a3 a4) := by
  intros; rintro e ⟨⟩; exact ends (major_rrr _ _ _ _ _) rfl
theorem vmul : ∀ a0 a1 a2 a3 a4, Statement (.vmul a0 a1 a2 a3 a4) := by
  intros; rintro e ⟨⟩; exact ends (major_rrr _ _ _ _ _) rfl
theorem vfma : ∀ a0 a1 a2 a3 a4, Statement (.vfma a0 a1 a2 a3 a4) := by
  intros; rintro e ⟨⟩; exact ends (major_rrr _ _ _ _ _) rfl
theorem vmin : ∀ a0 a1 a2 a3 a4, Statement (.vmin a0 a1 a2 a3 a4) := by
  intros; rintro e ⟨⟩; exact ends (major_rrr _ _ _ _ _) rfl
theorem vmax : ∀ a0 a1 a2 a3 a4, Statement (.vmax a0 a1 a2 a3 a4) := by
  intros; rintro e ⟨⟩; exact ends (major_rrr _ _ _ _ _) rfl
theorem vaddmin : ∀ a0 a1 a2 a3 a4, Statement (.vaddmin a0 a1 a2 a3 a4) := by
  intros; rintro e ⟨⟩; exact ends (major_rrr _ _ _ _ _) rfl
theorem vdiv : ∀ a0 a1 a2 a3 a4, Statement (.vdiv a0 a1 a2 a3 a4) := by
  intros; rintro e ⟨⟩; exact ends (major_rrr _ _ _ _ _) rfl
theorem vsqrt : ∀ a0 a1 a2 a3, Statement (.vsqrt a0 a1 a2 a3) := by
  intros; rintro e ⟨⟩; exact ends (major_rrr _ _ _ _ _) rfl
theorem vand : ∀ a0 a1 a2 a3 a4, Statement (.vand a0 a1 a2 a3 a4) := by
  intros; rintro e ⟨⟩; exact ends (major_rrr _ _ _ _ _) rfl
theorem vor : ∀ a0 a1 a2 a3 a4, Statement (.vor a0 a1 a2 a3 a4) := by
  intros; rintro e ⟨⟩; exact ends (major_rrr _ _ _ _ _) rfl
theorem vxor : ∀ a0 a1 a2 a3 a4, Statement (.vxor a0 a1 a2 a3 a4) := by
  intros; rintro e ⟨⟩; exact ends (major_rrr _ _ _ _ _) rfl
theorem vshl : ∀ a0 a1 a2 a3 a4, Statement (.vshl a0 a1 a2 a3 a4) := by
  intros; rintro e ⟨⟩; exact ends (major_rrr _ _ _ _ _) rfl
theorem vshr : ∀ a0 a1 a2 a3 a4, Statement (.vshr a0 a1 a2 a3 a4) := by
  intros; rintro e ⟨⟩; exact ends (major_rrr _ _ _ _ _) rfl
theorem vsar : ∀ a0 a1 a2 a3 a4, Statement (.vsar a0 a1 a2 a3 a4) := by
  intros; rintro e ⟨⟩; exact ends (major_rrr _ _ _ _ _) rfl
theorem vceq : ∀ a0 a1 a2 a3 a4, Statement (.vceq a0 a1 a2 a3 a4) := by
  intros; rintro e ⟨⟩; exact ends (major_rrr _ _ _ _ _) rfl
theorem vclt : ∀ a0 a1 a2 a3 a4, Statement (.vclt a0 a1 a2 a3 a4) := by
  intros; rintro e ⟨⟩; exact ends (major_rrr _ _ _ _ _) rfl
theorem vcle : ∀ a0 a1 a2 a3 a4, Statement (.vcle a0 a1 a2 a3 a4) := by
  intros; rintro e ⟨⟩; exact ends (major_rrr _ _ _ _ _) rfl
theorem vsel : ∀ a0 a1 a2 a3 a4, Statement (.vsel a0 a1 a2 a3 a4) := by
  intros; rintro e ⟨⟩; exact ends (major_rrr _ _ _ _ _) rfl
theorem vslu : ∀ a0 a1 a2 a3 a4, Statement (.vslu a0 a1 a2 a3 a4) := by
  intros; rintro e ⟨⟩; exact ends (major_rrr _ _ _ _ _) rfl
theorem vsld : ∀ a0 a1 a2 a3 a4, Statement (.vsld a0 a1 a2 a3 a4) := by
  intros; rintro e ⟨⟩; exact ends (major_rrr _ _ _ _ _) rfl
theorem vperm : ∀ a0 a1 a2 a3 a4, Statement (.vperm a0 a1 a2 a3 a4) := by
  intros; rintro e ⟨⟩; exact ends (major_rrr _ _ _ _ _) rfl
theorem vbcst : ∀ a0 a1 a2 a3, Statement (.vbcst a0 a1 a2 a3) := by
  intros; rintro e ⟨⟩; exact ends (major_rrr _ _ _ _ _) rfl
theorem vext : ∀ a0 a1 a2 a3 a4, Statement (.vext a0 a1 a2 a3 a4) := by
  intros; rintro e ⟨⟩; exact ends (major_rrr _ _ _ _ _) rfl
theorem vins : ∀ a0 a1 a2 a3 a4, Statement (.vins a0 a1 a2 a3 a4) := by
  intros; rintro e ⟨⟩; exact ends (major_rrr _ _ _ _ _) rfl
theorem vredadd : ∀ a0 a1 a2 a3, Statement (.vredadd a0 a1 a2 a3) := by
  intros; rintro e ⟨⟩; exact ends (major_rrr _ _ _ _ _) rfl
theorem vcvt : ∀ a0 a1 a2 a3 a4, Statement (.vcvt a0 a1 a2 a3 a4) := by
  intros; rintro e ⟨⟩; exact ends (major_rrr _ _ _ _ _) rfl
theorem vcvtq : ∀ a0 a1 a2 a3 a4, Statement (.vcvtq a0 a1 a2 a3 a4) := by
  intros; rintro e ⟨⟩; exact ends (major_rrr _ _ _ _ _) rfl
theorem vsfu : ∀ a0 a1 a2 a3 a4, Statement (.vsfu a0 a1 a2 a3 a4) := by
  intros; rintro e ⟨⟩; exact ends (major_rrr _ _ _ _ _) rfl
theorem vpeg : ∀ a0 a1 a2 a3, Statement (.vpeg a0 a1 a2 a3) := by
  intros; rintro e ⟨⟩; exact ends (major_rrr _ _ _ _ _) rfl
theorem mtcfg : ∀ a0 a1 a2, Statement (.mtcfg a0 a1 a2) := by
  intros; rintro e ⟨⟩; exact ends (major_rrf _ _ _ _) rfl
theorem mfcfg : ∀ a0 a1 a2, Statement (.mfcfg a0 a1 a2) := by
  intros; rintro e ⟨⟩; exact ends (major_rrf _ _ _ _) rfl
theorem mld : ∀ a0 a1 a2, Statement (.mld a0 a1 a2) := by
  intros; rintro e ⟨⟩; exact ends (major_rrf _ _ _ _) rfl
theorem mldl : ∀ a0 a1 a2, Statement (.mldl a0 a1 a2) := by
  intros; rintro e ⟨⟩; exact ends (major_rrf _ _ _ _) rfl
theorem mst : ∀ a0 a1 a2, Statement (.mst a0 a1 a2) := by
  intros; rintro e ⟨⟩; exact ends (major_rrf _ _ _ _) rfl
theorem mpass : ∀ a0 a1 a2, Statement (.mpass a0 a1 a2) := by
  intros; rintro e ⟨⟩; exact ends (major_rrf _ _ _ _) rfl
theorem mzero : ∀ a0 a1, Statement (.mzero a0 a1) := by
  intros; rintro e ⟨⟩; exact ends (major_rrf _ _ _ _) rfl
theorem mrda : ∀ a0 a1 a2, Statement (.mrda a0 a1 a2) := by
  intros; rintro e ⟨⟩; exact ends (major_rrf _ _ _ _) rfl
theorem mwra : ∀ a0 a1 a2, Statement (.mwra a0 a1 a2) := by
  intros; rintro e ⟨⟩; exact ends (major_rrf _ _ _ _) rfl
theorem mscl : ∀ a0 a1 a2, Statement (.mscl a0 a1 a2) := by
  intros; rintro e ⟨⟩; exact ends (major_rrf _ _ _ _) rfl
theorem mma : ∀ a0 a1 a2 a3, Statement (.mma a0 a1 a2 a3) := by
  intros; rintro e ⟨⟩; exact ends (major_rrf _ _ _ _) rfl
theorem scfg : ∀ a0 a1 a2, Statement (.scfg a0 a1 a2) := by
  intros; rintro e ⟨⟩; exact ends (major_rrf _ _ _ _) rfl
theorem sadv : ∀ a0 a1 a2, Statement (.sadv a0 a1 a2) := by
  intros; rintro e ⟨⟩; exact ends (major_rrf _ _ _ _) rfl
theorem sqry : ∀ a0 a1 a2, Statement (.sqry a0 a1 a2) := by
  intros; rintro e ⟨⟩; exact ends (major_rrf _ _ _ _) rfl
theorem sclr : ∀ a0 a1, Statement (.sclr a0 a1) := by
  intros; rintro e ⟨⟩; exact ends (major_rrf _ _ _ _) rfl
theorem cpy : ∀ a0 a1 a2, Statement (.cpy a0 a1 a2) := by
  intros; rintro e ⟨⟩; exact ends (major_rrf _ _ _ _) rfl
theorem cpyg : ∀ a0 a1 a2, Statement (.cpyg a0 a1 a2) := by
  intros; rintro e ⟨⟩; exact ends (major_rrf _ _ _ _) rfl
theorem cpys : ∀ a0 a1 a2, Statement (.cpys a0 a1 a2) := by
  intros; rintro e ⟨⟩; exact ends (major_rrf _ _ _ _) rfl
theorem cpyz : ∀ a0 a1 a2, Statement (.cpyz a0 a1 a2) := by
  intros; rintro e ⟨⟩; exact ends (major_rrf _ _ _ _) rfl
theorem cjoin : ∀ a0 a1, Statement (.cjoin a0 a1) := by
  intros; rintro e ⟨⟩; exact ends (major_rrf _ _ _ _) rfl
theorem evpop : ∀ a0 a1, Statement (.evpop a0 a1) := by
  intros; rintro e ⟨⟩; exact ends (major_rrf _ _ _ _) rfl
theorem evwait : ∀ a0 a1, Statement (.evwait a0 a1) := by
  intros; rintro e ⟨⟩; exact ends (major_rrf _ _ _ _) rfl
theorem launch : ∀ a0 a1, Statement (.launch a0 a1) := by
  intros; rintro e ⟨⟩; exact ends (major_rrf _ _ _ _) rfl
theorem cancel : ∀ a0 a1, Statement (.cancel a0 a1) := by
  intros; rintro e ⟨⟩; exact ends (major_rrf _ _ _ _) rfl
theorem gwait : ∀ a0 a1, Statement (.gwait a0 a1) := by
  intros; rintro e ⟨⟩; exact ends (major_rrf _ _ _ _) rfl
theorem gqry : ∀ a0 a1 a2, Statement (.gqry a0 a1 a2) := by
  intros; rintro e ⟨⟩; exact ends (major_rrf _ _ _ _) rfl
theorem spawn : ∀ a0 a1 a2, Statement (.spawn a0 a1 a2) := by
  intros; rintro e ⟨⟩; exact ends (major_rrf _ _ _ _) rfl
theorem seed : ∀ a0 a1, Statement (.seed a0 a1) := by
  intros; rintro e ⟨⟩; exact ends (major_rrf _ _ _ _) rfl
theorem crdig : ∀ a0 a1 a2, Statement (.crdig a0 a1 a2) := by
  intros; rintro e ⟨⟩; exact ends (major_rrf _ _ _ _) rfl
theorem cron : ∀ a0, Statement (.cron a0) := by
  intros; rintro e ⟨⟩; exact ends (major_rrf _ _ _ _) rfl
theorem croff : ∀ a0, Statement (.croff a0) := by
  intros; rintro e ⟨⟩; exact ends (major_rrf _ _ _ _) rfl
theorem crstat : ∀ a0 a1 a2, Statement (.crstat a0 a1 a2) := by
  intros; rintro e ⟨⟩; exact ends (major_rrf _ _ _ _) rfl
theorem instructionFetchFill : ∀ a0 a1, Statement (.instructionFetchFill a0 a1) := by
  intros; intro e h; cases h
theorem alignTimeout : ∀ a0 a1, Statement (.alignTimeout a0 a1) := by
  intros; intro e h; cases h
theorem threadUnpark : ∀ a0 a1, Statement (.threadUnpark a0 a1) := by
  intros; intro e h; cases h
theorem accessPerformed : ∀ a0, Statement (.accessPerformed a0) := by
  intros; intro e h; cases h
theorem deferredFault : ∀ a0 a1, Statement (.deferredFault a0 a1) := by
  intros; intro e h; cases h
theorem translationWalkDone : ∀ a0 a1, Statement (.translationWalkDone a0 a1) := by
  intros; intro e h; cases h
theorem walkRetry : ∀ a0, Statement (.walkRetry a0) := by
  intros; intro e h; cases h
theorem stationReplayWrite : ∀ a0 a1, Statement (.stationReplayWrite a0 a1) := by
  intros; intro e h; cases h
theorem reservationRevoke : ∀ a0 a1, Statement (.reservationRevoke a0 a1) := by
  intros; intro e h; cases h
theorem queueTableReadmit : ∀ a0, Statement (.queueTableReadmit a0) := by
  intros; intro e h; cases h
theorem oinitRetry : ∀ a0 a1, Statement (.oinitRetry a0 a1) := by
  intros; intro e h; cases h
theorem barrierComplete : ∀ a0 a1 a2 a3 a4, Statement (.barrierComplete a0 a1 a2 a3 a4) := by
  intros; intro e h; cases h
theorem specRollback : ∀ a0 a1, Statement (.specRollback a0 a1) := by
  intros; intro e h; cases h
theorem putLand : ∀ a0, Statement (.putLand a0) := by
  intros; intro e h; cases h
theorem getRequestServe : ∀ a0, Statement (.getRequestServe a0) := by
  intros; intro e h; cases h
theorem getResponse : ∀ a0, Statement (.getResponse a0) := by
  intros; intro e h; cases h
theorem sendLand : ∀ a0, Statement (.sendLand a0) := by
  intros; intro e h; cases h
theorem cincLand : ∀ a0, Statement (.cincLand a0) := by
  intros; intro e h; cases h
theorem inboxRefill : ∀ a0, Statement (.inboxRefill a0) := by
  intros; intro e h; cases h
theorem postAppend : ∀ a0, Statement (.postAppend a0) := by
  intros; intro e h; cases h
theorem messageRefused : ∀ a0, Statement (.messageRefused a0) := by
  intros; intro e h; cases h
theorem outboundAck : ∀ a0 a1, Statement (.outboundAck a0 a1) := by
  intros; intro e h; cases h
theorem tileFault : ∀ a0 a1, Statement (.tileFault a0 a1) := by
  intros; intro e h; cases h
theorem triggerAction : ∀ a0, Statement (.triggerAction a0) := by
  intros; intro e h; cases h
theorem gangStallReport : ∀ a0 a1, Statement (.gangStallReport a0 a1) := by
  intros; intro e h; cases h
theorem mmaComplete : ∀ a0, Statement (.mmaComplete a0) := by
  intros; intro e h; cases h
theorem matrixTransferComplete : ∀ a0, Statement (.matrixTransferComplete a0) := by
  intros; intro e h; cases h
theorem copyStart : ∀ a0 a1, Statement (.copyStart a0 a1) := by
  intros; intro e h; cases h
theorem copyComplete : ∀ a0 a1, Statement (.copyComplete a0 a1) := by
  intros; intro e h; cases h
theorem copyFault : ∀ a0 a1, Statement (.copyFault a0 a1) := by
  intros; intro e h; cases h
theorem copyBudgetWindow : Statement .copyBudgetWindow := by
  intro e h; cases h
theorem launchAccept : ∀ a0, Statement (.launchAccept a0) := by
  intros; intro e h; cases h
theorem dealRound : ∀ a0 a1, Statement (.dealRound a0 a1) := by
  intros; intro e h; cases h
theorem gangStart : ∀ a0 a1, Statement (.gangStart a0 a1) := by
  intros; intro e h; cases h
theorem tileRetire : ∀ a0, Statement (.tileRetire a0) := by
  intros; intro e h; cases h
theorem gridComplete : ∀ a0, Statement (.gridComplete a0) := by
  intros; intro e h; cases h
theorem cancelAccept : ∀ a0 a1, Statement (.cancelAccept a0 a1) := by
  intros; intro e h; cases h
theorem cancelReachYard : ∀ a0 a1, Statement (.cancelReachYard a0 a1) := by
  intros; intro e h; cases h
theorem moduleLeavePod : ∀ a0, Statement (.moduleLeavePod a0) := by
  intros; intro e h; cases h
theorem yardWithhold : ∀ a0, Statement (.yardWithhold a0) := by
  intros; intro e h; cases h
theorem yardRecover : ∀ a0, Statement (.yardRecover a0) := by
  intros; intro e h; cases h
theorem watchdogExpire : ∀ a0 a1, Statement (.watchdogExpire a0 a1) := by
  intros; intro e h; cases h
theorem quantumExpiry : ∀ a0 a1, Statement (.quantumExpiry a0 a1) := by
  intros; intro e h; cases h
theorem gangSwapOut : ∀ a0 a1, Statement (.gangSwapOut a0 a1) := by
  intros; intro e h; cases h
theorem tileStopDone : ∀ a0, Statement (.tileStopDone a0) := by
  intros; intro e h; cases h
theorem gangSwapIn : ∀ a0 a1, Statement (.gangSwapIn a0 a1) := by
  intros; intro e h; cases h
theorem rerunSiteReclaim : ∀ a0, Statement (.rerunSiteReclaim a0) := by
  intros; intro e h; cases h
theorem rerunVerdict : ∀ a0 a1, Statement (.rerunVerdict a0 a1) := by
  intros; intro e h; cases h
theorem cruiseHoldClear : ∀ a0, Statement (.cruiseHoldClear a0) := by
  intros; intro e h; cases h
theorem entropyTestFail : ∀ a0, Statement (.entropyTestFail a0) := by
  intros; intro e h; cases h
theorem entropyRecover : Statement .entropyRecover := by
  intro e h; cases h
theorem seedLogHeadWrite : ∀ a0, Statement (.seedLogHeadWrite a0) := by
  intros; intro e h; cases h
theorem replaySourceSizeWrite : ∀ a0, Statement (.replaySourceSizeWrite a0) := by
  intros; intro e h; cases h
theorem queueRecordAppend : ∀ a0, Statement (.queueRecordAppend a0) := by
  intros; intro e h; cases h
theorem hostWrite : ∀ a0 a1 a2 a3, Statement (.hostWrite a0 a1 a2 a3) := by
  intros; intro e h; cases h
theorem hostRead : ∀ a0 a1 a2, Statement (.hostRead a0 a1 a2) := by
  intros; intro e h; cases h
theorem hostLaunchDoorbell : ∀ a0 a1, Statement (.hostLaunchDoorbell a0 a1) := by
  intros; intro e h; cases h
theorem hostLaunchRecordRead : ∀ a0, Statement (.hostLaunchRecordRead a0) := by
  intros; intro e h; cases h
theorem hostRecordRetry : ∀ a0, Statement (.hostRecordRetry a0) := by
  intros; intro e h; cases h
theorem hostQueueResume : ∀ a0, Statement (.hostQueueResume a0) := by
  intros; intro e h; cases h
theorem hostLinkDown : ∀ a0, Statement (.hostLinkDown a0) := by
  intros; intro e h; cases h
theorem featureRequestWrite : ∀ a0, Statement (.featureRequestWrite a0) := by
  intros; intro e h; cases h
theorem attestationRequest : Statement .attestationRequest := by
  intro e h; cases h
theorem vdEntryWrite : ∀ a0 a1 a2, Statement (.vdEntryWrite a0 a1 a2) := by
  intros; intro e h; cases h
theorem vaultZeroDone : ∀ a0, Statement (.vaultZeroDone a0) := by
  intros; intro e h; cases h
theorem sitePowerWrite : ∀ a0 a1, Statement (.sitePowerWrite a0 a1) := by
  intros; intro e h; cases h
theorem mcrWrite : ∀ a0 a1, Statement (.mcrWrite a0 a1) := by
  intros; intro e h; cases h
theorem podRequest : ∀ a0 a1 a2 a3 a4 a5 a6, Statement (.podRequest a0 a1 a2 a3 a4 a5 a6) := by
  intros; intro e h; cases h
theorem podFlitReplay : ∀ a0, Statement (.podFlitReplay a0) := by
  intros; intro e h; cases h
theorem podLinkDown : ∀ a0, Statement (.podLinkDown a0) := by
  intros; intro e h; cases h
theorem podPortsDownTimeout : ∀ a0, Statement (.podPortsDownTimeout a0) := by
  intros; intro e h; cases h
theorem moduleBoot : Statement .moduleBoot := by
  intro e h; cases h
theorem overcurrentTrip : Statement .overcurrentTrip := by
  intro e h; cases h
theorem voltageWindow : Statement .voltageWindow := by
  intro e h; cases h
theorem stackThermalChange : ∀ a0 a1, Statement (.stackThermalChange a0 a1) := by
  intros; intro e h; cases h
theorem linkWordArrive : ∀ a0, Statement (.linkWordArrive a0) := by
  intros; intro e h; cases h
theorem voltageRampDone : ∀ a0, Statement (.voltageRampDone a0) := by
  intros; intro e h; cases h

end Sys2Proof.Laws.BaseEndsChain
end

