-- ==== Sys2Proof/Tests/Slice0.lean ====
section
/-! SUPPORT. Tests of one step each, and witnesses that the hypotheses of the statements are met. Expected values are those of the
spec's worked examples, or worked out from its tables. -/

set_option autoImplicit false
set_option Elab.async false
namespace Sys2Proof.Tests
open Sys2Proof Sys2Proof.Machine Sys2Proof.Claims

/-- A chain without extensions, and one whose relaxed bit is set. -/
def ch : Chain := ⟨0, 1, 0⟩
def chRelaxed : Chain := ⟨0x20, 2, 0⟩

/-- Service core 0's pad offset 0x1000. -/
def padKey : Nat := tileKey 65536 0x1000

def thread : Thread :=
  { live := true, pc := 0x4000000000000100, tst := 1
    g := (((((Vector.replicate 32 0).set 5 0x1000).set 6 0x1122334455667788).set 7 3).set 8 0xFFFFFFFFFFFFFFFF).set 10 0x4000000000000000
    v := (Vector.replicate 32 0).set 2 0x112233445566778899AABBCCDDEEFF00 }

def tile : Tile :=
  { threads := ((Vector.replicate 4 {}).set 0 thread).set 1 thread
    vtn := 0xFFFFFFF0, sfull := 2, s := (Vector.replicate 8 0).set 1 0x77, inbox := [0x1008, 0x42]
    streams := (Vector.replicate 8 {}).set 0 { cfg := 0x8000830040, wr := 2, rd := 0, valid := true } }

/-- Service core 0 issues from thread 1, with 16 bytes at `padKey`. -/
def core : State :=
  { tiles := [(65536, tile)], cur := (65536, 1), booted := true
    mem := Mem.writeN [] padKey 16 0xF1E2D3C4B5A697887766554433221180, full := [padKey, padKey + 4] }

/-- Service core 0's rim page 0 stands at physical 0x20000, with every permission; registers 11 to 15 hold operands of special instructions. -/
def rim : State :=
  let s := { core with tlb := [{ station := 52, vd := 0, space := 0, bits := 16, page := 0, leaf := 0x201DF, leafPa := 0 }] }
  let s := (s.setMcrN (State.vdOff 0 0) 1 1).setMcrN (State.vdOff 0 16) 4 1
  let s := (s.setMcrN 0x1008 8 64).setMcrN (State.vdOff 0 4) 2 255
  let s := s.setMcrN (State.vdOff 0 24) 1 16
  let s := (s.pokeN (rimKey 0) 1 1).pokeN (rimKey 0x20000) 8 0x4008000000000000
  let s := { s with orders := [OrderEntry.mk (rimKey 0x20000) 5] }
  s.modThread 65536 1 fun t => (((((t.setG 11 0x8000830040).setG 12 0xC000000000000000).setG 13 5).setG 14 0x2000000000000000).setG 15 1).setG 16 0x2080

/-- A gang of two tiles at sites 70 and 71, of grid 5 in VD 0, whose rank 0 issues from thread 1. -/
def mate (r : Nat) : Tile :=
  { threads := (Vector.replicate 4 {}).set 1 { thread with tst := 0, g := (((((thread.g.set 11 0x8000830040).set 12 0x1000000000010100).set 13 5).set 15 1).set 7 3).set 17 0x30000000000 }
    vtn := BitVec.ofNat 32 r, gsize := 2, handle := 5, inbox := [9], s := tile.s, sfull := 2, streams := tile.streams, outb := [] }
def gang : Gang := { handle := 5, index := 0, vd := 0, sites := [70, 71], begun := true }
def grid : Grid := { handle := 5, vd := 0, desc := { gsz := 2, stack := 64, entry := 0x4000000000000000 }, table := 0x40000, lo := 0, hi := 1, started := true }
def pair : State :=
  { rim with
    tiles := [(70, mate 0), (71, mate 1), (65536, tile)], cur := (70, 1)
    sites := [(70, { state := .running }), (71, { state := .running })], grids := [grid], gangs := [gang] }
/-- One message of rank 0 to rank 1, in flight to its site. -/
def msg (k : MsgKind) : Msg := { id := 0, kind := k, agent := 70, thread := 1, vtn := 0, handle := 5, vd := 0, dest := 1, site := some 71 }
def sent (k : MsgKind) : State := { pair with net := [msg k], nextMsg := 1 }
/-- Rank 0's thread parked. -/
def parked (p : Park) : State := pair.modThread 70 1 fun t => { t with park := some p, parkNext := 0x4000000000000102 }
def noThreads : State := { pair with tiles := [(70, { mate 0 with threads := Vector.replicate 4 {} }), (71, { mate 1 with threads := Vector.replicate 4 {} })] }
def spec0 : Spec := { bar := 1, barsPc := 0x4000000000000100, pc := 0x4000000000000102, g := thread.g, v := thread.v, q := thread.q, fst := 0, srcnt := 0, loop0 := {}, loop1 := {}, ldepth := 0 }
def cmd (p : CopyPhase) : CopyCmd := { kind := .cpyz, number := 1, src := 0, dst := 0x100, idx := 0, len := 0, esz := 0, stream := 0xFF, fin := 0, thread := 1, phase := p }
def copying (p : CopyPhase) : State := pair.modTile 70 fun t => { t with copies := t.copies.set 0 (some (cmd p)) }
def audit : Audit := { handle := 5, gang := 0, vd := 0, first := Vector.replicate 4 0, firstSites := [70, 71] }
/-- Service core 0 beside the gang, with site 70 in g17. -/
def admin : State := { pair with cur := (65536, 1) }.modThread 65536 1 fun t => t.setG 17 70
/-- The state that a meaning answers; the state given where it does not answer a next one. -/
def next (i : Instr) (s : State) : State := match exec i s with
  | .next t => t
  | .fault _ | .refused _ => s
/-- General register `n` of the issuing thread. -/
def g (s : State) (n : Nat) : Word := vget s.me.g n 0
/-- A meaning answers a next state. -/
def goes (i : Instr) (s : State) : Bool := match exec i s with
  | .next _ => true
  | .fault _ | .refused _ => false
/-- A step answers a next state. -/
def steps (s : State) : Bool := match step s with
  | .next _ => true
  | .fault _ | .refused _ => false
/-- The state with two general registers of the issuing thread. -/
def with2 (a b : Word) : State := core.modMe fun t => (t.setG 6 a).setG 7 b

/-! ### Well-formed terms: one ill-formed term for each check (R42 to R54) -/

theorem test_wf_instructions : [
    !Instr.wf (.lih ch 40 0) && Instr.wf (.lih ch 5 0),
    !Instr.wf (.mts ch 5 .cyc) && Instr.wf (.mts ch 5 .tvec),
    !Instr.wf (.take ch 5 6) && Instr.wf (.take ch 5 33),
    !Instr.wf (.acas ch 5 6) && Instr.wf (.acas ch 6 5),
    !Instr.wf (.acasw ch 32 6) && Instr.wf (.acasw ch 30 6),
    !Instr.wf (.afaddo ch 7 6) && Instr.wf (.afaddo ch 8 6),
    !Instr.wf (.afaddow ch 31 6) && Instr.wf (.afaddow ch 30 6),
    !Instr.wf (.evpop ch 9) && Instr.wf (.evpop ch 8),
    !Instr.wf (.evwait ch 48) && Instr.wf (.evwait ch 0),
    !Instr.wf (.fence ⟨0x10, 2, 0⟩) && Instr.wf (.fence ch),
    !Instr.wf (.fenceG ch) && Instr.wf (.fenceG ⟨0x8, 2, 0⟩),
    !Instr.wf (.fenceM ch) && Instr.wf (.fenceM ⟨0x10, 2, 0⟩),
    !Instr.wf (.fenceP ch) && Instr.wf (.fenceP ⟨0x18, 2, 0⟩),
    !Instr.wf (.vfma ch .f32 48 1 2) && Instr.wf (.vfma ch .f32 1 48 2),
    !Instr.wf (.vaddmin ch .i8 55 1 2) && Instr.wf (.vaddmin ch .i8 56 1 2),
    !Instr.wf (.vdiv ch .i32 1 2 3) && Instr.wf (.vdiv ch .f32 1 2 3),
    !Instr.wf (.vsqrt ch .i8 1 2) && Instr.wf (.vsqrt ch .f64 1 2),
    !Instr.wf (.vshl ch .f16 1 2 3) && Instr.wf (.vshl ch .i16 1 2 3),
    !Instr.wf (.vshr ch .f16 1 2 3) && Instr.wf (.vshr ch .i16 1 2 3),
    !Instr.wf (.vsar ch .bf16 1 2 3) && Instr.wf (.vsar ch .i16 1 2 3),
    !Instr.wf (.vperm ch .f64 1 2 3) && Instr.wf (.vperm ch .i64 1 2 3),
    !Instr.wf (.vext ch .i16 5 3 9) && Instr.wf (.vext ch .i8 5 3 9),
    !Instr.wf (.vins ch .i64 1 5 2) && Instr.wf (.vins ch .i64 1 5 1),
    !Instr.wf (.vins ch .i64 48 5 1) && Instr.wf (.vins ch .i64 40 5 1),
    !Instr.wf (.vcvtq ch .i8 1 2 .e4m3) && Instr.wf (.vcvtq ch .f32 1 2 .e4m3),
    !Instr.wf (.vsfu ch .i8 1 2 .exp2) && Instr.wf (.vsfu ch .f32 1 2 .exp2)].all id = true := by decide +kernel

theorem test_wf_events : [
    !Instr.wf (.instructionFetchFill 70000 0),
    !Instr.wf (.alignTimeout 0 4),
    !Instr.wf (.threadUnpark 70000 0),
    !Instr.wf (.deferredFault 0 4),
    !Instr.wf (.reservationRevoke 0 4),
    !Instr.wf (.oinitRetry 0 4),
    !Instr.wf (.specRollback 0 4),
    !Instr.wf (.cancelAccept 0 4),
    !Instr.wf (.accessPerformed (.relaxed 0 0 8)),
    !Instr.wf (.accessPerformed (.matrix 70000)),
    !Instr.wf (.accessPerformed (.copy 0 4 0 false)),
    !Instr.wf (.accessPerformed (.pod 0 4)),
    !Instr.wf (.translationWalkDone 64 0),
    !Instr.wf (.walkRetry 64),
    !Instr.wf (.stationReplayWrite 64 0),
    !Instr.wf (.barrierComplete 0 0 4 0 0),
    !Instr.wf (.inboxRefill 70000),
    !Instr.wf (.triggerAction 70000),
    !Instr.wf (.mmaComplete 70000),
    !Instr.wf (.matrixTransferComplete 70000),
    !Instr.wf (.tileRetire 70000),
    !Instr.wf (.tileStopDone 70000),
    !Instr.wf (.outboundAck 70000 0),
    !Instr.wf (.copyStart 0 4),
    !Instr.wf (.copyComplete 0 4),
    !Instr.wf (.copyFault 0 4),
    !Instr.wf (.cancelReachYard 0 256),
    !Instr.wf (.yardWithhold 256),
    !Instr.wf (.yardRecover 256),
    !Instr.wf (.moduleLeavePod 64),
    !Instr.wf (.podPortsDownTimeout 64),
    !Instr.wf (.rerunSiteReclaim 256),
    !Instr.wf (.hostWrite 4 0 8 0),
    !Instr.wf (.hostWrite 0 0 4 0),
    !Instr.wf (.hostRead 0 0 16),
    !Instr.wf (.hostLaunchDoorbell 16 0),
    !Instr.wf (.hostLaunchRecordRead 16),
    !Instr.wf (.hostRecordRetry 16),
    !Instr.wf (.hostQueueResume 16),
    !Instr.wf (.hostLinkDown 4),
    !Instr.wf (.vdEntryWrite 256 0 0),
    !Instr.wf (.vdEntryWrite 0 4 0),
    !Instr.wf (.vaultZeroDone 65536),
    !Instr.wf (.sitePowerWrite 65536 0),
    !Instr.wf (.mcrWrite 4 0),
    !Instr.wf (.podRequest 64 0 0 0 8 false 0),
    !Instr.wf (.podRequest 0 0 0 0 3 false 0),
    !Instr.wf (.podFlitReplay 48),
    !Instr.wf (.podLinkDown 48),
    !Instr.wf (.stackThermalChange 24 0),
    !Instr.wf (.voltageRampDone 4096),
    !Instr.wf (.dealRound 261 0)].all id = true := by decide +kernel

/-! ### Decoding: words written out from the layouts of R28 and the tables of R45 to R54 -/

/-- Major 0x0 (R45): function, X and K of the S layout; op8 of ALIGN #7; page 1 is RRF, here TSAVE with X = 0, Y = 6. -/
theorem test_decode_system :
    (decode [0x0000]).toOption = some (.nop ⟨0, 1, 0⟩, []) ∧
    (decode [0x0105]).toOption = some (.trap ⟨0, 1, 0x0105⟩ 5, []) ∧
    (decode [0x03C8]).toOption = some (.mfs ⟨0, 1, 0x03C8⟩ 6 .tval, []) ∧
    (decode [0x0907]).toOption = some (.align ⟨0, 1, 0x0907⟩ 7, []) ∧
    (decode [0xF801, 0x0181]).toOption = some (.tsave ⟨0, 2, 0x0181⟩ 0 6, []) := by
  refine ⟨?_, ?_, ?_, ?_, ?_⟩ <;> decide +kernel

/-- R106, R112 and its example, the example of R102, and the LIH of the example of R366. -/
theorem test_decode_scalar :
    (decode [0x1298]).toOption = some (.add ⟨0, 1, 0x1298⟩ 1 2 3, []) ∧
    (decode [0xF801, 0x1298]).toOption = some (.addw ⟨0, 2, 0x1298⟩ 1 2 3, []) ∧
    (decode [0xF803, 0x2BB8]).toOption = some (.hxy ⟨0, 2, 0x2BB8⟩ 5 6 7, []) ∧
    (decode [0xF600, 0x4009]).toOption = some (.addi ⟨0, 2, 0x4009⟩ 32 0 9, []) ∧
    (decode [0xF801, 0xF001, 0xF000, 0xF000, 0x5600]).toOption = some (.lih ⟨0, 5, 0x5600⟩ 3 0x20000000, []) := by
  refine ⟨?_, ?_, ?_, ?_, ?_⟩ <;> decide +kernel

/-- The examples of R120, R58 and R387. -/
theorem test_decode_branch :
    (decode [0xF805, 0xF490, 0x987A]).toOption = some (.bgeu ⟨0, 3, 0x987A⟩ 12 9 (-6), []) ∧
    (decode [0xFDC0, 0xF801, 0xF410, 0x986C]).toOption = some (.bne ⟨0x1C0, 4, 0x986C⟩ 4 9 (-20), []) ∧
    (decode [0x8B82]).toOption = some (.loop ⟨0, 1, 0x8B82⟩ 5 2, []) := by
  refine ⟨?_, ?_, ?_⟩ <;> decide +kernel

/-- The examples of R58, R366 and R212. -/
theorem test_decode_memory :
    (decode [0xF500, 0xF008, 0x68B0]).toOption = some (.ldd ⟨0, 3, 0x68B0⟩ 20 2 128, []) ∧
    (decode [0x70E0]).toOption = some (.stw ⟨0, 1, 0x70E0⟩ 0 3 0, []) ∧
    (decode [0xA0C4]).toOption = some (.oinit ⟨0, 1, 0xA0C4⟩ 0 3, []) := by
  refine ⟨?_, ?_, ?_⟩ <;> decide +kernel

/-- The examples of R221, R225, R268 and R282. -/
theorem test_decode_groups :
    (decode [0xF801, 0xAA42]).toOption = some (.barcfg ⟨0, 2, 0xAA42⟩ 1 5, []) ∧
    (decode [0xF801, 0xAC0D]).toOption = some (.barr ⟨0, 2, 0xAC0D⟩ 6 0 .fadd, []) ∧
    (decode [0xF817, 0xF402, 0xCAC8]).toOption = some (.vext ⟨0, 3, 0xCAC8⟩ .i8 5 3 9, []) ∧
    (decode [0xF819, 0xC446]).toOption = some (.vredadd ⟨0, 2, 0xC446⟩ .f32 2 1, []) := by
  refine ⟨?_, ?_, ?_, ?_⟩ <;> decide +kernel

/-- The examples of R297, R305 and R366. -/
theorem test_decode_units :
    (decode [0xD140]).toOption = some (.mtcfg ⟨0, 1, 0xD140⟩ 0 5, []) ∧
    (decode [0xD411]).toOption = some (.mma ⟨0, 1, 0xD411⟩ 2 0 1, []) ∧
    (decode [0xF410, 0xD407]).toOption = some (.mrda ⟨0, 2, 0xD407⟩ 2 8, []) ∧
    (decode [0xF450, 0xD005]).toOption = some (.mpass ⟨0, 2, 0xD005⟩ 0 .up, []) ∧
    (decode [0xF450, 0xD0C3]).toOption = some (.mldl ⟨0, 2, 0xD0C3⟩ 0 .lpf, []) ∧
    (decode [0xF801, 0xE806]).toOption = some (.crdig ⟨0, 2, 0xE806⟩ 4 0, []) := by
  refine ⟨?_, ?_, ?_, ?_, ?_, ?_⟩ <;> decide +kernel

/-- Lane 9 of VEXT.I16; a chain without its base word; two PAGE words (R35). -/
theorem test_decode_refuses :
    (decode [0xF817, 0xF402, 0xCAC9]).toOption = none ∧
    (decode [0xF801]).toOption = none ∧
    (decode [0xF800, 0xF800, 0x0000]).toOption = none := by
  refine ⟨?_, ?_, ?_⟩ <;> decide +kernel

/-! ### One step each -/

/-- The example of R108. -/
theorem test_divide : [
    g (next (.div ch 5 6 7) (with2 (-7) 2)) 5 == -3,
    g (next (.rem ch 5 6 7) (with2 (-7) 2)) 5 == -1,
    g (next (.div ch 5 6 7) (with2 (-7) 0)) 5 == 0xFFFFFFFFFFFFFFFF,
    g (next (.rem ch 5 6 7) (with2 (-7) 0)) 5 == -7,
    g (next (.div ch 5 6 7) (with2 0x8000000000000000 (-1))) 5 == 0x8000000000000000,
    g (next (.rem ch 5 6 7) (with2 0x8000000000000000 (-1))) 5 == 0].all id = true := by decide +kernel

/-- The examples of R7, R112 and R113. -/
theorem test_hilbert : [
    g (next (.hxy ch 5 6 7) (with2 45 3)) 5 == 0x50006,
    g (next (.hxy ch 5 6 7) (with2 45 8)) 5 == 0x60005,
    g (next (.hidx ch 5 6 7) (with2 0x60005 8)) 5 == 45,
    g (next (.hxy ch 5 6 7) (with2 45 9)) 5 == 0xFFFFFFFFFFFFFFFF].all id = true := by decide +kernel

/-- R106 to R115. -/
theorem test_scalar : [
    g (next (.add ch 5 6 7) (with2 0xFFFFFFFFFFFFFFFF 2)) 5 == 1,
    g (next (.sar ch 5 6 7) (with2 0x8000000000000000 65)) 5 == 0xC000000000000000,
    g (next (.addw ch 5 6 7) (with2 0x7FFFFFFF 1)) 5 == 0xFFFFFFFF80000000,
    g (next (.mulhsu ch 5 6 7) (with2 0xFFFFFFFFFFFFFFFF 0xFFFFFFFFFFFFFFFF)) 5 == 0xFFFFFFFFFFFFFFFF,
    g (next (.clz ch 5 0) core) 5 == 64,
    g (next (.lih ch 8 0x12345678) core) 8 == 0x12345678FFFFFFFF,
    g (next (.scadd ch 5 6 7) (with2 1 2)) 5 == 17].all id = true := by decide +kernel

/-- R136, R164, R165: little-endian bytes, sign, scaled offset, the address fault, the emptied word. -/
theorem test_memory : [
    g (next (.ldh ch 9 5 0) core) 9 == 0x1180,
    g (next (.ldbs ch 9 5 0) core) 9 == 0xFFFFFFFFFFFFFF80,
    (next (.stw ch 6 5 1) core).readN padKey 8 == 0x5566778833221180,
    (next (.ldd ch 9 6 0) core).me.tcause == 3,
    (next (.ldfe ch 9 5 0) core).full == [padKey + 4]].all id = true := by decide +kernel

/-- The example of R79. -/
theorem test_peg : [
    peg 1 0 == 0x5D139822#32].all id = true := by decide +kernel

/-- Rank 0 of gang 0 with the vector operands of a test. -/
def lanes (v1 v4 v6 v8 : VReg) (q2 : BitVec 16) : State :=
  pair.modMe fun t => { t with v := (((t.v.set 1 v1).set 4 v4).set 6 v6).set 8 v8, q := t.q.set 2 q2 }
def v (s : State) (n : Nat) : VReg := vget s.me.v n 0

/-- The example of R84. -/
theorem test_stochastic : [
    v (next (.vcvt ⟨0x006, 3, 0⟩ .bf16 2 1 .f32) (lanes 0x3FC07000 0 0 0 0)) 2 == 0x3FC1,
    (next (.vcvt ⟨0x006, 3, 0⟩ .bf16 2 1 .f32) (lanes 0x3FC07000 0 0 0 0)).me.srcnt == 1,
    (next (.vcvt ⟨0x006, 3, 0⟩ .bf16 2 1 .f32) (lanes 0x3FC07000 0 0 0 0)).me.fst == 1,
    v (next (.vcvt ch .bf16 2 1 .f32) (lanes 0x3FC07000 0 0 0 0)) 2 == 0x3FC0].all id = true := by decide +kernel

/-- The example of R279. -/
theorem test_lanes : [
    v (next (.vslu ch .i16 4 1 9) ((lanes 0x00080007000600050004000300030004 0 0 0 0).modMe fun t => t.setV 9 0x00050000000000000000000000000000)) 4 == 0x00070006000500040003000300040005,
    v (next (.vaddmin ⟨0x100, 3, 0⟩ .i16 6 4 8) (lanes 0 0x00070006000500040003000300040005 0x00060008000400060002000400030005 0x00010001000100010001000100010001 0x00FF)) 6 == 0x00060008000400060002000400030005,
    v (next (.vaddmin ch .i16 6 4 8) (lanes 0 0x00070006000500040003000300040005 0x00060008000400060002000400030005 0x00010001000100010001000100010001 0x00FF)) 6 == 0x00060007000400050002000400030005].all id = true := by decide +kernel

/-- The example of R282. -/
theorem test_tree_sum : [
    v (next (.vredadd ch .f32 2 1) (lanes 0xCB8000003F8000003F8000004B800000 0 0 0 0)) 2 == 0x3F800000,
    (next (.vredadd ch .f32 2 1) (lanes 0xCB8000003F8000003F8000004B800000 0 0 0 0)).me.fst == 1].all id = true := by decide +kernel

/-- The example of R387: the traps, and the return to user mode. -/
theorem test_trap_after_loop : [
    let t := next (.trap ⟨0, 1, 0x0105⟩ 5) (core.modMe fun t => { t with pc := 0x100, tvec := 0x900, loop0 := ⟨0x100, 0x102, 3, 0, true⟩ }); t.me.tepc == 0x100 && t.me.tval == 5 && t.me.ldepth == 1 && t.me.pc == 0x900 && t.me.loop0.count == 2 && t.me.tst == 7,
    let t := next (.trap ⟨0, 1, 0x0105⟩ 5) (core.modMe fun t => { t with pc := 0x100, tvec := 0x900, loop0 := ⟨0x100, 0x102, 1, 0, true⟩ }); t.me.tepc == 0x102 && !t.me.loop0.valid,
    let t := next (.eret ch) (core.modMe fun t => { t with tst := 5, tepc := 0x102, ldepth := 1 }); t.me.pc == 0x102 && t.me.tst == 0 && t.me.ldepth == 0].all id = true := by decide +kernel

/-- The example of R366: two stores of zero to vault 0; none counts in the own pad. -/
theorem test_digest : [
    let s := pair.modMe fun t => t.setG 3 0x2000000000000000; let t := next (.stw ch 0 3 0) { next (.stw ch 0 3 0) s with cur := (70, 1) }; g (next (.crdig ch 4 0) t) 4 / 2 ^ 32 == 0x7A213044,
    g (next (.crdig ch 4 0) (next (.stw ch 0 5 0) pair)) 4 == 0].all id = true := by decide +kernel

/-- The examples of R258 and R8. -/
theorem test_sites : [
    State.siteOfRank 32 12 [13] == 44,
    State.siteOfRank 32 13 [13] == 46,
    State.stationOf (100 * 4096) == 11].all id = true := by decide +kernel

/-- R240, R241. -/
theorem test_counter : [
    vget ((next (.cinc ch 1 7 0) core).tile 65536).c 1 0 == 3,
    g (next (.crd ch 9 1) (next (.cinc ch 1 7 0) core)) 9 == 3,
    ((next (.put ch 7 12 1) pair).net.map fun m => m.dest) == [1]].all id = true := by decide +kernel

/-- R215: the reserved bits of a barrier configuration read zero. -/
theorem test_barrier_config : [
    vget ((next (.barcfg ch 1 5) (with2 0 0 |>.modMe fun t => t.setG 5 0xFF12)).tile 65536).barCfg 1 0 == 0x0F12].all id = true := by decide +kernel

/-! ### Placing a word at the next fetch -/

/-- From reset, an ADD steps, and LI g5, #3 writes 3. -/
theorem test_fetch : [
    steps (State.reset.withFetchWord 16 0x1298),
    (match step (State.reset.withFetchWord 16 0x5A03) with
      | .next t => g t 5 == 3
      | .fault _ | .refused _ => false)].all id = true := by decide +kernel

/-! ### States for what the later statements ask -/

/-- A leaf at the station of tile 70, of its VD's space 0, page `p`, standing at physical 0x20000. -/
def leafOn (p : Nat) (leaf : Word) : TlbEntry := { station := State.entryStation 70, vd := 0, space := 0, bits := 16, page := p, leaf := leaf, leafPa := 0 }

/-- Rank 0 beside one leaf of page 0. -/
def onLeaf (leaf : Word) : State := { pair with tlb := [leafOn 0 leaf] }

/-- Gang 1 of the grid has retired. -/
def retired : State :=
  { pair.pokeN (rimKey 0x40020) 32 (2 ^ 18) with grids := [{ grid with hi := 2, desc := { grid.desc with gcnt := 2 } }] }.modMe fun t => t.setG 12 0x1000000100000100

/-- No thread of a listed tile is inside a handler, and nothing from outside waits. -/
def undisturbed (s : State) (a th : Nat) : Bool :=
  (s.tiles.filter fun x => x.1 == a).length == 1 && (s.thread a th).popped.isEmpty && (s.thread a th).held.isEmpty && (s.thread a th).spec.isNone &&
  s.tiles.all (fun x => (List.range 4).all fun u => !(s.thread x.1 u).tst.getLsbD 2) && !(s.thread 131072 0).tst.getLsbD 2 && s.hostPending.isEmpty && s.podPending.isEmpty && s.watches.isEmpty

/-- Rank 0 waits for a walk whose first entry is zero, at a directory entry with a policy. -/
def walked (policy : Nat) : State :=
  { (parked (.walk 52 0 0 0x4000400000000000 0x4000400000000000)).pokeN (rimKey 0) 1 policy with
    walks := [{ station := 52, vd := 0, space := 0, addr := 0x4000400000000000, kind := .load, vtn := 0, thread := 1 }] }

/-- Rank 0 waits for a rim fault. -/
def faulted : State :=
  { parked (.rimFault 52 0 0 0x4000000000010000 0x4000000000010000) with
    rimFaults := [{ station := 52, vd := 0, space := 0, addr := 0x4000000000010000, kind := .load, vtn := 0, thread := 1, tag := 9 }] }

/-- Rank 0 waits for the fill of its line, whose leaf is cached. -/
def filling (leaf : Word) (h : Option Park) : State :=
  { (parked (.fetch 0x4000000000000100)) with
    tlb := [leafOn 0 leaf], icache := [], fills := [{ agent := 70, thread := 1, course := State.courseOf 70, vd := 0, space := 0, line := 4, hold := h }] }

/-- Rank 0 with one outstanding access. -/
def waiting (st : Bool) : State := pair.modThread 70 1 fun t => { t with relaxed := [{ addr := 0x100, size := 8, store := st, dest := 9, data := 7 }] }

/-- Rank 0 waits for an access of module 3. -/
def abroad : State :=
  (parked (.pod 0x500C000000000000)).modThread 70 1 fun t => { t with relaxed := [{ addr := 0x500C000000000000, size := 8, store := false, dest := 9 }] }

/-- Rank 0 in the middle of a transfer. -/
def moving (k : XferKind) : State :=
  pair.modTile 70 fun t => { t with xfer := some { thread := 1, kind := k, reg := 0, addr := 0x100, total := 16, done := 8 }, ln := [{ word := 5 }], lp := [{ word := 6 }] }

/-- Rank 0 with a copy of 16 bytes from 0 to 0x100. -/
def copyOf (l : List CopyByte) : CopyCmd := { cmd .running with kind := .cpy, len := 16, stream := 0, latched := l }
def copies (l : List CopyByte) : State := pair.modTile 70 fun t => { t with copies := t.copies.set 0 (some (copyOf l)) }

/-- A table of two levels: the root at 0x2000, and at 0x4000 the leaf of page 0, which is large. -/
def tables (leaf : Word) : State :=
  { ((pair.pokeN (rimKey 0) 8 0x2001).pokeN (rimKey 0x2000) 8 0x4001).pokeN (rimKey 0x4000) 8 leaf.toNat with
    walks := [{ station := 52, vd := 0, space := 0, addr := 0x4000000000010000, kind := .load, vtn := 0, thread := 1 }] }

/-- Rank 0's oldest word stands in the overflow ring of its gang. -/
def ringed : State :=
  (((pair.pokeN (rimKey 0x40000) 32 (70 + 2 ^ 16 + 0x60000 * 2 ^ 128 + 0x50000 * 2 ^ 192)).pokeN (rimKey 0x50000) 8 0x50040).pokeN (rimKey 0x50008) 16 (4 + 2 ^ 64)).pokeN (rimKey 0x50040) 32 (5 + 7 * 2 ^ 128)

/-- A LAUNCH of service core 0 stands at the dispatcher. -/
def launchMsg : Msg := { id := 0, kind := .launch 0x4000000000000080, agent := 65536, thread := 1, vtn := 0xFFFFFFF0, handle := 0, vd := 0, sup := true }
def dispatched (m : Msg) (d : Nat) : State :=
  { (rim.pokeN (rimKey 0x20080) 128 d) with net := [m] }.modThread 65536 1 fun t => { t with launching := [(9, 0)] }

/-- The least descriptor: one gang of one tile, entry at 2, weight 1. -/
def leastDesc : Nat := 2 ^ 96 + 0x4000000000000002 * 2 ^ 128 + 2 ^ 192 + 2 ^ 248

/-- Grid 5 with a range of gangs at the quadrant dispatcher 256. -/
def dealt : State := { pair with grids := [{ grid with hi := 8, desc := { grid.desc with gcnt := 8 }, ranges := [⟨256, 2, 8⟩] }] }

/-- Grid 5 in the swap region, its gang's entry standing, its skid queue empty. -/
def calm (ph : GangPhase) : State :=
  ({ pair with swap := [⟨0, 0x40000, 0x100000⟩], gangs := [{ gang with phase := ph }], watches := [], away := [] }.pokeN (rimKey 0x40000) 32 (70 + 2 ^ 16 + 0x60000 * 2 ^ 128 + 0x50000 * 2 ^ 192))

/-- An audit whose run has retired with a digest. -/
def audited (d : Nat) (sec : Option Nat) : State :=
  let dig (n : Nat) : Vector (BitVec 32) 4 := Vector.replicate 4 (BitVec.ofNat 32 n)
  { pair with
    audits := [{ audit with placed := true, second := sec.map dig, secondSites := [80, 81] }]
    gangs := [{ gang with mark := if sec.isSome then .third else .rerun, phase := .retired, sites := [], digest := dig d, history := [80, 81] }] }

/-- Grid 5 has ended its audits and holds the page of an input region. -/
def heldGrid : State :=
  { (tables 0xFF) with walks := [], gangs := [], grids := [{ grid with holds := true, io := [⟨0x4000000000010000, 64, false⟩] }] }

/-- Rank 0 speculates, with entries in its buffer. -/
def spec1 : State := pair.modMe fun t => { t with spec := some spec0 }
def specB (l : List BufEntry) : State := pair.modMe fun t => { t with spec := some { spec0 with buf := l } }

/-- The host's VD is 0, whose page 0 is cached at station 52 (service core 0). -/
def hosted : State := rim

/-- Launch queue 0 stands at the page's start, of four records, one of them written. -/
def queued (seq : Nat) : State :=
  (((rim.setMcrN 0x1100 8 0x4000000000000000).setMcrN 0x1108 4 4).setMcrN 0x110C 4 1).pokeN (rimKey 0x20000) 64 (seq + 2 ^ 448 * seq + 2 ^ 64 * 0x4000000000000080)

/-- The partner's page 0 is cached at station 0. -/
def podded (leaf : Word) : State :=
  { rim.setMcrN 0x4018 2 0x8000 with tlb := [{ station := 0, vd := 0, space := 0, bits := 16, page := 0, leaf := leaf, leafPa := 0 }] }

/-! ### Witnesses: states and operands that meet the hypotheses of each statement -/

/-- Plain registers; two pops of the inbox and g0; a shared register and a stream handle. -/
theorem witness_ScalarTwoSourceResult : [
    (scalar3 (.add ch 9 5 6)).isSome,
    (scalar3 (.maxu ch 0 44 44)).isSome,
    core.admits {} ch,
    core.atHand [.g 5, .g 6] [.g 9],
    core.atHand [.g 44, .g 44] [.g 0],
    core.atHand [.g 33, .g 63] [.g 48]].all id = true := by decide +kernel

theorem witness_ScalarOneSourceResult : [
    (scalar2 (.brev ch 9 5)).isSome,
    (scalar2 (.lih ch 9 5)).isSome,
    core.admits {} ch,
    core.atHand [.g 5] [.g 9],
    (counting (.clz ch 9 5)).isSome,
    (counting (.popc ch 9 5)).isSome,
    core.admits { guarded := false } ch,
    core.atHand [.g 5, .g 6] [.g 9],
    core.atHand [] [.g 9]].all id = true := by decide +kernel

/-- Orders 0, 9, 1 and 8 at their edges. -/
theorem witness_HilbertResult : [
    core.admits {} ch,
    core.atHand [.g 5, .g 6] [.g 9],
    decide ((0 : Word) = 0 ∨ 8 < (0 : Word).toNat),
    decide (8 < (9 : Word).toNat),
    decide (3 < 4 ^ 1),
    decide (65535 < 4 ^ 8)].all id = true := by decide +kernel

theorem witness_BranchResult : [
    (branchG (.bz ch 5 2)).isSome,
    (branchG (.bgeu ch 5 6 2)).isSome,
    core.admits {} ch,
    core.atHand [.g 5] [],
    core.atHand [.g 5, .g 6] [],
    core.atHand [] [.g 1],
    !(core.src 5).1.getLsbD 0,
    core.atHand [.g 5] [.g 1],
    core.atHand [.g 1] [],
    !(core.src 1).1.getLsbD 0].all id = true := by decide +kernel

theorem witness_LoopResult : [
    core.admits {} ch,
    core.atHand [.g 5] [],
    decide ((core.after ch).toNat < (target core 4).toNat),
    (core.src 0).1 == 0,
    core.atHand [.g 0] [],
    (core.src 5).1 != 0,
    !core.me.loop1.valid].all id = true := by decide +kernel

theorem witness_LoadResult : [
    (loadOf (.ldd ch 9 5 1)).isSome,
    core.admits {} ch,
    core.atHand [.g 5] [.g 9],
    plainly core ch,
    addressed core 0x1008 8 Use.load,
    goesTo core 0x1008 Use.load (padKey + 8),
    !core.poisonedIn (padKey + 8) 8].all id = true := by decide +kernel

theorem witness_StoreResult : [
    (storeOf (.std ch 6 5 0)).isSome,
    core.admits {} ch,
    core.atHand [.g 5, .g 6] [],
    plainly core ch,
    addressed core 0x1000 8 Use.store,
    goesTo core 0x1000 Use.store padKey].all id = true := by decide +kernel

theorem witness_VectorMoveResult : [
    core.admits { compute := true } ch,
    plainly core ch,
    core.atHand [.g 5] [.v 3],
    addressed core 0x1000 16 Use.load,
    goesTo core 0x1000 Use.load padKey,
    goesTo core 0x1008 Use.load (padKey + 8),
    !core.poisonedIn padKey 8,
    !core.poisonedIn (padKey + 8) 8,
    core.atHand [.g 5, .v 2] [],
    addressed core 0x1000 16 Use.store,
    goesTo core 0x1000 Use.store padKey,
    goesTo (stored core 0x1000 padKey 8 7) 0x1008 Use.store (padKey + 8)].all id = true := by decide +kernel

theorem witness_RelaxedAccessIssues : [
    (loadOf (.ldw chRelaxed 9 5 0)).isSome,
    core.admits {} chRelaxed,
    core.atHand [.g 5] [.g 9],
    chRelaxed.relaxed,
    core.me.spec.isNone,
    decide (core.me.relaxed.length < 8),
    addressed core 0x1000 4 Use.load,
    (storeOf (.stw chRelaxed 6 5 0)).isSome,
    core.atHand [.g 5, .g 6] [],
    addressed core 0x1000 4 Use.store].all id = true := by decide +kernel

/-- A full word for a load; an empty one for STE; a full one for STF. -/
theorem witness_FullEmptyResult : [
    (feLoadOf (.ldfe ch 9 5 0)).isSome,
    core.admits settled ch,
    core.atHand [.g 5] [.g 9],
    addressed core 0x1000 4 { read := true, write := true, fe := true, plain := false },
    goesTo core 0x1000 { read := true, write := true, fe := true, plain := false } padKey,
    noFe core padKey,
    wordsAre core padKey 4 true,
    !core.poisonedIn padKey 4,
    !core.shadows 65536 padKey,
    (feStoreOf (.ste ch 6 5 2)).isSome,
    core.atHand [.g 5, .g 6] [],
    addressed core 0x1008 4 { write := true, fe := true, plain := false, parks := false, kind := .store },
    goesTo core 0x1008 { write := true, fe := true, plain := false, parks := false, kind := .store } (padKey + 8),
    noFe core (padKey + 8),
    wordsAre core (padKey + 8) 4 false,
    !core.shadows 65536 (padKey + 8),
    addressed core 0x1000 4 { write := true, fe := true, plain := false, parks := true, kind := .store },
    goesTo core 0x1000 { write := true, fe := true, plain := false, parks := true, kind := .store } padKey].all id = true := by decide +kernel

theorem witness_ReservationGranted : [
    rim.admits settled ch,
    rim.atHand [.g 5] [.g 9],
    decide (rim.me.sync = {}),
    addressed rim 0x1000 8 Use.atomic,
    State.syncSpace false 0x1000,
    goesTo rim 0x1000 Use.atomic padKey,
    bankFree rim padKey,
    rim.atHand [.g 10, .g 13] [.g 13],
    addressed rim 0x4000000000000000 8 Use.atomic,
    State.syncSpace true 0x4000000000000000,
    goesTo rim 0x4000000000000000 Use.atomic (rimKey 0x20000),
    bankFree rim (rimKey 0x20000),
    rim.ticketOf (rimKey 0x20000) == some 5].all id = true := by decide +kernel

/-- A reservation of the first doubleword of the rim space, held or revoked. -/
def holding (kind : BitVec 8) (revoked : Bool) : State :=
  rim.modMe fun t => { t with sync := { heldAddr := 0x4000000000000000, heldKind := kind, revoked := revoked } }

theorem witness_HandOffResult : [
    (holding 1 false).admits settled ch,
    (holding 1 false).atHand [.g 10, .g 12] [.g 12],
    addressed (holding 1 false) 0x4000000000000000 8 Use.atomic,
    State.syncSpace false 0x4000000000000000,
    State.syncSpace true 0x4000000000000000,
    goesTo (holding 1 false) 0x4000000000000000 Use.atomic (rimKey 0x20000),
    (holding 1 false).me.sync.heldKind == 1 && (holding 1 false).me.sync.heldAddr == 0x4000000000000000 && !(holding 1 false).me.sync.revoked,
    (holding 2 true).me.sync.heldKind == 2 && (holding 2 true).me.sync.revoked,
    rim.me.sync.heldKind != 1,
    goesTo rim 0x4000000000000000 Use.atomic (rimKey 0x20000)].all id = true := by decide +kernel

/-- An atomic without and one with a ticket. -/
theorem witness_AtomicResult : [
    (atomicOf (.aadd ch 9 10)).isSome,
    rim.admits settled ch,
    rim.atHand [.g 10, .g 9] [.g 9],
    addressed rim 0x4000000000000000 8 Use.atomic,
    State.syncSpace false 0x4000000000000000,
    goesTo rim 0x4000000000000000 Use.atomic (rimKey 0x20000),
    bankFree rim (rimKey 0x20000),
    !rim.shadows 65536 (rimKey 0x20000),
    (atomicOf (.afaddo ch 12 10)).isSome,
    rim.atHand [.g 10, .g 12, .g 13] [.g 12],
    State.syncSpace true 0x4000000000000000,
    rim.ticketOf (rimKey 0x20000) == some (rim.src 13).1].all id = true := by decide +kernel

theorem witness_FenceWaitTakeOinit : [
    core.admits { drained := true } ch,
    core.admits settled ch,
    core.fenceClear 65536 1 1,
    core.fenceClear 65536 1 2,
    core.fenceClear 65536 1 3,
    core.atHand [.g 0] [],
    decide ((core.src 0).1.toNat % 2 ^ 32 ≤ (vget (core.tile 65536).c 3 0).toNat),
    rim.atHand [.g 10, .g 13] [],
    rim.admits settled ch,
    addressed rim 0x4000000000000000 8 Use.atomic,
    State.syncSpace true 0x4000000000000000,
    goesTo rim 0x4000000000000000 Use.atomic (rimKey 0x20000),
    bankFree rim (rimKey 0x20000),
    rim.oinitReady (rimKey 0x20000) 5,
    core.admits { held := true } ch,
    core.atHand [.g 33] [.g 9],
    isShared 33,
    core.atHand [.g 5] [],
    noFe core padKey,
    addressed core 0x1000 4 { read := true, fe := true, plain := false },
    goesTo core 0x1000 { read := true, fe := true, plain := false } padKey,
    core.isFull padKey,
    addressed core 0x1000 4 { write := true, fe := true, plain := false, parks := true, kind := .store },
    goesTo core 0x1000 { write := true, fe := true, plain := false, parks := true, kind := .store } padKey,
    !core.shadows 65536 padKey].all id = true := by decide +kernel

theorem witness_VectorTwoSourceResult : [
    (vectorOf (.vadd ch .f32 1 2 3)).isSome,
    (vectorOf (.vsar ch .i8 48 2 3)).isSome,
    core.admits byLane ch,
    core.atHand [.v 2, .v 3] [.v 1],
    core.atHand [.v 48, .v 3] [.v 48]].all id = true := by decide +kernel

theorem witness_VectorCompareResult : [
    (compareOf (.vclt ch .i16 1 2 3)).isSome,
    core.admits byLane ch,
    core.atHand [.v 2, .v 3] []].all id = true := by decide +kernel

theorem witness_VectorResult : [
    (vectorEffect (.vfma ch .f32 1 2 3) core).isSome,
    (vectorEffect (.vaddmin ch .i16 1 2 3) core).isSome,
    (vectorEffect (.vsqrt ch .f64 1 2) core).isSome,
    (vectorEffect (.vsel ch .i8 1 2 3) core).isSome,
    (vectorEffect (.vbcst ch .i32 1 6) core).isSome,
    (vectorEffect (.vext ch .i8 9 2 9) core).isSome,
    (vectorEffect (.vins ch .i16 1 6 7) core).isSome,
    (vectorEffect (.vredadd ch .f32 1 2) core).isSome,
    (vectorEffect (.vcvt ch .f32 1 2 .i32) core).isSome,
    (vectorEffect (.vcvtq ch .f32 1 2 .e4m3) core).isSome,
    (vectorEffect (.vpeg ch 1 2 7) core).isSome,
    (laneMoveOf (.vslu ch .i16 1 2 3)).isSome,
    core.admits byLane ch,
    core.atHand [.v 2, .v 3] [.v 1],
    (vectorEffect (.vsfu ch .f32 1 2 .exp2) core).isSome].all id = true := by decide +kernel

theorem witness_BarrierResult : [
    (barrierEffect (.bar ch 1) core).isSome,
    (barrierEffect (.bars ch 1) core).isSome,
    (barrierEffect (.barr ch 6 1 .add) core).isSome,
    (barrierEffect (.barcfg ch 1 6) core).isSome,
    (barrierEffect (.barq ch 9 1) core).isSome,
    (barrierEffect (.bar ch 1) (core.modTile 65536 fun t => { t with barCfg := Vector.replicate 4 0 })).isSome,
    (barrierEffect (.bars ch 1) (core.modTile 65536 fun t => { t with barCfg := Vector.replicate 4 0 })).isSome,
    (barrierEffect (.barr ch 6 1 .add) (core.modTile 65536 fun t => { t with barCfg := Vector.replicate 4 0 })).isSome].all id = true := by decide +kernel

theorem witness_MessageResult : [
    (messageEffect (.cset ch 1 7) core).isSome,
    (messageEffect (.crd ch 9 1) core).isSome,
    (messageEffect (.disarm ch 1) core).isSome,
    (messageEffect (.cinc ch 1 7 0) core).isSome,
    (messageEffect (.put ch 7 12 1) pair).isSome,
    (messageEffect (.putv ch 2 12 1) pair).isSome,
    (messageEffect (.get ch 5 12 1) pair).isSome,
    (messageEffect (.send ch 7 15) pair).isSome,
    (messageEffect (.cinc ch 1 7 15) pair).isSome,
    (messageEffect (.post ch 5 10) rim).isSome,
    (messageEffect (.arm ch 1 17 5) pair).isSome].all id = true := by decide +kernel

theorem witness_ArrivalResult : [
    (arrivalEffect (.putLand 0) (sent (.put 0x100 1 7))).isSome,
    (arrivalEffect (.putLand 0) (sent (.putv 0x100 1 7))).isSome,
    (arrivalEffect (.getRequestServe 0) (sent (.getReq 0x100 0x200 1))).isSome,
    (arrivalEffect (.getResponse 0) (sent (.getResp 0x100 1 7 false))).isSome,
    (arrivalEffect (.sendLand 0) (sent (.send 7))).isSome,
    (arrivalEffect (.cincLand 0) (sent (.cinc 1 7))).isSome,
    (arrivalEffect (.outboundAck 70 0) ({ pair with net := [{ msg (.send 7) with phase := .acked }] }.modTile 70 fun t => { t with outb := [0] })).isSome,
    (arrivalEffect (.linkWordArrive 0) ({ pair with links := [{ handle := 5, gang := 0, rank := 1, fromBelow := true, word := 3 }] })).isSome,
    (arrivalEffect (.messageRefused 0) ({ pair.pokeN (rimKey 0x40000) 32 (70 + 2 ^ 16 + 2 ^ 48 * 3) with net := [{ msg (.send 7) with site := none }] })).isSome,
    (arrivalEffect (.triggerAction 70) (pair.modTile 70 fun t => { t with evalQ := [{ ctr := 1 }], trig := t.trig.set 0 { cfg := 0x830100000000 }, c := t.c.set 1 5 })).isSome,
    (arrivalEffect (.specRollback 70 1) (pair.modThread 70 1 fun t => { t with spec := some spec0, rollback := true })).isSome,
    (arrivalEffect (.barrierComplete 5 0 1 0 0) ({ parked (.barrier 1) with decided := [⟨⟨5, 0, 1, 0, 0⟩, [(70, 2)]⟩] })).isSome,
    (arrivalEffect (.postAppend 0) ({ rim with net := [{ id := 0, kind := .post 0x4000000000000040 0, agent := 65536, thread := 1, vtn := 0xFFFFFFF0, handle := 0, vd := 0, sup := true }] }.pokeN (rimKey 0x20040) 8 0x4000000000000100)).isSome,
    (arrivalEffect (.inboxRefill 70) ringed).isSome].all id = true := by decide +kernel

theorem witness_MatrixResult : [
    (matrixEffect (.mfcfg ch 9 1) core).isSome,
    (matrixEffect (.mld ch 1 5) core).isSome,
    (matrixEffect (.mst ch 1 5) core).isSome,
    (matrixEffect (.mscl ch 1 5) core).isSome,
    (matrixEffect (.mrda ch 1 5) core).isSome,
    (matrixEffect (.mwra ch 1 5) core).isSome,
    (matrixEffect (.mzero ch 1) core).isSome,
    (matrixEffect (.mma ch 0 1 2) core).isSome,
    (matrixEffect (.mmaComplete 70) (pair.modTile 70 fun t => { t with mma := some ⟨1, 0, 1, 2⟩ })).isSome,
    (matrixEffect (.matrixTransferComplete 70) (pair.modTile 70 fun t => { t with xfer := some { thread := 1, kind := .mld, reg := 0, addr := 0, total := 8, done := 8 } })).isSome,
    (matrixEffect (.mldl ch 1 .ln) pair).isSome,
    (matrixEffect (.mpass ch 1 .up) pair).isSome,
    (matrixEffect (.mtcfg ch 1 16) rim).isSome].all id = true := by decide +kernel

theorem witness_EngineResult : [
    (engineEffect (.sqry ch 9 0) core).isSome,
    (engineEffect (.sclr ch 1) core).isSome,
    (engineEffect (.cpy ch 9 5) core).isSome,
    (engineEffect (.cpyg ch 9 5) core).isSome,
    (engineEffect (.cpys ch 9 5) core).isSome,
    (engineEffect (.cpyz ch 9 5) core).isSome,
    (engineEffect (.cjoin ch 7) core).isSome,
    (engineEffect (.evpop ch 12) ({ core with cur := (65536, 0) })).isSome,
    (engineEffect (.evwait ch 12) ({ core with cur := (65536, 0) }.modTile 65536 fun t => { t with events := [⟨1, 2⟩] })).isSome,
    (engineEffect (.copyStart 70 0) (copying .waiting)).isSome,
    (engineEffect (.copyComplete 70 0) (copying .running)).isSome,
    (engineEffect (.copyFault 70 0) (copying .failing)).isSome,
    (engineEffect (.copyBudgetWindow) ({ pair with windows := 1 })).isSome,
    (engineEffect (.scfg ch 1 11) rim).isSome,
    (engineEffect (.sadv ch 0 15) rim).isSome].all id = true := by decide +kernel

theorem witness_SystemResult : [
    (systemEffect (.nop ch) core).isSome,
    (systemEffect (.align ch 3) core).isSome,
    (systemEffect (.pref ch 10) core).isSome,
    (systemEffect (.halt ch) core).isSome,
    (systemEffect (.trap ch 5) core).isSome,
    (systemEffect (.brk ch 9) core).isSome,
    (systemEffect (.eret ch) core).isSome,
    (systemEffect (.sleep ch) core).isSome,
    (systemEffect (.mfs ch 9 .tepc) core).isSome,
    (systemEffect (.mts ch 6 .tvec) core).isSome,
    (systemEffect (.tmap ch 9 5) core).isSome,
    (systemEffect (.tlbinv ch 7 5) core).isSome,
    (systemEffect (.vote ch 7) core).isSome,
    (systemEffect (.tstop ch 17) admin).isSome,
    (systemEffect (.tgo ch 17) admin).isSome,
    (systemEffect (.tquar ch 17) admin).isSome,
    (systemEffect (.tsave ch 17 10) admin).isSome,
    (systemEffect (.tload ch 17 10) admin).isSome,
    (systemEffect (.zero ch 14 0) rim).isSome].all id = true := by decide +kernel

theorem witness_GangResult : [
    (gangEffect (.cancel ch 9) core).isSome,
    (gangEffect (.gwait ch 9) core).isSome,
    (gangEffect (.gqry ch 9 6) core).isSome,
    (gangEffect (.spawn ch 10 7) core).isSome,
    (gangEffect (.crdig ch 9 1) core).isSome,
    (gangEffect (.cron ch) core).isSome,
    (gangEffect (.croff ch) core).isSome,
    (gangEffect (.crstat ch 9 17) admin).isSome,
    (gangEffect (.launch ch 10) rim).isSome,
    (gangEffect (.seed ch 9) rim).isSome].all id = true := by decide +kernel

theorem witness_WaitEventResult : [
    (waitEvent (.instructionFetchFill 65536 0x4000000000000100) ({ pair with fills := [{ agent := 65536, thread := 1, course := 0, vd := 0, space := 0, line := 4 }] })).isSome,
    (waitEvent (.alignTimeout 70 1) ({ parked (.align 3 [71] 0) with sites := [(70, { state := .running, cyc := 256 }), (71, { state := .running })] })).isSome,
    (waitEvent (.threadUnpark 70 1) (parked .outbound)).isSome,
    (waitEvent (.threadUnpark 70 1) (parked (.align 3 [71] 0))).isSome,
    (waitEvent (.threadUnpark 70 1) (parked .draining)).isSome,
    (waitEvent (.accessPerformed (.copy 70 0 32 false)) (copies [])).isSome,
    (waitEvent (.accessPerformed (.pod 70 1)) abroad).isSome,
    (waitEvent (.accessPerformed (.strike 5 true)) pair).isSome,
    (waitEvent (.accessPerformed (.relaxed 70 1 0)) (pair.modThread 70 1 fun t => { t with relaxed := [{ addr := 0x100, size := 8, store := false, dest := 9 }] })).isSome,
    (waitEvent (.accessPerformed (.matrix 70)) (pair.modTile 70 fun t => { t with xfer := some { thread := 1, kind := .mld, reg := 0, addr := 0, total := 8 } })).isSome,
    (waitEvent (.deferredFault 70 1) (pair.modThread 70 1 fun t => { t with deferred := some ⟨0x18, 0x100⟩ })).isSome,
    (waitEvent (.translationWalkDone 52 0) ({ pair with walks := [{ station := 52, vd := 0, space := 0, addr := 0x4000000000010000, kind := .load, vtn := 0, thread := 1 }] })).isSome,
    (waitEvent (.walkRetry 52) pair).isSome,
    (waitEvent (.stationReplayWrite 52 1) pair).isSome,
    (waitEvent (.reservationRevoke 70 1) ({ (pair.modThread 70 1 fun t => { t with sync := { heldAddr := 8, heldKind := 1, heldKey := some padKey } }) with sites := [(70, { state := .stopping, cyc := 1024 }), (71, { state := .running })] })).isSome,
    (waitEvent (.queueTableReadmit (State.bankOf padKey)) ({ pair with rejected := [⟨padKey, 8, .lrw, 9, false, 70, 1⟩] })).isSome,
    (waitEvent (.oinitRetry 70 1) (parked (.orderTable padKey 3))).isSome].all id = true := by decide +kernel

/-- The gang that comes back needs a free site, which the signed blob decides: `witness_GangSwapIn`. -/
theorem witness_GangEventResult : [
    (gangEvent (.launchAccept 0) ({ rim with net := [{ id := 0, kind := .launch 0x4000000000000080, agent := 65536, thread := 1, vtn := 0xFFFFFFF0, handle := 0, vd := 0, sup := true }] })).isSome,
    (gangEvent (.dealRound 260 5) pair).isSome,
    (gangEvent (.gangStart 5 0) pair).isSome,
    (gangEvent (.gangStart 5 65536) ({ pair with audits := [audit] })).isSome,
    (gangEvent (.tileRetire 70) noThreads).isSome,
    (gangEvent (.gridComplete 5) ({ pair with grids := [{ grid with completed := 1 }], gangs := [] })).isSome,
    (gangEvent (.cancelAccept 70 1) (parked (.dispatcher 5 9))).isSome,
    (gangEvent (.cancelReachYard 5 0) ({ pair with grids := [{ grid with cancelled := true }] })).isSome,
    (gangEvent (.moduleLeavePod 3) pair).isSome,
    (gangEvent (.yardWithhold 9) pair).isSome,
    (gangEvent (.yardRecover 9) pair).isSome,
    (gangEvent (.watchdogExpire 5 0) ({ pair.setMcrN (State.vdOff 0 22) 1 20 with gangs := [{ gang with dog := 2 ^ 20 }] })).isSome,
    (gangEvent (.quantumExpiry 5 0) { pair with gangs := [{ gang with resident := 10000 }] }).isSome,
    (gangEvent (.gangSwapOut 5 0) ({ pair with sites := [(70, { state := .running, pend := true }), (71, { state := .running })] })).isSome,
    (gangEvent (.tileStopDone 70) ({ noThreads with sites := [(70, { state := .stopping, stopBy := some .scheduler })] })).isSome,
    (gangEvent (.tileFault 5 0) ({ pair with tileFaults := [(5, 0)] })).isSome,
    (gangEvent (.rerunSiteReclaim 0) ({ pair with audits := [audit], rerunWindow := [(0, 100)], sites := (List.range 256).map fun a => (a, if a == 70 || a == 71 then { state := .running } else { state := .quarantined }) })).isSome,
    (gangEvent (.gangStallReport 5 0) { pair with gangs := [{ gang with stall := 2 ^ 20 }] }).isSome,
    (gangEvent (.rerunVerdict 5 0) ({ pair with audits := [audit] })).isSome,
    (gangEvent (.cruiseHoldClear 5) ({ pair with grids := [{ grid with holds := true }], gangs := [{ gang with phase := .retired }] })).isSome].all id = true := by decide +kernel

theorem witness_PlatformEventResult : [
    (platformEvent (.entropyTestFail 1) pair).isSome,
    (platformEvent (.entropyRecover) ({ pair with entropyFailing := some 1 })).isSome,
    (platformEvent (.seedLogHeadWrite 8) pair).isSome,
    (platformEvent (.replaySourceSizeWrite 8) pair).isSome,
    (platformEvent (.queueRecordAppend 0) ({ pair with records := [⟨.health, 7⟩] }.setMcrN 0x1048 8 0x60000)).isSome,
    (platformEvent (.hostWrite 0 0x4000000000000000 8 7) pair).isSome,
    (platformEvent (.hostRead 0 0x4000000000000000 8) pair).isSome,
    (platformEvent (.hostLaunchDoorbell 0 1) pair).isSome,
    (platformEvent (.hostLaunchRecordRead 0) (pair.setMcrN 0x110C 4 1)).isSome,
    (platformEvent (.hostRecordRetry 0) ({ pair with hostQueues := [(0, .retry 1)] })).isSome,
    (platformEvent (.hostQueueResume 0) pair).isSome,
    (platformEvent (.hostLinkDown 1) pair).isSome,
    (platformEvent (.featureRequestWrite 0) pair).isSome,
    (platformEvent (.attestationRequest) (pair.setMcrN 0x220 8 1)).isSome,
    (platformEvent (.vdEntryWrite 0 8 0) pair).isSome,
    (platformEvent (.vaultZeroDone 70) ({ pair with zeroing := [70] })).isSome,
    (platformEvent (.sitePowerWrite 70 1) pair).isSome,
    (platformEvent (.mcrWrite 0x4000 0) pair).isSome,
    (platformEvent (.podRequest 3 0 0 0x4000000000000000 8 false 0) (pair.setMcrN 0x4018 2 0x8000)).isSome,
    (platformEvent (.podFlitReplay 2) pair).isSome,
    (platformEvent (.podLinkDown 2) ({ pair with flitReplays := [(2, 64)] })).isSome,
    (platformEvent (.podPortsDownTimeout 3) ({ (pair.setMcrN 0x4018 2 0x8201) with portsDown := [1, 2], time := 10000 })).isSome,
    (platformEvent (.moduleBoot) ({ pair with booted := false })).isSome,
    (platformEvent (.overcurrentTrip) pair).isSome,
    (platformEvent (.voltageWindow) pair).isSome,
    (platformEvent (.voltageRampDone 1) pair).isSome,
    (platformEvent (.stackThermalChange 0 300) pair).isSome].all id = true := by decide +kernel

/-- Both kinds of thread inside a handler. -/
def inHandler : State := pair.modThread 70 1 fun t => { t with tst := 4 }

theorem witness_TrapEntry : [
    !(core.thread 65536 1).tst.getLsbD 2,
    (core.thread 65536 1).popped.isEmpty,
    (core.thread 65536 1).held.isEmpty,
    (inHandler.thread 70 1).tst.getLsbD 2,
    (inHandler.thread 70 1).popped.isEmpty,
    (inHandler.thread 70 1).held.isEmpty,
    (inHandler.gangOfTile 70).isSome && !State.isCore 70].all id = true := by decide +kernel

theorem witness_IllegalOnThread : [
    computeOnly (.vand ch .i8 1 2 3),
    { core with cur := (65536, 0) }.cur.2 == 0,
    controlOnly (.evpop ch 8),
    core.cur.2 != 0].all id = true := by decide +kernel

theorem witness_PrivilegedInUserMode : [
    privilegedUse (.eret ch),
    !pair.me.tst.getLsbD 0,
    !State.isCore pair.cur.1].all id = true := by decide +kernel

/-- The guard q1 of a thread whose q1 is zero. -/
theorem witness_GuardFails : [
    (Instr.enc (.add ⟨0x080, 2, 0⟩ 1 2 3)).isSome,
    !unguarded (.add ⟨0x080, 2, 0⟩ 1 2 3),
    !computeOnly (.add ⟨0x080, 2, 0⟩ 1 2 3) && !controlOnly (.add ⟨0x080, 2, 0⟩ 1 2 3) && !privilegedUse (.add ⟨0x080, 2, 0⟩ 1 2 3),
    (core.readQ 65536 1 1).getLsbD 0 == (⟨0x080, 2, 0⟩ : Chain).sense].all id = true := by decide +kernel

/-- The address fault, the misaligned one, the space without full/empty bits, and the last word of the pad beside the first byte behind it. -/
theorem witness_AddressTraps : [
    (loadOf (.ldd ch 9 6 0)).isSome,
    core.admits {} ch,
    core.atHand [.g 6] [.g 9],
    plainly core ch,
    core.checkAddress 65536 1 (core.src 6).1 8 Use.load == some (0x03, (core.src 6).1),
    core.checkAddress 65536 1 0x1004 8 Use.load == some (0x04, 0x1004),
    (storeOf (.std ch 7 6 0)).isSome,
    core.atHand [.g 6, .g 7] [],
    core.checkAddress 65536 1 (core.src 6).1 8 Use.store == some (0x03, (core.src 6).1),
    core.admits settled ch,
    (feLoadOf (.ldf ch 9 10 0)).isSome,
    rim.addressOk 65536 1 0x4000000000000000 4 { read := true, fe := true, plain := false },
    rim.checkAddress 65536 1 0x4000000000000000 4 { read := true, fe := true, plain := false } == some (0x0B, 0x4000000000000000),
    core.addressOk 65536 1 0x5FFC 4 Use.load,
    !core.addressOk 65536 1 0x6000 4 Use.load].all id = true := by decide +kernel

theorem witness_RegisterNumbers : [
    { core with cur := (65536, 0) }.cur.2 == 0,
    (⟨0x080, 2, 0⟩ : Chain).pred != 0,
    core.admits settled ch,
    core.atHand [.g 7, .g 10] [.g 10],
    (core.src 7).1.toNat % 4 == 3,
    State.tagOf (core.src 10).1 == 4,
    !(core.src 10).1.getLsbD 0,
    !(core.thread 65536 3).live,
    goes (.spawn ch 10 7) core].all id = true := by decide +kernel

theorem witness_SpawnStarts : [
    core.admits settled ch,
    core.atHand [.g 7, .g 10] [.g 10],
    (core.src 7).1.toNat % 4 == 3,
    State.tagOf (core.src 10).1 == 4,
    !(core.thread 65536 3).live,
    !isHandle 10,
    goes (.spawn ch 10 7) core].all id = true := by decide +kernel

theorem witness_MemoryCanonicalKept : [
    Memory.wf State.reset.mem,
    Memory.wf (State.reset.withFetchWord 16 0x1298).mem,
    steps (State.reset.withFetchWord 16 0x1298)].all id = true := by decide +kernel

theorem witness_DecodeOfEncode : [
    Instr.encodable (.add ⟨0, 1, 0x1298⟩ 1 2 3),
    Instr.encodable (.bne ⟨0x1C0, 4, 0x986C⟩ 4 9 (-20))].all id = true := by decide +kernel

theorem witness_StepRunsDecoded : [
    (match fetching (State.reset.withFetchWord 16 0x1298) with
      | some r => (fetched r r.cur.1 r.cur.2 (r.thread r.cur.1 r.cur.2).pc 1).any fun p => p.1 == [0x1298]
      | none => false),
    (decode [0x1298]).toOption == some (.add ⟨0, 1, 0x1298⟩ 1 2 3, []),
    { pair with agenda := [.event .copyBudgetWindow] }.nextMove.1 == .event .copyBudgetWindow,
    State.isEvent .copyBudgetWindow].all id = true := by decide +kernel

/-- The slots of thread 1 and of thread 2 in a tile where threads 1 and 3 are live and ready, fretted and fretless (R93, R94). -/
def slots (cyc : Word) (fretless : Bool) : State :=
  let s := (if fretless then (pair.setMcrN 0x50 1 2).setMcrN (State.vdOff 0 0) 1 3 else pair).modThread 70 3 fun t => { t with live := true }
  { s with sites := [(70, { state := .running, cyc := cyc }), (71, { state := .running })] }

theorem witness_SlotOrder : [
    !(slots 5 false).fretless 70 && (slots 5 true).fretless 70,
    (slots 5 false).slotThread 70 0xF#4 == some 1,
    (slots 6 false).slotThread 70 0xF#4 == none,
    (slots 6 true).slotThread 70 0xF#4 == some 3,
    (slots 6 true).slotThread 70 0x7#4 == some 1,
    ((parked .sleep).thread 70 1).park == some .sleep].all id = true := by decide +kernel

theorem witness_StepIllegal : [
    (match fetching (State.reset.withFetchWord 16 0x031F) with
      | some r => (fetched r r.cur.1 r.cur.2 (r.thread r.cur.1 r.cur.2).pc 1).any fun p => p.1 == [0x031F]
      | none => false),
    (match decode [] with
      | .error .truncated => true
      | .error _ | .ok _ => false),
    (match decode [0x031F] with
      | .error e => e != .truncated
      | .ok _ => false)].all id = true := by decide +kernel

theorem witness_UserModeKeepsHandlers : [
    (Instr.enc (.nop ch)).isSome,
    !pair.me.tst.getLsbD 0,
    goes (.nop ch) pair,
    (pair.thread 70 1).live].all id = true := by decide +kernel

theorem witness_ScalarFrame : [
    (scalarForm (.add ch 9 5 6)).isSome,
    core.admits {} ch,
    core.atHand [.g 5, .g 6] [.g 9],
    goes (.add ch 9 5 6) core,
    (scalarForm (.loop ch 7 4)).isSome,
    core.atHand [.g 7] [],
    decide ((core.after ch).toNat < (target core 4).toNat),
    !core.me.loop1.valid,
    goes (.loop ch 7 4) core,
    !(core.src 5).1.getLsbD 0,
    goes (.jr ch 5) core].all id = true := by decide +kernel

theorem witness_VectorFrame : [
    (vectorForm (.vadd ch .i8 1 2 3)).isSome,
    core.admits byLane ch,
    core.atHand [.v 2, .v 3] [.v 1],
    goes (.vadd ch .i8 1 2 3) core].all id = true := by decide +kernel

/-- The other hypotheses are those of `witness_LoadResult`, `witness_StoreResult`, `witness_VectorMoveResult`, `witness_FullEmptyResult` and
`witness_RelaxedAccessIssues`. -/
theorem witness_AccessFrame : [
    goes (.ldd ch 9 5 1) core,
    goes (.ldfe ch 9 5 0) core,
    goes (.std ch 6 5 0) core,
    goes (.ste ch 6 5 2) core,
    goes (.vld ch 3 5 0) core,
    goes (.vst ch 2 5 0) core,
    goes (.ldw chRelaxed 9 5 0) core,
    goes (.stw chRelaxed 6 5 0) core].all id = true := by decide +kernel

/-- The other hypotheses are those of `witness_AtomicResult`, `witness_ReservationGranted`, `witness_HandOffResult` and `witness_FenceWaitTakeOinit`. -/
theorem witness_SyncFrame : [
    goes (.aadd ch 9 10) rim,
    goes (.afaddo ch 12 10) rim,
    goes (.lrw ch 9 5) rim,
    goes (.lro ch 13 10) rim,
    goes (.sch ch 12 10) (holding 1 false),
    (holding 1 false).resv.isEmpty && (holding 1 false).rejected.isEmpty && !(holding 1 false).shadows 65536 (rimKey 0x20000),
    goes (.sco ch 12 10) (holding 2 true),
    goes (.waitf ch 5) core,
    goes (.clrf ch 5) core,
    goes (.oinit ch 13 10) rim,
    goes (.take ch 9 33) core,
    goes (.waitc ch 3 0) core,
    goes (.fence ch) core].all id = true := by decide +kernel

theorem witness_MessageFrame : [
    (messageForm (.put ch 7 12 1)).isSome,
    (messageEffect (.put ch 7 12 1) pair).isSome,
    goes (.put ch 7 12 1) pair,
    (messageForm (.bar ch 1)).isSome,
    goes (.bar ch 1) core,
    (barrierEffect (.bars ch 1) core).isSome,
    goes (.bars ch 1) core,
    goes (.barcfg ch 1 6) core,
    goes (.barq ch 9 1) core,
    goes (.send ch 7 15) pair,
    goes (.arm ch 1 17 5) pair].all id = true := by decide +kernel

theorem witness_EngineFrame : [
    (engineForm (.cpy ch 9 5)).isSome,
    (engineEffect (.cpy ch 9 5) core).isSome,
    goes (.cpy ch 9 5) core,
    (matrixEffect (.mzero ch 1) core).isSome,
    goes (.mzero ch 1) core,
    (engineForm (.evpop ch 12)).isSome,
    goes (.scfg ch 1 11) rim,
    goes (.mld ch 1 5) core].all id = true := by decide +kernel

theorem witness_GangFrame : [
    (gangForm (.gqry ch 9 6)).isSome,
    (gangEffect (.gqry ch 9 6) core).isSome,
    goes (.gqry ch 9 6) core,
    (gangEffect (.seed ch 9) rim).isSome,
    goes (.seed ch 9) rim,
    (gangEffect (.spawn ch 10 7) core).isSome,
    (core.src 7).1.toNat % 4 != core.cur.2,
    goes (.spawn ch 10 7) core,
    (systemEffect (.halt ch) core).isSome,
    core.me.sync.heldKey.isNone,
    goes (.halt ch) core].all id = true := by decide +kernel

theorem witness_ControlFrame : [
    (systemEffect (.trap ch 5) core).isSome,
    goes (.trap ch 5) core,
    (systemEffect (.eret ch) core).isSome,
    decide (core.me.tcause.toNat % 256 ≠ 9),
    goes (.eret ch) core,
    (systemEffect (.mts ch 6 .tvec) core).isSome,
    threadRegs.contains .tvec,
    goes (.mts ch 6 .tvec) core,
    admin.holders.isEmpty && admin.resv.isEmpty && admin.rejected.isEmpty && admin.fe.isEmpty && admin.watches.isEmpty && admin.away.isEmpty && admin.hostPending.isEmpty && admin.podPending.isEmpty,
    admin.tiles.all fun x => (List.range 4).all fun u => (match (admin.thread x.1 u).park with
      | some (.tstop _ _) => false
      | _ => true),
    goes (.tstop ch 17) admin,
    goes (.tsave ch 17 10) admin,
    goes (.tload ch 17 10) admin,
    goes (.tgo ch 17) admin,
    goes (.tquar ch 17) admin,
    admin.siteState 70 != .stopped,
    goes (.tmap ch 9 5) core,
    goes (.zero ch 14 0) rim,
    goes (.tlbinv ch 7 5) core].all id = true := by decide +kernel

theorem witness_SystemRegisters : [
    threadRegs.contains .tvec,
    core.admits (mtsAt .tvec) ch,
    core.atHand [.g 6] [],
    !(core.src 7).1.getLsbD 3,
    (fixedReg core .pc).isSome && (fixedReg core .cyc).isSome && (fixedReg core .psite).isSome,
    core.admits (mfsAt .cyc) ch,
    core.atHand [] [.g 9],
    core.admits (mtsAt .clkdiv) ch && core.admits (mtsAt .eccnt) ch,
    core.atHand [.g 7] [],
    (core.src 7).1.toNat % 8 < 4 && !core.clockHeld 65536 3 && (core.site 65536).later.isEmpty,
    4 ≤ (core.src 8).1.toNat % 8 && core.atHand [.g 8] [],
    core.time == 0].all id = true := by decide +kernel

theorem witness_OperandTraps : [
    core.atHand [.g 7] [] && (core.src 7).1.getLsbD 0,
    core.atHand [.g 7] [.g 1],
    (core.modMe fun t => t.setG 1 5).atHand [.g 1] [] && ((core.modMe fun t => t.setG 1 5).src 1).1.getLsbD 0,
    (target core (-4)).toNat ≤ (core.after ch).toNat,
    (core.modMe fun t => { t with loop1 := { t.loop1 with valid := true } }).me.loop1.valid && core.atHand [.g 5] [],
    (messageSources (.put ch 7 5 1)).isSome,
    pair.admits { held := true, drained := true, compute := false } ch && pair.admits { held := true, drained := true, compute := true } ch,
    pair.atHand [.g 5, .g 7] [] && (pair.tile 70).outb.length < 16,
    (messageFault (.put ch 7 5 1) pair (pair.src 5).1 (pair.src 7).1) == some (0x03, 0x1000),
    (messageFault (.putv ch 2 12 1) pair 0x1000000000010104 0) == some (0x04, 0x1000000000010104),
    (messageFault (.get ch 8 12 1) pair 0x1000000000010100 (pair.src 8).1) == some (0x03, 0xFFFFFFFFFFFFFFFF),
    (messageFault (.send ch 7 8) pair (pair.src 8).1 0).isSome,
    (messageFault (.post ch 7 10) pair (pair.src 10).1 (pair.src 7).1) == some (0x04, 3),
    (messageFault (.arm ch 1 17 6) pair (pair.src 6).1 (pair.src 17).1) == some (0x03, 0x1122334455667788),
    (scalarForm (.add ch 9 5 49)).isSome && (scalarForm (.add ch 9 5 41)).isSome,
    (vectorForm (.vadd ch .i8 1 2 49)).isSome,
    pair.admits {} ch && pair.admits byLane ch && pair.me.held.isEmpty && pair.me.popped.isEmpty && pair.me.spec.isNone,
    operandTrap pair (.g 49) == some (0x0C, 49) && operandTrap pair (.v 49) == some (0x0C, 49),
    operandTrap pair (.g 41) == some (0x03, 41) && operandTrap { pair with cur := (71, 1) } (.g 40) == some (0x03, 40),
    operandTrap pair (.g 5) == none && !handleRef (.g 5),
    core.admits engineAt ch && !(handleOf core 1).pcl && !(handleOf core 1).ccl && !cfgLegal (core.src 6).1,
    core.admits { held := true, drained := true } ch && !pushing core && !(handleOf core 1).valid && (handleOf core 0).valid,
    core.atHand [.g 6] [] && (core.src 6).1.toNat / 2 ^ 32 % 2 ^ 31 != 0,
    (copying .faulted).admits engineAt ch && (copying .faulted).atHand [.g 15] [] && ((copying .faulted).src 15).1.toNat == 1,
    (vget ((copying .faulted).tile 70).copies 0 none).any fun k => k.phase == .faulted && k.number.toNat == 1,
    (vget ((copying .running).tile 70).copies 0 none).any fun k => k.phase != .faulted].all id = true := by decide +kernel

theorem witness_SpeculativeAccess : [
    (storeOf (.std ch 6 5 0)).isSome && (storeOf (.std ch 6 10 0)).isSome && (loadOf (.ldd ch 9 5 0)).isSome,
    spec1.admits {} ch && spec1.me.spec.isSome && spec1.me.relaxed.isEmpty,
    spec1.atHand [.g 5, .g 6] [] && spec1.atHand [.g 5] [.g 9] && spec1.atHand [.g 10] [.g 9],
    orderFault spec1 0x1000 8 Use.store == none && orderFault spec1 0x1000 8 Use.load == none,
    orderFault spec1 0x4000000000000000 8 Use.store == none && orderFault spec1 0x4000000000000000 8 Use.load == none,
    specReach 0x1000 && !specReach 0x4000000000000000,
    (entryAt [] 0x1000).isNone,
    (specB (List.replicate 32 ⟨8, 0, 0, Vector.replicate 4 0⟩)).admits {} ch && (entryAt (List.replicate 32 ⟨8, 0, 0, Vector.replicate 4 0⟩) 0x1000).isNone,
    (List.range 8).all fun j => (bufByte [⟨0x1000, 7, 0xFF, Vector.replicate 4 0⟩] (0x1000 + BitVec.ofNat 64 j)).isSome,
    goesTo spec1 0x1000 Use.load (tileKey 70 0x1000),
    !watchesIt spec1 (tileKey 70 0x1000) && (bankWatches spec1 (tileKey 70 0x1000)).isEmpty,
    let s := { spec1 with watches := (List.range 64).map fun k => ⟨tileKey 70 0x1000, 71, 0, 1, k, 0, 0⟩ }; s.admits {} ch && goesTo s 0x1000 Use.load (tileKey 70 0x1000) && !watchesIt s (tileKey 70 0x1000) && (bankWatches s (tileKey 70 0x1000)).length == 64,
    watchesIt { spec1 with watches := [⟨tileKey 70 0x1000, 70, 1, 1, 0, 0, 0⟩] } (tileKey 70 0x1000),
    !spec1.poisonedAs 70 (tileKey 70 0x1000) 8 && { spec1 with poison := [tileKey 70 0x1000] }.poisonedAs 70 (tileKey 70 0x1000) 8].all id = true := by decide +kernel

theorem witness_LaterConditions : [
    (onLeaf 0x201DD).admits {} ch && plainly (onLeaf 0x201DD) ch && (onLeaf 0x201DD).atHand [.g 10] [.g 9],
    orderFault (onLeaf 0x201DD) 0x4000000000000000 8 Use.load == none && orderFault (onLeaf 0x201FF) 0x4000000000000000 8 Use.store == none,
    (leafAt (onLeaf 0x201DD) 0x4000000000000000).any fun e => lacks (onLeaf 0x201DD) e false,
    (leafAt (onLeaf 0x201DB) 0x4000000000000000).any fun e => lacks (onLeaf 0x201DB) e true,
    (leafAt (onLeaf 0x201FF) 0x4000000000000000).any fun e => !lacks (onLeaf 0x201FF) e true && e.leaf.getLsbD 5,
    (loadOf (.ldd ch 9 10 0)).isSome && (storeOf (.std ch 7 10 0)).isSome && (onLeaf 0x201FF).atHand [.g 10, .g 7] [],
    retiredGang retired 0x10000 && (retired.src 12).1 == 0x1000000100000100,
    orderFault retired 0x1000000100000100 8 Use.load == none && orderFault retired 0x1000000100000100 8 Use.store == none,
    plainly retired ch && retired.admits {} ch && retired.atHand [.g 12] [.g 9] && retired.atHand [.g 12, .g 7] [],
    goesTo { pair with poison := [tileKey 70 0x1000] } 0x1000 Use.load (tileKey 70 0x1000) && { pair with poison := [tileKey 70 0x1000] }.poisonedAs 70 (tileKey 70 0x1000) 8,
    ((walked 3).walking 52).length == 1 && !(firstEntry (walked 3) 0 0 0x4000400000000000).getLsbD 0,
    policyOf (walked 3) 0 0 true && policyOf (walked 1) 0 0 false,
    undisturbed (walked 3) 70 1 && ((walked 3).thread 70 1).park == some (.walk 52 0 0 0x4000400000000000 0x4000400000000000) && ((walked 3).thread 70 1).relaxed.isEmpty,
    (faulted.rimFaults.find? (fun x => x.station == 52 && x.tag == 9)).isSome && undisturbed faulted 70 1 && (faulted.thread 70 1).relaxed.isEmpty].all id = true := by decide +kernel

theorem witness_NumericContent : [
    decide (ratOf false 3 (-1) ≤ magOf .fp16 Fp.fp16.maxBits),
    ratOf true 3 1 == -6,
    magOf .e4m3 0x38 == 1,
    VTy.isFloat .f32,
    (redNode .f32 1 (fun _ => 0) (fun i => if i < 4 then some 0x3F800000 else none) 0 0).isSome,
    (special .fp32 .rcp 0).isSome && (special .fp32 .log2 0xBF800000).isSome,
    (match Fp.fp32.decode 0x41000000 with | .fin false num exp => 0 < num && ratOf false num exp == ratOf false 1 3 | _ => false),
    (match Fp.fp32.decode 0xC0000000 with | .fin neg num exp => 0 < num && ratOf neg num exp == -2 | _ => false),
    (Fp.e4m3.decode 0x7F).isNan && !(Fp.e4m3.decode 0x38).isNan,
    (vget ((pair.modTile 70 fun t => { t with mcfg := t.mcfg.set 1 0x2083 }).tile 70).mcfg 1 0).toNat % 8 == 3,
    (vget (pair.tile 70).mcfg 1 0x2080).toNat % 8 != 3].all id = true := by decide +kernel

/-- A fetch at no code address, a fill, each kind of access and its clauses. Which cause another module answers is a free value (log 1). -/
theorem witness_AccessContent : [
    (fetching ((State.reset.withFetchWord 16 0x1298).modThread 65536 1 fun t => { t with pc := 2 })).any fun r => !codeAddress r r.cur.1 r.cur.2 (r.thread r.cur.1 r.cur.2).pc,
    Memory.wf (filling 0x201DF none).mem && undisturbed (filling 0x201DF none) 70 1 && ((filling 0x201DF none).thread 70 1).relaxed.isEmpty,
    (cachedLeaf (filling 0x201DF none) (State.entryStation 70) 0 0 0x4000000000000100).any fun e => e.leaf.getLsbD 3 && leafPlace e 0x4000000000000100 + 64 ≤ rimBytes,
    (cachedLeaf (filling 0x201D7 none) (State.entryStation 70) 0 0 0x4000000000000100).any fun e => !e.leaf.getLsbD 3,
    (filling 0x201DF (some (.pageFault 0x4000000000000100))).fills.length == 1,
    (match (waiting false).resolve 70 1 0x100 Use.load with | .ok (.mem k) => !(waiting false).poisonedIn k 8 && k == tileKey 70 0x100 | _ => false),
    (match (waiting true).resolve 70 1 0x100 Use.store with | .ok (.mem k) => k == tileKey 70 0x100 | _ => false),
    { waiting false with poison := [tileKey 70 0x100] }.poisonedIn (tileKey 70 0x100) 8,
    undisturbed (waiting true) 70 1 && Memory.wf (waiting true).mem && !(waiting true).isFar 70 0x100 && ((waiting true).tile 70).mark == .original && ((waiting true).thread 70 1).park.isNone,
    undisturbed abroad 70 1 && !abroad.gangEnded 70 && (abroad.thread 70 1).drain.isEmpty && (0x500C000000000000 / 2 ^ 50 % 64) != abroad.moduleNo,
    abroad.mcrN 0x4018 2 / 2 ^ 15 % 2 == 0,
    { abroad.setMcrN 0x4018 2 0x8201 with portsDown := [1, 2] }.mcrN 0x4018 2 == 0x8201,
    ((moving .mld).tile 70).xfer.any fun j => j.done < j.total,
    (match (moving .mld).resolve 70 1 0x108 Use.load with | .ok (.mem k) => !(moving .mld).poisonedIn k 8 | _ => false),
    (match (moving .mst).resolve 70 1 0x108 Use.store with | .ok (.mem _) => true | _ => false),
    !((moving (.mldl .ln)).tile 70).ln.isEmpty && !((moving (.mldl .lp)).tile 70).lp.isEmpty,
    ((moving (.mpass .up)).linkPeer 70 .up).isSome && (moving (.mpass .up)).linkRoom 70 .up,
    undisturbed (copies []) 70 1 && Memory.wf (copies []).mem && (copies []).siteState 70 == .running,
    (vget ((copies []).tile 70).copies 0 none) == some (copyOf []) && (copyOf []).src.toNat + 16 ≤ 0x6000 && (copyOf []).dst.toNat + 16 ≤ 0x6000,
    ((List.range 8).map fun i => (⟨i, 7, false⟩ : CopyByte)).all fun x => x.at_ < 8,
    !(copies []).records.any fun r => r.queue == .health,
    (tableLeaf (tables 0xDF) 0 0 0x4000000000010000).any fun l => l.2.2.getLsbD 6,
    (tableLeaf (tables 0x9F) 0 0 0x4000000000010000).any fun l => !l.2.2.getLsbD 6,
    ((tables 0xDF).walking 52).length == 1 && Memory.wf (tables 0xDF).mem && (tables 0xDF).hostPending.isEmpty && (tables 0xDF).podPending.isEmpty].all id = true := by decide +kernel

/-- The hypotheses on room are those of `witness_LaunchFits` and `witness_LaunchRoom`. -/
theorem witness_LaunchContent : [
    Memory.wf (dispatched launchMsg leastDesc).mem && ((dispatched launchMsg leastDesc).msg? 0) == some launchMsg,
    ((dispatched launchMsg leastDesc).thread 65536 1).launching == [(9, 0)],
    (unitAt (dispatched launchMsg leastDesc) 52 0 0 true 0x4000000000000080 128 false) == some (rimKey 0x20080),
    !anyPoison (dispatched launchMsg leastDesc) (rimKey 0x20080) 128 && anyPoison { dispatched launchMsg leastDesc with poison := [rimKey 0x200F8] } (rimKey 0x20080) 128,
    (dispatched launchMsg leastDesc).readN (rimKey 0x20080) 128 == leastDesc,
    descAllowed leastDesc && !descAllowed (leastDesc + 18 * 2 ^ 320),
    dfield leastDesc 88 8 / 2 ^ 63 == 0 && dfield leastDesc 32 8 == 0 && dfield leastDesc 8 4 == 0 && dfield leastDesc 72 4 == 0,
    descAllowed (leastDesc + 8 * 2 ^ 256) && (8).testBit 3 && (dispatched launchMsg leastDesc).mcrN 0x20 8 == 0 && (dispatched launchMsg leastDesc).mcrN 0x4018 2 / 2 ^ 15 % 2 == 0,
    !spaceThere ((dispatched launchMsg leastDesc).setMcrN (State.vdOff 0 16) 4 0) 0 0,
    ((dispatched { launchMsg with checked := some ({}, []) } 0).queueGrids 0 0).length < 256,
    (dealt.grid? 5).any fun g => !g.cancelled && !g.imageFault && g.desc.imsz == 0 && g.desc.gsz ≤ 256 && g.ranges == [⟨256, 2, 8⟩]].all id = true := by decide +kernel

/-- Where a gang is placed depends on the defects that the signed blob records, which nothing can evaluate: `one_place` shows that one can be. -/
theorem witness_GangContent : [
    Memory.wf (calm .resident).mem && ((calm .resident).swap.any fun b => b.base ≤ 0x40000 && 0x40020 ≤ 0x60000 && 0x60028 ≤ b.base + b.bytes),
    (calm .resident).readN (rimKey 0x60018) 8 == (calm .resident).readN (rimKey 0x60010) 8 && entryN (calm .resident) grid 0 / 2 ^ 128 % 2 ^ 64 == 0x60000,
    (calm .resident).mcrN 0x10002 2 + ((calm .resident).mcrN 0x10004 2 + 1) ≤ 65536,
    ({ calm .resident with gangs := [] }.gang? 5 0).isNone && !{ calm .resident with gangs := [] }.selected grid 0,
    ({ calm .resident with audits := [audit] }.run? 5 0 .rerun).isNone,
    ((calm .stopping).gang? 5 0).any fun r => r.phase == .stopping && !r.cancelTrap,
    ((calm .stopping).tile 71).vtn == 1 && ((calm .stopping).tile 71).handle == 5,
    ((audited 0 none).audits.find? fun y => y.handle == 5 && y.gang == 0).any fun x => x.placed && x.second.isNone && x.first == Vector.replicate 4 0,
    ((audited 0 none).run? 5 0 .rerun).any fun r => r.phase == .retired && !r.ended && !r.stalled && r.sites.isEmpty,
    ((audited 7 (some 0)).run? 5 0 .third).isSome && ((audited 0 (some 7)).run? 5 0 .third).isSome && ((audited 7 (some 7)).run? 5 0 .third).isSome && ((audited 8 (some 7)).run? 5 0 .third).isSome,
    (heldGrid.grid? 5).any fun g => g.holds && heldGrid.auditsOver g,
    Memory.wf heldGrid.mem && heldGrid.mcrN 0x10008 8 % 8 == 0 && heldGrid.grids.all fun x => x.handle == 5,
    (tableLeaf heldGrid 0 0 0x4000000000010000).isSome].all id = true := by decide +kernel

theorem witness_PlatformContent : [
    Memory.wf hosted.mem && hosted.hostPending.isEmpty && hosted.podPending.isEmpty && hosted.watches.isEmpty && hosted.poison.all fun d => d % 8 == 0,
    !hosted.recovery && (hostPlace hosted 0 0x4000000000000040 64 true) == some (rimKey 0x20040),
    (cachedLeaf { hosted with tlb := hosted.tlb.map fun e => { e with leaf := 0x201D1 } } 52 0 0 0x4000000000000040).any fun e => !e.leaf.getLsbD 1 && !e.leaf.getLsbD 2,
    spaceThere hosted (hosted.mcrN 0x80 1) 0,
    hostMay 0x48 != 0 && hostMay 0x1108 != 0 && hostMay 0x4000 == 0 && standing_ 0x1108,
    anyPoison { hosted with poison := [rimKey 0x20078] } (rimKey 0x20040) 64,
    !acting 0x1000 && softMay 0x1000 != 0,
    !acting 0x1018 && softMay 0x1018 == 0,
    given 0x0000000F00100001 0x11,
    (List.range 256).all fun w => w == 0 || hosted.mcrN (0x10000 + 512 * w) 1 % 2 == 0,
    hosted.mcrN 0x50 16 % 2 == 0 && (hosted.setMcrN 0x50 1 1).mcrN 0x50 16 % 2 == 1,
    (pair.setMcrN 0x10000 1 0).mcrN 0x10000 1 == 0 && (List.range 256).all fun w => (pair.setMcrN 0x10000 1 0).mcrN (0x10000 + 512 * w) 1 % 2 == 0,
    vacant { rim with sites := [(9, { state := .quarantined })] } 9 && !vacant pair 70,
    8 * pair.windows ≤ pair.time.toNat && pair.votes.isEmpty,
    pair.tiles.all fun p => (List.range 4).all fun th => (match (pair.thread p.1 th).park with | some (.voltage _) => false | _ => true),
    (((hosted.setMcrN 0x220 8 1).setMcrN 0x228 8 0x4000000000001000).attestHold).isNone && (hostPlace ((hosted.setMcrN 0x220 8 1).setMcrN 0x228 8 0x4000000000001000) 0 0x4000000000001000 4096 true).isSome,
    !spaceThere (hosted.setMcrN 0x80 1 9) 9 0,
    Memory.wf (podded 0x201DF).mem && (podded 0x201DF).net.isEmpty && 3 != (podded 0x201DF).moduleNo && (podded 0x201DF).mcrN 0x4018 2 / 2 ^ 15 % 2 == 1,
    (podded 0x201DF).mcrN 0x10000 1 % 2 == 1 && spaceThere (podded 0x201DF) 0 0 && !spaceThere (podded 0x201DF) 0 7,
    (unitAt (podded 0x201DF) 0 0 0 false 0x4000000000000008 8 true) == some (rimKey 0x20008),
    (cachedLeaf (podded 0x201CF) 0 0 0 0x4000000000000008).any fun e => !e.leaf.getLsbD 4,
    (queued 1).mcrN 0x110C 4 == 1 && (queued 1).mcrN 0x1110 4 == 0 && (queued 1).mcrN 0x1108 4 == 4 && (queued 1).mcrN 0x1114 4 % 4 == 0 && (queued 1).mcrN 0x1118 1 % 2 == 0,
    recordAddr (queued 1) 0 == 0x4000000000000000 && hostPlace (queued 1) 0 0x4000000000000000 64 false == some (rimKey 0x20000),
    (queued 1).readN (rimKey 0x20000) 8 == 1 && (queued 1).readN (rimKey 0x20038) 8 == 1 && (queued 2).readN (rimKey 0x20000) 8 == 2,
    (Tab.get? (queued 1).hostQueues 0).isNone && Memory.wf (queued 1).mem,
    (hostPlace { queued 1 with hostQueues := [(0, .storing 0x4000000000000100 7 .outbound)] } 0 0x4000000000000100 8 true).isSome].all id = true := by decide +kernel

/-- The blob cannot record all of the first 8,193 sites as defective (R1). -/
theorem working_site : ∃ a, a < 8193 ∧ State.siteDefective a = false := by
  by_contra h
  have bad : ∀ a, a < 8193 → State.siteDefective a = true := fun a ha => by
    cases e : State.siteDefective a
    · exact absurd ⟨a, ha, e⟩ h
    · rfl
  have each : ∀ a, a < 8193 → Config.defective a = true := fun a ha => by
    have := bad a ha; simp only [State.siteDefective, Bool.and_eq_true] at this; exact this.1
  have last := bad 8192 (by omega)
  have all : (List.range 8192).filter Config.defective = List.range 8192 :=
    List.filter_eq_self.mpr fun a ha => each a (by have := List.mem_range.mp ha; omega)
  simp only [State.siteDefective, all, List.length_range, Bool.and_eq_true, decide_eq_true_eq] at last
  have room : 57344 ≤ State.binSites State.moduleBin := by unfold State.binSites; split <;> omega
  omega

/-- A place above every listed one reads zero. -/
theorem read_above {n : Nat} : ∀ {m : List Host.Cell}, (∀ c ∈ m, c.1 < n) → Mem.read m n = 0
  | [], _ => rfl
  | c :: t, h => by
    have := h c (List.mem_cons_self ..)
    rw [Mem.read, if_neg (by omega)]
    exact read_above fun d hd => h d (List.mem_cons_of_mem _ hd)

/-- A state whose VD 0 has the whole module, on which no site holds a tile: one that is not defective is placeable. -/
theorem one_place (s : State) (hs : s.sites = []) (hw : s.withheld = []) (hp : s.vdPbase 0 = 0) (hl : s.vdPlen 0 = 65536)
    (power : s.mem.all (fun c => decide (c.1 < mcrKey 0x60000)) = true) : (s.placeAny 0 [] 1).isSome = true := by
  obtain ⟨a, ha, good⟩ := working_site
  have site : s.site a = {} := by simp [State.site, hs, Tab.get?]
  have on : s.powerOff a = false := by
    have below : ∀ c ∈ s.mem, c.1 < mcrKey (0x60000 + a) := fun c hc => by
      have := of_decide_eq_true (List.all_eq_true.mp power c hc); unfold mcrKey at *; omega
    simp [State.powerOff, State.mcrN, State.readN, Mem.readN, read_above below]
  have ok : s.placeable a = true := by
    simp [State.placeable, State.siteState, site, good, hw, on]
  have take : s.takeSites a 1 1 = some [a] := by simp [State.takeSites, ok]
  refine List.findSome?_isSome_iff.mpr ⟨a / 256, by simp [State.placersOf]; omega, ?_⟩
  have part : s.nodePart 0 (a / 256) = (256 * (a / 256), 256 * (a / 256) + 256) := by
    have : a / 256 < 256 := by omega
    simp [State.nodePart, this, hp, hl]; omega
  have near : (s.placeAligned [] (256 * (a / 256)) (256 * (a / 256) + 256) 1).isSome = true := by
    refine List.findSome?_isSome_iff.mpr ⟨0, by simp, ?_⟩
    simp only [Nat.pow_zero, Nat.le_refl, if_true]
    refine List.findSome?_isSome_iff.mpr ⟨a % 256, by simp; omega, ?_⟩
    have at_ : State.alignUp (256 * (a / 256)) 1 + a % 256 * 1 = a := by simp [State.alignUp]; omega
    have inside : a + 1 ≤ 256 * (a / 256) + 256 := by omega
    simp only [at_, decide_eq_true inside, State.apartFrom, List.all_nil, Bool.and_self, if_true, take, Option.isSome_some]
  simp only [part, State.place]
  cases e : s.placeAligned [] (256 * (a / 256)) (256 * (a / 256) + 256) 1 with
  | some l => rfl
  | none => simp [e] at near

/-- Grid 5's gang stands in the swap region, and VD 0 has the whole module. -/
def swapped : State :=
  { rim.setMcrN (State.vdOff 0 4) 2 65535 with
    grids := [{ grid with desc := { grid.desc with gsz := 1 } }], gangs := [{ gang with sites := [], phase := .swappedOut, images := [0x50000] }] }

/-- The gang comes back, wherever the blob's defects leave a site. -/
theorem witness_GangSwapIn : (gangEvent (.gangSwapIn 5 0) swapped).isSome = true := by
  have place : (swapped.placeAny 0 [] 1).isSome = true :=
    one_place swapped (by rfl) (by rfl) (by decide +kernel) (by decide +kernel) (by decide +kernel)
  obtain ⟨l, hl⟩ := Option.isSome_iff_exists.mp place
  have run : swapped.runOf 5 0 = some { gang with sites := [], phase := .swappedOut, images := [0x50000] } := by rfl
  have own : swapped.grid? 5 = some { grid with desc := { grid.desc with gsz := 1 } } := by rfl
  have turn : swapped.swapInTurn { gang with sites := [], phase := .swappedOut, images := [0x50000] } = true := by decide +kernel
  have none_ : swapped.rerunShort 0 = false := by decide +kernel
  have avoid : swapped.runAvoid { gang with sites := [], phase := .swappedOut, images := [0x50000] } = [] := by rfl
  simp only [gangEvent, run, own, turn, avoid]
  simp [gang, grid] at hl ⊢
  simp [hl, State.leavesRerun, none_]

/-- The same with the whole module for VD 0, and 1 TiB of swap region. -/
def roomy (m : Msg) (d : Nat) : State :=
  ((dispatched m d).setMcrN (State.vdOff 0 4) 2 65535).setMcrN (State.vdOff 0 64) 8 (2 ^ 40)

/-- A gang of one tile fits the pool of the whole module, and one of 65,536 does not fit that of 256 sites. -/
theorem witness_LaunchFits :
    dfield leastDesc 12 4 ≤ poolSize (roomy launchMsg leastDesc) 0 ∧ (roomy launchMsg leastDesc).mcrN 0x10000 1 % 2 = 1 ∧
    ¬ 65536 ≤ poolSize (dispatched launchMsg leastDesc) 0 ∧ dfield (leastDesc + 65535 * 2 ^ 96) 12 4 = 65536 ∧
    descAllowed (leastDesc + 65535 * 2 ^ 96) = true := by
  refine ⟨?_, by decide +kernel, ?_, by decide +kernel, by decide +kernel⟩
  · obtain ⟨a, ha, good⟩ := working_site
    have lo : (roomy launchMsg leastDesc).mcrN (0x10000 + 512 * 0 + 2) 2 = 0 := by decide +kernel
    have len : (roomy launchMsg leastDesc).mcrN (0x10000 + 512 * 0 + 4) 2 = 65535 := by decide +kernel
    have st : (roomy launchMsg leastDesc).siteState a = .free := by
      have : (roomy launchMsg leastDesc).site a = {} := rfl
      simp [State.siteState, this, good]
    have one : dfield leastDesc 12 4 = 1 := by decide +kernel
    rw [one]
    refine List.length_pos_of_mem (a := a) (List.mem_filter.mpr ⟨List.mem_range.mpr (by rw [len]; omega), ?_⟩)
    simp only [lo, Nat.zero_add, st]; rfl
  · have len : (dispatched launchMsg leastDesc).mcrN (0x10000 + 512 * 0 + 4) 2 = 255 := by decide +kernel
    have := List.length_filter_le (fun i => let st := (dispatched launchMsg leastDesc).siteState ((dispatched launchMsg leastDesc).mcrN (0x10000 + 512 * 0 + 2) 2 + i)
      st != .defective && st != .quarantined) (List.range ((dispatched launchMsg leastDesc).mcrN (0x10000 + 512 * 0 + 4) 2 + 1))
    rw [List.length_range, len] at this
    unfold poolSize
    rw [len] at *
    omega

/-- A LAUNCH that has been checked finds room in the swap region, whatever capacities its rings are given. -/
theorem witness_LaunchRoom : let s := roomy { launchMsg with checked := some ({}, []) } 0
    (s.allocSwap 0 (s.tableBytes s.swapCount {})).isSome = true := by
  intro s
  have base : s.vdSwapBase 0 = 0 := by decide +kernel
  have size : s.vdSwapSize 0 = 2 ^ 40 := by decide +kernel
  have range : s.moduleRange s.swapCount {} = (0, 1) := by decide +kernel
  have small : s.tableBytes s.swapCount {} ≤ 2 ^ 39 := by
    simp only [State.tableBytes, range, State.capsOf]; omega
  have fits : s.swapFits 0 0 (s.tableBytes s.swapCount {}) = true := by
    have none_ : s.swap = [] := rfl
    have top : rimBytes = 1649267441664 := by decide +kernel
    simp only [State.swapFits, base, size, none_, top, List.all_nil, Bool.and_true, Bool.and_eq_true, decide_eq_true_eq]; omega
  unfold State.allocSwap
  simp only []
  split
  · rfl
  · next h =>
    have := List.find?_eq_none.mp h 0 (List.mem_map.mpr ⟨s.vdSwapBase 0, by simp, by rw [base]; decide⟩)
    exact absurd fits (by simpa using this)

end Sys2Proof.Tests
end

section
/-! Nothing is refused, and the one fault is at the hole. A meaning stops the machine only where a step of it does, so that the property is
carried through the monad, and met at one place: the translation of a rim address. -/

namespace Sys2Proof.Machine

/-- The one reason to stop: an access beyond the rim memory (R10; log 23). -/
def Fault.AtHole (f : Fault) : Prop := ∃ pa, f = .physicalHole pa ∧ rimBytes ≤ pa

/-- A stop that, where it stops the machine, does so at the hole. -/
def Stop.HoleOnly : Stop → Prop
  | .fault f => f.AtHole
  | .park _ | .parkIn _ _ | .trap _ _ | .done _ => True

/-- A pure access that stops the machine at the hole only. -/
def Res.HoleOnly {α : Type} : Res α → Prop
  | .ok _ => True
  | .error e => e.HoleOnly

/-- A meaning in the making that stops the machine at the hole only. -/
structure Op.HoleOnly {α : Type} (m : Op α) : Prop where
  stops : ∀ s, Res.HoleOnly (m s)

/-- A unit's step that stops the machine at the hole only. -/
def UnitHoleOnly : Except Fault State → Prop
  | .ok _ => True
  | .error f => f.AtHole

theorem UnitHoleOnly.of_error {r : Except Fault State} {f : Fault} (h : UnitHoleOnly r) (e : r = .error f) : f.AtHole := by
  subst e; exact h

/-- An outcome that is no refusal, and a fault at the hole only. -/
def Proper : Host.Outcome State Fault Refusal → Prop
  | .next _ => True
  | .fault f => f.AtHole
  | .refused _ => False

theorem Proper.not_refused {o : Host.Outcome State Fault Refusal} (h : Proper o) (r : Refusal) : o ≠ .refused r := by
  rintro rfl; exact h
theorem Proper.atHole {o : Host.Outcome State Fault Refusal} (h : Proper o) (f : Fault) (e : o = .fault f) : f.AtHole := by
  subst e; exact h

/-! ### The monad -/

namespace Op.HoleOnly
variable {α β : Type}

theorem pure (a : α) : HoleOnly (Pure.pure a : Op α) := ⟨fun _ => trivial⟩
theorem get : HoleOnly (MonadState.get : Op State) := ⟨fun _ => trivial⟩
theorem set (s : State) : HoleOnly (MonadStateOf.set s : Op PUnit) := ⟨fun _ => trivial⟩
theorem modifies (f : State → State) : HoleOnly (modify f : Op PUnit) := ⟨fun _ => trivial⟩
theorem throw {e : Stop} (h : e.HoleOnly) : HoleOnly (MonadExcept.throw e : Op α) := ⟨fun _ => h⟩

theorem bind {m : Op α} {f : α → Op β} (hm : HoleOnly m) (hf : ∀ a, HoleOnly (f a)) : HoleOnly (m >>= f) := ⟨fun s => by
  have h := hm.stops s
  show Res.HoleOnly (m s >>= fun p => f p.1 p.2)
  cases e : m s with
  | ok p => exact (hf p.1).stops p.2
  | error e' => rw [e] at h; exact h⟩

theorem ite {p : Prop} [Decidable p] {m n : Op α} (hm : HoleOnly m) (hn : HoleOnly n) : HoleOnly (if p then m else n) := by
  split
  · exact hm
  · exact hn

/-- A result of a pure access that is taken up. -/
theorem lift {r : Res α} (h : Res.HoleOnly r) : HoleOnly (Op.lift r) := ⟨fun s => by
  unfold Op.lift
  split
  · trivial
  · trivial
  · exact h⟩

theorem claiming {m : Op Unit} (x : RegNum) (h : HoleOnly m) : HoleOnly (Op.claiming x m) := ⟨fun s => by
  unfold Op.claiming
  split
  · trivial
  · trivial
  · trivial
  · exact h.stops s⟩

theorem park (p : Park) : HoleOnly (Op.park p : Op α) := throw trivial
theorem trap (c : BitVec 8) (v : Word) : HoleOnly (Op.trap c v : Op α) := throw trivial
theorem require (b : Bool) (c : BitVec 8) (v : Word) : HoleOnly (Op.require b c v) := ite (pure ()) (trap c v)
theorem await (b : Bool) (p : Park) : HoleOnly (Op.await b p) := ite (pure ()) (park p)

/-! ### Operands, and the ends of an instruction -/

theorem need (reads dests : List OpRef) : HoleOnly (Op.need reads dests) :=
  have judged (r : State) : HoleOnly (match r.readiness r.cur.1 r.cur.2 (Op.toTake r.me reads) dests with
      | .ready => Pure.pure ()
      | .wait => Op.park (.operands reads dests)
      | .bad cause v => Op.trap cause v) := by
    split
    · exact pure ()
    · exact park _
    · exact trap _ _
  bind get fun s => ite (bind (park _) fun _ => judged s) (judged s)

theorem take (n : RegNum) (pop : State → VReg × State) : HoleOnly (Op.take n pop) :=
  bind get fun s => by
    dsimp only
    split
    · exact bind (set _) fun _ => pure _
    · exact bind (set _) fun _ => pure _

theorem readG (n : RegNum) : HoleOnly (Op.readG n) := ite (bind (take _ _) fun _ => pure _) (bind get fun _ => pure _)
theorem readV (n : RegNum) : HoleOnly (Op.readV n) := ite (take _ _) (bind get fun _ => pure _)
theorem readQ (n : BitVec 3) : HoleOnly (Op.readQ n) := bind get fun _ => pure _
theorem writeG (n : RegNum) (v : Word) (lat : Nat) : HoleOnly (Op.writeG n v lat) := modifies _
theorem writeV (n : RegNum) (v : VReg) (lat : Nat) : HoleOnly (Op.writeV n v lat) := modifies _
theorem writeQ (n : BitVec 3) (v : BitVec 16) : HoleOnly (Op.writeQ n v) := modifies _
theorem retire (c : Chain) : HoleOnly (Op.retire c) := modifies _
theorem retireTo (next : Word) (taken : Bool) : HoleOnly (Op.retireTo next taken) := modifies _

/-- A check, then the rest. -/
theorem requiring {b : Bool} {c : BitVec 8} {v : Word} {f : Unit → Op α} (h : HoleOnly (f ())) : HoleOnly (Op.require b c v >>= f) :=
  bind (require b c v) fun _ => h
/-- A wait, then the rest. -/
theorem awaiting {b : Bool} {p : Park} {f : Unit → Op α} (h : HoleOnly (f ())) : HoleOnly (Op.await b p >>= f) :=
  bind (await b p) fun _ => h
/-- The check of the operands, then the rest. -/
theorem needing {reads dests : List OpRef} {f : Unit → Op α} (h : HoleOnly (f ())) : HoleOnly (Op.need reads dests >>= f) :=
  bind (need reads dests) fun _ => h
theorem getting {f : State → Op α} (h : ∀ s, HoleOnly (f s)) : HoleOnly (MonadState.get >>= f) := bind get h
theorem modifying {g : State → State} {f : PUnit → Op α} (h : HoleOnly (f ⟨⟩)) : HoleOnly (modify g >>= f) :=
  bind (modifies g) fun _ => h
theorem setting {s : State} {f : PUnit → Op α} (h : HoleOnly (f ⟨⟩)) : HoleOnly (MonadStateOf.set s >>= f) :=
  bind (set s) fun _ => h
theorem readingG {n : RegNum} {f : Word → Op α} (h : ∀ v, HoleOnly (f v)) : HoleOnly (Op.readG n >>= f) := bind (readG n) h
theorem readingV {n : RegNum} {f : VReg → Op α} (h : ∀ v, HoleOnly (f v)) : HoleOnly (Op.readV n >>= f) := bind (readV n) h
/-- A result, then the end. -/
theorem writeG_retire (c : Chain) (n : RegNum) (v : Word) (lat : Nat) : HoleOnly (do Op.writeG n v lat; Op.retire c) :=
  bind (writeG n v lat) fun _ => retire c
theorem modify_retire (c : Chain) (f : State → State) : HoleOnly (do modify f; Op.retire c : Op Unit) :=
  bind (modifies f) fun _ => retire c
theorem set_retire (c : Chain) (s : State) : HoleOnly (do MonadStateOf.set s; Op.retire c : Op Unit) :=
  bind (set s) fun _ => retire c

theorem run {s : State} {c : Chain} {m : Op Unit} (h : HoleOnly m) : Proper (Op.run s c m) := by
  have h := h.stops s
  unfold Op.run
  cases e : m s with
  | ok p => trivial
  | error e' =>
    rw [e] at h
    cases e' <;> exact h

end Op.HoleOnly

theorem Proper.issue {r : Op.Rules} {c : Chain} {s : State} {m : Op Unit} (h : m.HoleOnly) : Proper (issue r c s m) := by
  unfold Machine.issue
  split
  · trivial
  split
  · trivial
  split
  · exact (Op.HoleOnly.retire c).run
  split
  · trivial
  split
  · trivial
  · exact h.run

/-! ### Accesses: the hole is met where a leaf is translated, and nowhere else -/

namespace Res.HoleOnly
variable {α β : Type}

theorem error {e : Stop} (h : e.HoleOnly) : HoleOnly (.error e : Res α) := h
theorem of_error {r : Res α} {e : Stop} (h : HoleOnly r) (he : r = .error e) : e.HoleOnly := by subst he; exact h
theorem map {r : Res α} (f : α → β) (h : HoleOnly r) : HoleOnly (r.map f) := by
  cases r with
  | ok a => trivial
  | error e => exact h

theorem underName {e : Stop} (name : Word) (h : e.HoleOnly) : (State.underName name e).HoleOnly := by
  unfold State.underName
  split
  · trivial
  · trivial
  · trivial
  · trivial
  · trivial
  · exact h

theorem mapError {r : Res α} (name : Word) (h : HoleOnly r) : HoleOnly (r.mapError (State.underName name)) := by
  cases r with
  | ok a => trivial
  | error e => exact underName name h

theorem translateAt (s : State) (q : State.Asker) (addr : Word) (u : Use) : HoleOnly (s.translateAt q addr u) := by
  unfold State.translateAt
  dsimp only
  split
  · split <;> trivial
  · next e _ =>
    split
    · trivial
    split
    · trivial
    split
    · next hole => exact ⟨_, rfl, hole⟩
    · trivial

theorem resolve (s : State) (a th : Nat) (addr : Word) (u : Use) : HoleOnly (s.resolve a th addr u) := by
  unfold State.resolve
  dsimp only
  split
  · split <;> trivial
  · split
    · split <;> trivial
    · split <;> trivial
    · trivial
  · split <;> trivial
  · exact (translateAt ..).map _
  · split
    · split
      · split
        · trivial
        · split
          · next e h => exact underName addr ((translateAt ..).of_error h)
          · trivial
      · trivial
    · trivial
  · trivial
  · trivial

theorem performLoad (s : State) (a th : Nat) (addr : Word) (n : Nat) : HoleOnly (s.performLoad a th addr n) := by
  unfold State.performLoad
  split
  · next e h => exact (resolve ..).of_error h
  · split <;> trivial
  all_goals trivial

theorem performStore (s : State) (a th : Nat) (cx : Bool) (addr : Word) (n v : Nat) : HoleOnly (s.performStore a th cx addr n v) := by
  unfold State.performStore
  split
  · next e h => exact (resolve ..).of_error h
  case h_8 => split <;> trivial
  all_goals trivial

theorem specLoad (s : State) (a th : Nat) (sp : Spec) (addr : Word) (n : Nat) : HoleOnly (s.specLoad a th sp addr n) := by
  unfold State.specLoad
  dsimp only
  split
  · trivial
  split
  · next e h => exact (resolve ..).of_error h
  · split
    · trivial
    split <;> trivial
  all_goals trivial

theorem specStore (s : State) (a th : Nat) (sp : Spec) (addr : Word) (n v : Nat) : HoleOnly (s.specStore a th sp addr n v) := by
  unfold State.specStore
  dsimp only
  split <;> trivial

theorem segments (s : State) (q : State.Asker) (addr : Word) (n : Nat) (u : Use) : HoleOnly (s.segments q addr n u) := by
  unfold State.segments
  split
  · trivial
  split
  · trivial
  · dsimp only
    induction State.pagesOf addr n with
    | nil => trivial
    | cons p l ih =>
      rw [List.foldr_cons]
      split
      · trivial
      · next e h => exact (translateAt ..).of_error h
      · next e h _ => exact of_error ih h

end Res.HoleOnly
/-! ### Shapes of the scalar, control and memory instructions -/

namespace Op.HoleOnly

theorem alu3 (c : Chain) (x y z : RegNum) (lat : Nat) (f : Word → Word → Word) : HoleOnly (alu3 c x y z lat f) :=
  needing <| readingG fun _ => readingG fun _ => writeG_retire ..
theorem alu2 (c : Chain) (x y : RegNum) (f : Word → Word) : HoleOnly (alu2 c x y f) :=
  needing <| readingG fun _ => writeG_retire ..
theorem loadConst (c : Chain) (x : RegNum) (v : State → Word) : HoleOnly (loadConst c x v) :=
  needing <| getting fun _ => writeG_retire ..

theorem branchIf (c : Chain) (imm : Word) (b : Bool) : HoleOnly (branchIf c imm b) :=
  getting fun _ => ite (retireTo _ _) (retire c)
theorem branch1 (c : Chain) (x : RegNum) (imm : Word) (p : Word → Bool) : HoleOnly (branch1 c x imm p) :=
  needing <| readingG fun _ => branchIf ..
theorem branchQ (c : Chain) (q : BitVec 3) (imm : Word) (p : BitVec 16 → Bool) : HoleOnly (branchQ c q imm p) :=
  bind (readQ q) fun _ => branchIf ..
theorem branch2 (c : Chain) (x y : RegNum) (imm : Word) (p : Word → Word → Bool) : HoleOnly (branch2 c x y imm p) :=
  needing <| readingG fun _ => readingG fun _ => branchIf ..
theorem link (c : Chain) : HoleOnly (link c) := getting fun _ => bind (writeG ..) fun _ => modifies _

theorem checkAddress (addr : Word) (size : Nat) (u : Use) : HoleOnly (Op.checkAddress addr size u) :=
  getting fun _ => by
    split
    · exact trap _ _
    · exact pure ()

theorem loadBytes (name addr : Word) (n : Nat) : HoleOnly (Op.loadBytes name addr n) :=
  getting fun s => by
    split
    · exact bind (lift ((Res.HoleOnly.performLoad ..).mapError name)) fun _ => setting (pure _)
    · refine awaiting ?_
      split
      · exact throw trivial
      · next e _ h => exact throw ((Res.HoleOnly.specLoad ..).of_error h)
      · exact setting (pure _)

theorem storeBytes (addr : Word) (n v : Nat) : HoleOnly (Op.storeBytes addr n v) :=
  getting fun s => by
    split
    · exact bind (lift (Res.HoleOnly.performStore ..)) fun _ => set _
    · refine awaiting ?_
      split
      · next e h => exact throw ((Res.HoleOnly.specStore ..).of_error h)
      · exact set _

theorem halfDone (r : Relaxed) (lo : Nat) (hold : Option Park) : HoleOnly (Op.halfDone r lo hold) :=
  getting fun _ => throw trivial

theorem loadInto (r : Relaxed) (write : Nat → Nat → Op Unit) (h : ∀ v lat, HoleOnly (write v lat)) : HoleOnly (Op.loadInto r write) :=
  bind (loadBytes ..) fun _ => h _ _

theorem loadWide (r : Relaxed) (write : Nat → Nat → Op Unit) (h : ∀ v lat, HoleOnly (write v lat)) : HoleOnly (Op.loadWide r write) :=
  bind (loadBytes ..) fun _ => getting fun _ => ite (halfDone ..) (bind (loadBytes ..) fun _ => h _ _)

theorem storeWide (r : Relaxed) : HoleOnly (Op.storeWide r) :=
  bind (storeBytes ..) fun _ => getting fun s => ite (halfDone ..) (by
    split
    · exact storeBytes ..
    · split
      · exact set _
      · exact halfDone ..
      · exact setting (halfDone ..)
      · next e _ _ h => exact throw (Res.HoleOnly.underName _ ((Res.HoleOnly.performStore ..).of_error h)))

theorem relax (r : Relaxed) : HoleOnly (Op.relax r) := getting fun _ => awaiting (modifies _)
theorem address (y : RegNum) (off : Word) (size : Nat) : HoleOnly (Op.address y off size) := readingG fun _ => pure _
theorem memOrder (c : Chain) : HoleOnly (Op.memOrder c) := getting fun _ => await _ _
theorem sendPod (r : Relaxed) : HoleOnly (Op.sendPod r) := getting fun _ => awaiting (throw trivial)
theorem plain (r : Relaxed) {now : Op Unit} (h : HoleOnly now) : HoleOnly (Op.plain r now) := getting fun _ => ite (sendPod r) h

theorem parkFor (c : Chain) (p : Park) (f : State → State) : HoleOnly (parkFor c p f) := getting fun _ => throw trivial
theorem parkClaim (c : Chain) (p : Park) (x : RegNum) (f : State → State) : HoleOnly (parkClaim c p x f) := parkFor ..

theorem homeOf (addr : Word) (u : Use) : HoleOnly (homeOf addr u) :=
  getting fun _ => bind (lift (Res.HoleOnly.resolve ..)) fun t => match t with
    | .mem _ => modifying (pure _)
    | .void | .pod => pure _
    | .gone | .window _ | .mcr _ => trap _ _
    | .absent _ _ _ => getting fun _ => throw trivial

theorem loadG (c : Chain) (x y : RegNum) (off : Word) (n : Nat) (signed : Bool) : HoleOnly (loadG c x y off n signed) :=
  claiming x <| needing <| bind (memOrder c) fun _ => bind (address ..) fun _ => getting fun _ => bind (checkAddress ..) fun _ =>
    ite (bind (relax _) fun _ => retire c) (bind (plain _ (loadInto _ _ fun _ _ => writeG ..)) fun _ => retire c)

theorem storeG (c : Chain) (x y : RegNum) (off : Word) (n : Nat) : HoleOnly (storeG c x y off n) :=
  needing <| bind (memOrder c) fun _ => bind (address ..) fun _ => readingG fun _ => getting fun _ => bind (checkAddress ..) fun _ =>
    ite (bind (relax _) fun _ => retire c) (bind (plain _ (storeBytes ..)) fun _ => retire c)

theorem loadV (c : Chain) (x y : RegNum) (off : Word) : HoleOnly (loadV c x y off) :=
  claiming x <| needing <| bind (memOrder c) fun _ => bind (address ..) fun _ => getting fun _ => bind (checkAddress ..) fun _ =>
    ite (bind (relax _) fun _ => retire c) (bind (plain _ (loadWide _ _ fun _ _ => writeV ..)) fun _ => retire c)

theorem storeV (c : Chain) (x y : RegNum) (off : Word) : HoleOnly (storeV c x y off) :=
  needing <| bind (memOrder c) fun _ => bind (address ..) fun _ => readingV fun _ => getting fun _ => bind (checkAddress ..) fun _ =>
    ite (bind (relax _) fun _ => retire c) (bind (plain _ (storeWide _)) fun _ => retire c)

theorem feLoad (c : Chain) (x y : RegNum) (off : Word) (n : Nat) (clear : Bool) : HoleOnly (feLoad c x y off n clear) :=
  claiming x <| needing <| bind (address ..) fun _ => bind (checkAddress ..) fun _ => getting fun _ => bind (homeOf ..) fun h => match h with
    | .void => writeG_retire ..
    | .pod => sendPod _
    | .at _ => parkClaim ..

theorem feStoreWait (c : Chain) (x y : RegNum) (off : Word) (n : Nat) : HoleOnly (feStoreWait c x y off n) :=
  needing <| bind (address ..) fun _ => readingG fun _ => bind (checkAddress ..) fun _ => getting fun _ => bind (homeOf ..) fun h => match h with
    | .void => modify_retire ..
    | .pod => sendPod _
    | .at _ => parkFor ..

theorem feStoreNow (c : Chain) (x y : RegNum) (off : Word) (n : Nat) : HoleOnly (feStoreNow c x y off n) :=
  needing <| bind (address ..) fun _ => readingG fun _ => bind (checkAddress ..) fun _ => getting fun s =>
    bind (lift (Res.HoleOnly.resolve ..)) fun t => match t with
    | .mem _ => ite (set_retire ..) (set_retire ..)
    | .absent _ _ _ => by
      dsimp only
      split
      · exact set_retire ..
      · exact bind (throw trivial) fun _ => retire c
    | .gone | .void => set_retire ..
    | .pod => bind (sendPod _) fun _ => retire c
    | .window _ | .mcr _ => bind (trap _ _) fun _ => retire c

/-! ### Shapes of the synchronisation, vector, matrix and engine instructions -/

theorem syncAddress (ordered : Bool) (addr : Word) (size : Nat) (u : Use) : HoleOnly (Op.syncAddress ordered addr size u) :=
  requiring (checkAddress ..)

theorem reserve (c : Chain) (x y : RegNum) (ordered : Bool) : HoleOnly (reserve c x y ordered) := by
  refine claiming x <| needing <| readingG fun _ => ite (readingG fun _ => ?_) (bind (pure _) fun _ => ?_)
  all_goals exact bind (syncAddress ..) fun _ => getting fun _ => bind (homeOf ..) fun h => match h with
    | .void => modifying (writeG_retire ..)
    | .pod => modifying (sendPod _)
    | .at _ => parkClaim ..

theorem handOff (c : Chain) (x y : RegNum) (kind : BitVec 8) (ordered : Bool) : HoleOnly (handOff c x y kind ordered) :=
  claiming x <| needing <| readingG fun _ => readingG fun _ => bind (syncAddress ..) fun _ => bind (homeOf ..) fun _ => getting fun _ =>
    ite (writeG_retire ..) (ite (setting (writeG_retire ..)) (setting (writeG_retire ..)))

theorem voidAtomic (x : RegNum) (addr : Word) (op : AtomOp) (w : Nat) (v v2 : Word) : HoleOnly (voidAtomic x addr op w v v2) :=
  getting fun _ => by
    dsimp only
    split
    · exact setting (modifying (writeG ..))
    · exact modifying (writeG ..)

theorem atomic (c : Chain) (x y : RegNum) (op : AtomOp) (w : Nat) : HoleOnly (atomic c x y op w) := by
  refine claiming x <| needing <| readingG fun _ => readingG fun _ => ite (readingG fun _ => ?_) (bind (pure _) fun _ => ?_)
  all_goals exact bind (syncAddress ..) fun _ => getting fun _ => bind (homeOf ..) fun h => match h with
    | .void => bind (voidAtomic ..) fun _ => retire c
    | .pod => sendPod _
    | .at _ => parkClaim ..

theorem fenceOf (c : Chain) (scope : Nat) : HoleOnly (fenceOf c scope) := getting fun _ => awaiting (retire c)
theorem beforeArrival : HoleOnly beforeArrival := getting fun _ => await _ _
theorem outbound : HoleOnly outbound := getting fun _ => await _ _
theorem postTile (kind : MsgKind) (v : Word) : HoleOnly (postTile kind v) := modifies _

theorem oldV (x : RegNum) : HoleOnly (Op.oldV x) := getting fun _ => pure _
theorem coded (c : Chain) (float : Bool) : HoleOnly (Op.coded c float) := modifies _
theorem finishV (c : Chain) (x : RegNum) (float : Bool) (r : VReg × BitVec 5) (lat : Nat) : HoleOnly (Op.finishV c x float r lat) :=
  bind (writeV ..) fun _ => modifying <| bind (coded ..) fun _ => retire c

theorem vec3 (c : Chain) (t : VTy) (x y z : RegNum) (f : (mode draw a b : Nat) → LaneRes) (lat : Nat) : HoleOnly (vec3 c t x y z f lat) :=
  needing <| readingV fun _ => readingV fun _ => bind (oldV x) fun _ => getting fun _ => finishV ..
theorem vec4 (c : Chain) (t : VTy) (x y z : RegNum) (f : (mode draw a b d : Nat) → LaneRes) : HoleOnly (vec4 c t x y z f) :=
  needing <| readingV fun _ => readingV fun _ => readingV fun _ => getting fun _ => finishV ..
theorem vec2 (c : Chain) (t : VTy) (x y : RegNum) (f : (mode draw a : Nat) → LaneRes) (lat : Nat) : HoleOnly (vec2 c t x y f lat) :=
  needing <| readingV fun _ => bind (oldV x) fun _ => getting fun _ => finishV ..
theorem vecCmp (c : Chain) (t : VTy) (q : BitVec 3) (y z : RegNum) (p : Nat → Nat → Bool) : HoleOnly (vecCmp c t q y z p) :=
  needing <| readingV fun _ => readingV fun _ => bind (readQ q) fun _ => getting fun _ => bind (writeQ ..) fun _ => modifying <|
    bind (coded ..) fun _ => retire c
theorem vecMove (c : Chain) (t : VTy) (x y z : RegNum) (f : VReg → VReg → Nat → Nat) : HoleOnly (vecMove c t x y z f) :=
  needing <| readingV fun _ => readingV fun _ => bind (oldV x) fun _ => getting fun _ => finishV ..

theorem partsReady (p : State.Parts) : HoleOnly (partsReady p) := getting fun _ => await _ _
theorem pathReady (k : XferKind) (r : BitVec 2) : HoleOnly (pathReady k r) := getting fun _ => await _ _
theorem memoryXfer (c : Chain) (k : XferKind) (r : BitVec 2) (y : RegNum) : HoleOnly (memoryXfer c k r y) :=
  needing <| bind (pathReady ..) fun _ => readingG fun _ => getting fun _ => by
    split
    · exact trap _ _
    · exact parkFor ..

theorem takeEvent (c : Chain) (x : RegNum) (e : EventRec) : HoleOnly (takeEvent c x e) :=
  modifying <| bind (writeG ..) fun _ => writeG_retire ..

theorem siteOperand (x : RegNum) : HoleOnly (siteOperand x) := readingG fun _ => getting fun _ => requiring (pure _)
theorem siteAndImage (x y : RegNum) : HoleOnly (siteAndImage x y) :=
  readingG fun _ => bind (siteOperand x) fun _ => getting fun _ => requiring <| requiring (pure _)
theorem status (c : Chain) (x : RegNum) (n : Nat) : HoleOnly (status c x n) := writeG_retire ..

end Op.HoleOnly

/-! ### The copy engine -/

namespace CopyUnit
open Op.HoleOnly

theorem index_holeOnly (a : Nat) (c : CopyCmd) (e : Nat) : Op.HoleOnly (index a c e) := getting fun _ => requiring (pure _)

theorem byteAddr_holeOnly (a : Nat) (c : CopyCmd) (x : Word) (through : Bool) (u : Use) (b : Nat) :
    Op.HoleOnly (byteAddr a c x through u b) :=
  ite (bind (index_holeOnly ..) fun _ => getting fun _ => requiring (pure _)) (pure _)

theorem beat_holeOnly (a slot : Nat) (write : Bool) (addr : Word) (key n : Nat) : Op.HoleOnly (beat a slot write addr key n) := by
  unfold beat
  split
  · exact pure _
  · exact pure _
  · exact pure _
  · refine getting fun s => ?_
    split
    · exact set _
    · exact throw trivial

theorem latch_holeOnly (a slot lo n v : Nat) (bad : Nat → Bool) : Op.HoleOnly (latch a slot lo n v bad) := modifies _

theorem readMemory_holeOnly (a slot : Nat) (c : CopyCmd) (addr : Word) (n : Nat) : Op.HoleOnly (readMemory a slot c addr n) := by
  refine getting fun s => bind ⟨fun r => ?_⟩ fun t => ?_
  · split
    · trivial
    · next e h => exact (Res.HoleOnly.resolve ..).of_error h
  · match t with
    | .mem _ => exact bind (beat_holeOnly ..) fun _ => modifying (pure _)
    | .void => exact pure _
    | .pod =>
      dsimp only
      split
      · exact park _
      · exact setting (pure _)
      · exact throw trivial
      · exact modifying (pure _)
    | .gone | .absent _ _ _ | .window _ | .mcr _ => exact trap _ _

theorem popElement_holeOnly (a slot : Nat) (c : CopyCmd) (h : Nat) : Op.HoleOnly (popElement a slot c h) :=
  getting fun _ => awaiting <| setting (latch_holeOnly ..)

theorem readNext_holeOnly (a slot : Nat) (c : CopyCmd) (h u b : Nat) : Op.HoleOnly (readNext a slot c h u b) :=
  ite (popElement_holeOnly ..) <| ite
    (bind (byteAddr_holeOnly ..) fun _ => bind (readMemory_holeOnly ..) fun _ => modifying (latch_holeOnly ..))
    (bind (readMemory_holeOnly ..) fun _ => latch_holeOnly ..)

theorem writeEntry_holeOnly (a slot : Nat) (c : CopyCmd) (poison : Bool) (addr : Word) (n : Nat) (e : BufEntry) :
    Op.HoleOnly (writeEntry a slot c poison addr n e) :=
  getting fun s => by
    split
    · next e h => exact throw ((Res.HoleOnly.resolve ..).of_error h)
    · exact bind (beat_holeOnly ..) fun _ => modifies _
    · split
      · exact set _
      · exact park _
    · exact pure _
    · split
      · exact park _
      · exact set _
      · exact throw trivial
      · exact set _
    all_goals exact trap _ _

theorem pushElement_holeOnly (a : Nat) (c : CopyCmd) (l : List CopyByte) : Op.HoleOnly (pushElement a c l) :=
  getting fun _ => awaiting (set _)

theorem writeUnit_holeOnly (a slot : Nat) (c : CopyCmd) (h u : Nat) : Op.HoleOnly (writeUnit a slot c h u) :=
  ite (bind (pushElement_holeOnly ..) fun _ => modifies _)
    (bind (byteAddr_holeOnly ..) fun _ => bind (writeEntry_holeOnly ..) fun _ => modifying (modifies _))

theorem run_holeOnly (a slot : Nat) (c : CopyCmd) (h u : Nat) (last : Bool) : Op.HoleOnly (run a slot c h u last) := by
  unfold run
  dsimp only
  split
  · exact readNext_holeOnly ..
  · exact writeUnit_holeOnly ..

end CopyUnit

theorem State.copyStep_holeOnly (s : State) (a slot u : Nat) (last : Bool) : UnitHoleOnly (s.copyStep a slot u last) := by
  unfold State.copyStep
  split
  · trivial
  dsimp only
  split
  · trivial
  split
  · trivial
  have h (c : CopyCmd) (n : Nat) := (CopyUnit.run_holeOnly a slot c n u last).stops s
  split
  case h_7 e => exact Res.HoleOnly.of_error (h _ _) e
  all_goals trivial

theorem State.performPart_holeOnly (s : State) (a th : Nat) (r : Relaxed) (addr : Word) (n data : Nat) :
    Res.HoleOnly (s.performPart a th r addr n data) := by
  unfold State.performPart
  split
  · exact (Res.HoleOnly.performStore ..).map _
  · split
    · trivial
    · exact (Res.HoleOnly.performLoad ..).map _

/-- What becomes of an access, where it stops the machine: the hole. -/
def Performed.HoleOnly : Performed → Prop
  | .fault f => f.AtHole
  | .done _ | .half _ _ | .wait _ _ | .trap _ => True

theorem Performed.HoleOnly.of_fault {p : Performed} {f : Fault} (h : p.HoleOnly) (e : p = .fault f) : f.AtHole := by
  subst e; exact h

theorem State.performPod_holeOnly (s : State) (a th : Nat) (r : Relaxed) : (s.performPod a th r).HoleOnly := by
  unfold State.performPod
  split
  · trivial
  · trivial
  · trivial
  · split <;> trivial

theorem State.performAccess_holeOnly (s : State) (a th : Nat) (r : Relaxed) : (s.performAccess a th r).HoleOnly := by
  have part (addr : Word) (n data : Nat) := s.performPart_holeOnly a th r addr n data
  unfold State.performAccess
  split
  · exact s.performPod_holeOnly a th r
  dsimp only
  split
  case h_5 f e =>
    split at e
    · exact (part ..).of_error e
    · exact (part ..).of_error e
  case h_6 => split <;> [skip; split] <;> trivial
  all_goals trivial

theorem State.relaxedStep_holeOnly (s : State) (a th i : Nat) : UnitHoleOnly (s.relaxedStep a th i) := by
  unfold State.relaxedStep
  dsimp only
  split
  · trivial
  split
  · trivial
  split
  · trivial
  split
  case h_5 e => exact (s.performAccess_holeOnly a th _).of_fault e
  all_goals trivial

theorem State.keptStep_holeOnly (s : State) (a th : Nat) (r : Relaxed) (rest : List Relaxed) : UnitHoleOnly (s.keptStep a th r rest) := by
  unfold State.keptStep
  dsimp only
  split
  · trivial
  split
  case h_5 e => exact (s.performAccess_holeOnly a th r).of_fault e
  all_goals trivial

theorem State.podStep_holeOnly (s : State) (a th : Nat) : UnitHoleOnly (s.podStep a th) := by
  unfold State.podStep
  split
  · split
    · exact keptStep_holeOnly ..
    · trivial
  · split
    · exact keptStep_holeOnly ..
    · trivial
  · trivial

theorem State.fillArrive_holeOnly (s : State) (f : Fill) : UnitHoleOnly (s.fillArrive f) := by
  have h (ahead : Bool) : Res.HoleOnly (s.fillAsk (s.leadOf f) ahead) := Res.HoleOnly.translateAt ..
  unfold State.fillArrive
  dsimp only
  split
  case h_6 e he _ => exact (h _).of_error he
  all_goals trivial

/-! ### The outcomes -/

theorem accessPerformed_proper (a : AccessRef) (s : State) : Proper (execAccessPerformed a s) := by
  unfold execAccessPerformed
  split
  · split
    · trivial
    · next e => exact (s.relaxedStep_holeOnly ..).of_error e
  · split
    · split <;> trivial
    · trivial
  · split
    · trivial
    · next e => exact (s.copyStep_holeOnly ..).of_error e
  · split
    · trivial
    · next e => exact (s.podStep_holeOnly ..).of_error e
  · trivial

theorem instructionFetchFill_proper (agent : Nat) (line : Word) (s : State) : Proper (execInstructionFetchFill agent line s) := by
  unfold execInstructionFetchFill
  split
  · split
    · trivial
    · next e => exact (s.fillArrive_holeOnly _).of_error e
  split
  · trivial
  split
  · trivial
  split <;> trivial

/-! ### The instructions that are not of a shared shape -/

section
variable (s : State) (c : Chain)

theorem execTrap_proper (imm : Word) : Proper (execTrap c imm s) := .issue <| .bind (.retire c) fun _ => .modifies _
theorem execEret_proper : Proper (execEret c s) :=
  .issue <| .getting fun _ => .ite (.awaiting <| .bind (.retire c) fun _ => .modifies _) (.set _)
theorem execMfs_proper (x : RegNum) (r : SysReg) : Proper (execMfs c x r s) := .issue <| .needing <| .getting fun _ => .writeG_retire ..
theorem execMts_proper (x : RegNum) (r : SysReg) : Proper (execMts c x r s) := by
  refine .issue <| .needing <| .readingG fun _ => .getting fun _ => .ite (.requiring <| .awaiting ?_) ?_
  all_goals exact .modifying <| .bind (.retire c) fun _ => .ite (.modifies _) (.pure _)

theorem execCall_proper (imm : Word) : Proper (execCall c imm s) := .issue <| .needing <| .bind (.link c) fun _ => .retireTo ..
theorem execJr_proper (x : RegNum) : Proper (execJr c x s) := .issue <| .needing <| .readingG fun _ => .requiring (.retireTo ..)
theorem execCallr_proper (x : RegNum) : Proper (execCallr c x s) :=
  .issue <| .needing <| .readingG fun _ => .requiring <| .bind (.link c) fun _ => .retireTo ..
theorem execRet_proper : Proper (execRet c s) := .issue <| .needing <| .readingG fun _ => .requiring <| .modifying (.retireTo ..)
theorem execLoop_proper (x : RegNum) (imm : Word) : Proper (execLoop c x imm s) :=
  .issue <| .needing <| .readingG fun _ => .requiring <| .ite (.retireTo ..) (.requiring <| .modifying (.retireTo ..))
theorem execAlign_proper (tag : BitVec 8) : Proper (execAlign c tag s) :=
  .issue <| .ite (.retire c) (.ite (.set_retire ..) (.throw trivial))
theorem execPref_proper (x : RegNum) : Proper (execPref c x s) :=
  .issue <| .ite (.readingG fun _ => .ite (.modify_retire ..) (.retire c)) (.retire c)

theorem execOinit_proper (x y : RegNum) : Proper (execOinit c x y s) :=
  .issue <| .needing <| .readingG fun _ => .readingG fun _ => .bind (.syncAddress ..) fun _ => .bind (.homeOf ..) fun h => match h with
    | .void | .pod => .retire c
    | .at _ => .getting fun _ => .ite (.set_retire ..) (.parkFor ..)
theorem execWaitc_proper (k : BitVec 4) (y : RegNum) : Proper (execWaitc c k y s) :=
  .issue <| .needing <| .readingG fun _ => .getting fun _ => .ite (.retire c) (.parkFor ..)
theorem execWaitf_proper (y : RegNum) : Proper (execWaitf c y s) :=
  .issue <| .needing <| .readingG fun _ => .bind (.syncAddress ..) fun _ => .bind (.homeOf ..) fun h => match h with
    | .void => .retire c
    | .pod => .sendPod _
    | .at _ => .parkFor ..
theorem execClrf_proper (y : RegNum) : Proper (execClrf c y s) :=
  .issue <| .needing <| .readingG fun _ => .bind (.syncAddress ..) fun _ => .getting fun _ =>
    .bind (.lift (Res.HoleOnly.resolve ..)) fun t => match t with
    | .mem _ => .set_retire ..
    | .absent _ _ _ => by
      dsimp only
      split
      · exact .set_retire ..
      · exact .bind (.throw trivial) fun _ => .retire c
    | .gone => .bind (.trap _ _) fun _ => .retire c
    | .void => .retire c
    | .pod => .bind (.sendPod _) fun _ => .retire c
    | .window _ | .mcr _ => .bind (.trap _ _) fun _ => .retire c
theorem execTake_proper (x y : RegNum) : Proper (execTake c x y s) :=
  .issue <| .needing <| .readingG fun _ => .modifying (.writeG_retire ..)

theorem execBar_proper (b : BitVec 2) : Proper (execBar c b s) := by
  unfold execBar
  split
  · exact .issue <| .bind .beforeArrival fun _ => .parkFor ..
  · exact .issue (.retire c)
theorem execBars_proper (b : BitVec 2) : Proper (execBars c b s) := by
  unfold execBars
  split
  · exact .issue <| .bind .beforeArrival fun _ => .getting fun _ => .ite (.set_retire ..) (.parkFor ..)
  · exact .issue (.retire c)
theorem execBarr_proper (x : RegNum) (b : BitVec 2) (op : BarrOp) : Proper (execBarr c x b op s) := by
  unfold execBarr
  split
  · exact .issue <| .needing <| .bind .beforeArrival fun _ => .readingG fun _ => .parkClaim ..
  · exact .issue <| .needing <| .readingG fun _ => .writeG_retire ..
theorem execBarcfg_proper (b : BitVec 2) (x : RegNum) : Proper (execBarcfg c b x s) :=
  .issue <| .needing <| .getting fun _ => .awaiting <| .readingG fun _ => .getting fun _ => .set_retire ..
theorem execBarq_proper (x : RegNum) (b : BitVec 2) : Proper (execBarq c x b s) :=
  .issue <| .needing <| .getting fun _ => .writeG_retire ..

theorem execPut_proper (x y : RegNum) (k : BitVec 4) : Proper (execPut c x y k s) :=
  .issue <| .needing <| .bind .outbound fun _ => .readingG fun _ => .readingG fun _ => .requiring <| .requiring (.modify_retire ..)
theorem execPutv_proper (x y : RegNum) (k : BitVec 4) : Proper (execPutv c x y k s) :=
  .issue <| .needing <| .bind .outbound fun _ => .readingG fun _ => .readingV fun _ => .requiring <| .requiring (.modify_retire ..)
theorem execGet_proper (x y : RegNum) (k : BitVec 4) : Proper (execGet c x y k s) :=
  .issue <| .needing <| .bind .outbound fun _ => .readingG fun _ => .readingG fun _ =>
    .requiring <| .requiring <| .requiring <| .requiring (.modify_retire ..)
theorem execSend_proper (x y : RegNum) : Proper (execSend c x y s) :=
  .issue <| .needing <| .bind .outbound fun _ => .readingG fun _ => .readingG fun _ => .requiring <| .bind (.postTile ..) fun _ => .retire c
theorem execCset_proper (k : BitVec 4) (x : RegNum) : Proper (execCset c k x s) := .issue <| .needing <| .readingG fun _ => .modify_retire ..
theorem execCinc_proper (k : BitVec 4) (x y : RegNum) : Proper (execCinc c k x y s) := by
  unfold execCinc
  split
  · exact .issue <| .needing <| .readingG fun _ => .modify_retire ..
  · exact .issue <| .needing <| .bind .outbound fun _ => .readingG fun _ => .readingG fun _ => .requiring <| .bind (.postTile ..) fun _ => .retire c
theorem execCrd_proper (x : RegNum) (k : BitVec 4) : Proper (execCrd c x k s) := .issue <| .needing <| .getting fun _ => .writeG_retire ..
theorem execPost_proper (x y : RegNum) : Proper (execPost c x y s) :=
  .issue <| .needing <| .bind .outbound fun _ => .readingG fun _ => .readingG fun _ =>
    .requiring <| .requiring <| .requiring <| .requiring (.modify_retire ..)
theorem execArm_proper (slot : BitVec 3) (x y : RegNum) : Proper (execArm c slot x y s) :=
  .issue <| .needing <| .readingG fun _ => .readingG fun _ => .requiring <| .requiring <| .getting fun _ => by
    dsimp only
    split
    · exact .bind (.trap _ _) fun _ => .modify_retire ..
    · exact .modify_retire ..
theorem execDisarm_proper (slot : BitVec 3) : Proper (execDisarm c slot s) := .issue (.modify_retire ..)

theorem execVsel_proper (t : VTy) (x y z : RegNum) : Proper (execVsel c t x y z s) :=
  .issue <| .needing <| .readingV fun _ => .readingV fun _ => .getting fun _ => .finishV ..
theorem execVbcst_proper (t : VTy) (x y : RegNum) : Proper (execVbcst c t x y s) :=
  .issue <| .needing <| .readingG fun _ => .bind (.oldV x) fun _ => .getting fun _ => .finishV ..
theorem execVext_proper (t : VTy) (x y lane : RegNum) : Proper (execVext c t x y lane s) := by
  refine .issue <| .needing <| .readingV fun _ => .getting fun _ => .ite (.bind (.writeG ..) fun _ => ?_) ?_
  all_goals exact .bind (.coded ..) fun _ => .retire c
theorem execVins_proper (t : VTy) (x y lane : RegNum) : Proper (execVins c t x y lane s) :=
  .issue <| .needing <| .readingG fun _ => .readingV fun _ => .getting fun _ => .finishV ..
theorem execVredadd_proper (t : VTy) (x y : RegNum) : Proper (execVredadd c t x y s) :=
  .issue <| .needing <| .readingV fun _ => .getting fun _ => .finishV ..
theorem execVcvt_proper (t : VTy) (x y : RegNum) (src : VTy) : Proper (execVcvt c t x y src s) :=
  .issue <| .needing <| .readingV fun _ => .bind (.oldV x) fun _ => .getting fun _ => .finishV ..
theorem execVcvtq_proper (t : VTy) (x y : RegNum) (f : QFmt) : Proper (execVcvtq c t x y f s) :=
  .issue <| .needing <| .readingV fun _ => .bind (.oldV x) fun _ => .getting fun _ => .finishV ..
theorem execVsfu_proper (t : VTy) (x y : RegNum) (fn : Sfu) : Proper (execVsfu c t x y fn s) :=
  .issue <| .needing <| .readingV fun _ => .bind (.oldV x) fun _ => .getting fun _ => .finishV ..
theorem execVpeg_proper (x y z : RegNum) : Proper (execVpeg c x y z s) :=
  .issue <| .needing <| .readingV fun _ => .readingG fun _ => .bind (.oldV x) fun _ => .getting fun _ => .finishV ..

theorem execMtcfg_proper (m : BitVec 2) (y : RegNum) : Proper (execMtcfg c m y s) :=
  .issue <| .needing <| .bind (.partsReady _) fun _ => .readingG fun _ => .requiring (.modify_retire ..)
theorem execMfcfg_proper (x : RegNum) (m : BitVec 2) : Proper (execMfcfg c x m s) :=
  .issue <| .needing <| .bind (.partsReady _) fun _ => .getting fun _ => .writeG_retire ..
theorem execMldl_proper (m : BitVec 2) (l : Link) : Proper (execMldl c m l s) :=
  .issue <| .bind (.pathReady ..) fun _ => .requiring (.parkFor ..)
theorem execMpass_proper (m : BitVec 2) (d : Dir) : Proper (execMpass c m d s) :=
  .issue <| .bind (.pathReady ..) fun _ => .requiring (.parkFor ..)
theorem execMzero_proper (acc : BitVec 2) : Proper (execMzero c acc s) := .issue <| .bind (.partsReady _) fun _ => .modify_retire ..
theorem execMma_proper (acc m n : BitVec 2) : Proper (execMma c acc m n s) := .issue <| .awaiting <| .requiring (.parkFor ..)

theorem execScfg_proper (h : BitVec 3) (y : RegNum) : Proper (execScfg c h y s) :=
  .issue <| .needing <| .awaiting <| .readingG fun _ => .requiring (.modify_retire ..)
theorem execSadv_proper (h : BitVec 3) (y : RegNum) : Proper (execSadv c h y s) :=
  .issue <| .getting fun _ => .awaiting <| .needing <| .readingG fun _ => .getting fun _ => .requiring <| .requiring <| .requiring <|
    .ite (.awaiting (.modify_retire ..)) (.awaiting (.modify_retire ..))
theorem execSqry_proper (x : RegNum) (h : BitVec 3) : Proper (execSqry c x h s) := .issue <| .needing <| .getting fun _ => .writeG_retire ..
theorem execSclr_proper (h : BitVec 3) : Proper (execSclr c h s) := .issue <| .awaiting (.modify_retire ..)
theorem copyIssue_proper (kind : CopyKind) (x y : RegNum) : Proper (copyIssue kind c x y s) :=
  .issue <| .needing <| .readingG fun _ => .requiring <| .requiring <| .getting fun _ => by
    dsimp only
    split
    · exact .park _
    · exact .modifying (.writeG_retire ..)
theorem execCjoin_proper (x : RegNum) : Proper (execCjoin c x s) :=
  .issue <| .needing <| .readingG fun _ => .getting fun _ => by
    split
    · exact .retire c
    · exact .ite (.throw trivial) (.park _)
theorem execEvpop_proper (x : RegNum) : Proper (execEvpop c x s) :=
  .issue <| .needing <| by
    split
    · exact .takeEvent ..
    · exact .bind (.writeG ..) fun _ => .writeG_retire ..
theorem execEvwait_proper (x : RegNum) : Proper (execEvwait c x s) :=
  .issue <| .needing <| by
    split
    · exact .takeEvent ..
    · exact .park _

theorem execLaunch_proper (x : RegNum) : Proper (execLaunch c x s) :=
  .issue <| .needing <| .bind .outbound fun _ => .readingG fun _ => .requiring <| .requiring <| .getting fun _ =>
    .ite (.writeG_retire ..) (.setting <| .modifying (.retire c))
theorem execCancel_proper (x : RegNum) : Proper (execCancel c x s) :=
  .issue <| .needing <| .readingG fun _ => .getting fun _ => .ite (.modifying (.writeG_retire ..)) (.parkClaim ..)
theorem execGwait_proper (x : RegNum) : Proper (execGwait c x s) :=
  .issue <| .needing <| .readingG fun _ => .getting fun _ => .ite (.writeG_retire ..) <| .ite
    (.modifying <| .ite (.writeG_retire ..) (.parkClaim ..)) (by
    split
    · exact .writeG_retire ..
    · exact .ite (.writeG_retire ..) (.parkClaim ..))
theorem execGqry_proper (x y : RegNum) : Proper (execGqry c x y s) :=
  .issue <| .needing <| .readingG fun _ => .getting fun _ => .ite (.writeG_retire ..) (.setting (.writeG_retire ..))
theorem execSpawn_proper (x y : RegNum) : Proper (execSpawn c x y s) :=
  .issue <| .needing <| .readingG fun _ => .readingG fun _ => .getting fun _ => .setting (.writeG_retire ..)
theorem execSeed_proper (x : RegNum) : Proper (execSeed c x s) :=
  .issue <| .needing <| .getting fun _ => .ite (.awaiting <| .awaiting <| .setting <| .bind (.writeG ..) fun _ => .modify_retire ..) (by
    split
    · exact .bind (.writeG ..) fun _ => .modify_retire ..
    · exact .bind (.throw trivial) fun _ => .modify_retire ..)
theorem execCrdig_proper (x : RegNum) (i : BitVec 1) : Proper (execCrdig c x i s) := .issue <| .needing <| .getting fun _ => .writeG_retire ..
theorem execCron_proper : Proper (execCron c s) := .issue (.modify_retire ..)
theorem execCroff_proper : Proper (execCroff c s) := .issue (.modify_retire ..)
theorem execCrstat_proper (x y : RegNum) : Proper (execCrstat c x y s) :=
  .issue <| .needing <| .readingG fun _ => .requiring <| .getting fun _ => .writeG_retire ..

theorem execTstop_proper (x : RegNum) : Proper (execTstop c x s) :=
  .issue <| .needing <| .bind (.siteOperand x) fun _ => .getting fun _ => by
    split
    · exact .parkClaim ..
    · exact .parkClaim ..
    · exact .ite (.parkClaim ..) (.status ..)
    all_goals exact .status ..
theorem execTsave_proper (x y : RegNum) : Proper (execTsave c x y s) :=
  .issue <| .needing <| .bind (.siteAndImage x y) fun _ => .getting fun _ => .ite (.status ..) <|
    .bind (.lift (Res.HoleOnly.segments ..)) fun _ => .setting (.status ..)
theorem execTload_proper (x y : RegNum) : Proper (execTload c x y s) :=
  .issue <| .needing <| .bind (.siteAndImage x y) fun _ => .getting fun _ => .awaiting <| .ite (.status ..) <|
    .bind (.lift (Res.HoleOnly.segments ..)) fun _ => by
      dsimp only
      split
      · exact .status ..
      · exact .ite (.status ..) (.setting (.status ..))
theorem execTgo_proper (x : RegNum) : Proper (execTgo c x s) :=
  .issue <| .needing <| .bind (.siteOperand x) fun _ => .getting fun _ => .awaiting <| .ite (.status ..) (.setting (.status ..))
theorem execTmap_proper (x y : RegNum) : Proper (execTmap c x y s) :=
  .issue <| .needing <| .readingG fun _ => .requiring <| .requiring <| .getting fun _ => by
    dsimp only
    split
    · exact .bind (.trap _ _) fun _ => .awaiting <| .setting (.status ..)
    · exact .awaiting <| .setting (.status ..)
theorem execTquar_proper (x : RegNum) : Proper (execTquar c x s) :=
  .issue <| .needing <| .bind (.siteOperand x) fun _ => .getting fun _ => by
    split
    · exact .status ..
    · exact .status ..
    all_goals exact .setting (.status ..)
theorem execZero_proper (x y : RegNum) : Proper (execZero c x y s) :=
  .issue <| .needing <| .readingG fun _ => .readingG fun _ => .getting fun _ => .requiring <| .requiring <| .awaiting <| .setting (.status ..)
theorem execTlbinv_proper (x y : RegNum) : Proper (execTlbinv c x y s) :=
  .issue <| .needing <| .readingG fun _ => .readingG fun _ => .getting fun _ => .setting (.status ..)
theorem execVote_proper (x : RegNum) : Proper (execVote c x s) :=
  .issue <| .needing <| .readingG fun _ => .getting fun _ => .setting (.status ..)

end

/-- Every instruction and event ends in a next state, or at the hole. -/
theorem exec_proper (i : Instr) (s : State) : Proper (exec i s) := by
  cases i with
  | nop _ => simp only [exec]; exact .issue (.retire _)
  | halt _ => simp only [exec]; exact .issue (.modifies _)
  | sleep _ => simp only [exec]; exact .issue (.park _)
  | brk _ _ => simp only [exec]; exact .issue (.trap _ _)
  | j _ _ => simp only [exec]; exact .issue (.retireTo _ _)
  | add _ _ _ _ | sub _ _ _ _ | and _ _ _ _ | or _ _ _ _ | xor _ _ _ _ | shl _ _ _ _ | shr _ _ _ _ | sar _ _ _ _ | addw _ _ _ _
  | subw _ _ _ _ | andn _ _ _ _ | orn _ _ _ _ | xnor _ _ _ _ | rol _ _ _ _ | ror _ _ _ _ | scadd _ _ _ _ | mul _ _ _ _
  | mulh _ _ _ _ | mulhu _ _ _ _ | mulhsu _ _ _ _ | div _ _ _ _ | divu _ _ _ _ | rem _ _ _ _ | remu _ _ _ _ | slt _ _ _ _
  | sltu _ _ _ _ | seq _ _ _ _ | sne _ _ _ _ | min _ _ _ _ | max _ _ _ _ | minu _ _ _ _ | maxu _ _ _ _ | hxy _ _ _ _
  | hidx _ _ _ _ | sel _ _ _ _ => simp only [exec]; exact .issue (.alu3 ..)
  | clz _ _ _ | ctz _ _ _ | popc _ _ _ | brev _ _ _ | bswap _ _ _ | sexb _ _ _ | sexh _ _ _ | sexw _ _ _ | addi _ _ _ _
  | andi _ _ _ _ | ori _ _ _ _ | xori _ _ _ _ | shli _ _ _ _ | shri _ _ _ _ | sari _ _ _ _ | lih _ _ _ => simp only [exec]; exact .issue (.alu2 ..)
  | li _ _ _ | addpc _ _ _ => simp only [exec]; exact .issue (.loadConst ..)
  | bz _ _ _ | bnz _ _ _ | bltz _ _ _ | bgez _ _ _ => simp only [exec]; exact .issue (.branch1 ..)
  | bq _ _ _ | bnq _ _ _ => simp only [exec]; exact .issue (.branchQ ..)
  | beq _ _ _ _ | bne _ _ _ _ | blt _ _ _ _ | bge _ _ _ _ | bltu _ _ _ _ | bgeu _ _ _ _ => simp only [exec]; exact .issue (.branch2 ..)
  | ldb _ _ _ _ | ldh _ _ _ _ | ldw _ _ _ _ | ldd _ _ _ _ | ldbs _ _ _ _ | ldhs _ _ _ _ | ldws _ _ _ _ => simp only [exec]; exact .issue (.loadG ..)
  | stb _ _ _ _ | sth _ _ _ _ | stw _ _ _ _ | std _ _ _ _ => simp only [exec]; exact .issue (.storeG ..)
  | vld _ _ _ _ => simp only [exec]; exact .issue (.loadV ..)
  | vst _ _ _ _ => simp only [exec]; exact .issue (.storeV ..)
  | ldf _ _ _ _ | ldfd _ _ _ _ | ldfe _ _ _ _ | ldfed _ _ _ _ => simp only [exec]; exact .issue (.feLoad ..)
  | ste _ _ _ _ | sted _ _ _ _ => simp only [exec]; exact .issue (.feStoreWait ..)
  | stf _ _ _ _ | stfd _ _ _ _ => simp only [exec]; exact .issue (.feStoreNow ..)
  | lrw _ _ _ | lro _ _ _ => simp only [exec]; exact .issue (.reserve ..)
  | sch _ _ _ | sco _ _ _ => simp only [exec]; exact .issue (.handOff ..)
  | aadd _ _ _ | aand _ _ _ | aor _ _ _ | axor _ _ _ | amin _ _ _ | amax _ _ _ | aminu _ _ _ | amaxu _ _ _ | aswap _ _ _
  | acas _ _ _ | afadd _ _ _ | afaddo _ _ _ | aaddw _ _ _ | aandw _ _ _ | aorw _ _ _ | axorw _ _ _ | aminw _ _ _ | amaxw _ _ _
  | aminuw _ _ _ | amaxuw _ _ _ | aswapw _ _ _ | acasw _ _ _ | afaddw _ _ _ | afaddow _ _ _ => simp only [exec]; exact .issue (.atomic ..)
  | fence _ | fenceG _ | fenceM _ | fenceP _ => simp only [exec]; exact .issue (.fenceOf ..)
  | vadd _ _ _ _ _ | vsub _ _ _ _ _ | vmul _ _ _ _ _ | vmin _ _ _ _ _ | vmax _ _ _ _ _ | vdiv _ _ _ _ _ | vshl _ _ _ _ _
  | vshr _ _ _ _ _ | vsar _ _ _ _ _ | vand _ _ _ _ _ | vor _ _ _ _ _ | vxor _ _ _ _ _ => simp only [exec]; exact .issue (.vec3 ..)
  | vfma _ _ _ _ _ | vaddmin _ _ _ _ _ => simp only [exec]; exact .issue (.vec4 ..)
  | vsqrt _ _ _ _ => simp only [exec]; exact .issue (.vec2 ..)
  | vceq _ _ _ _ _ | vclt _ _ _ _ _ | vcle _ _ _ _ _ => simp only [exec]; exact .issue (.vecCmp ..)
  | vslu _ _ _ _ _ | vsld _ _ _ _ _ | vperm _ _ _ _ _ => simp only [exec]; exact .issue (.vecMove ..)
  | mld _ _ _ | mst _ _ _ | mrda _ _ _ | mwra _ _ _ | mscl _ _ _ => simp only [exec]; exact .issue (.memoryXfer ..)
  | cpy _ _ _ | cpyg _ _ _ | cpys _ _ _ | cpyz _ _ _ => simp only [exec]; exact copyIssue_proper ..
  | trap _ _ => simp only [exec]; exact execTrap_proper ..
  | eret _ => simp only [exec]; exact execEret_proper ..
  | mfs _ _ _ => simp only [exec]; exact execMfs_proper ..
  | mts _ _ _ => simp only [exec]; exact execMts_proper ..
  | align _ _ => simp only [exec]; exact execAlign_proper ..
  | pref _ _ => simp only [exec]; exact execPref_proper ..
  | tstop _ _ => simp only [exec]; exact execTstop_proper ..
  | tsave _ _ _ => simp only [exec]; exact execTsave_proper ..
  | tload _ _ _ => simp only [exec]; exact execTload_proper ..
  | tgo _ _ => simp only [exec]; exact execTgo_proper ..
  | tmap _ _ _ => simp only [exec]; exact execTmap_proper ..
  | tquar _ _ => simp only [exec]; exact execTquar_proper ..
  | zero _ _ _ => simp only [exec]; exact execZero_proper ..
  | tlbinv _ _ _ => simp only [exec]; exact execTlbinv_proper ..
  | vote _ _ => simp only [exec]; exact execVote_proper ..
  | call _ _ => simp only [exec]; exact execCall_proper ..
  | jr _ _ => simp only [exec]; exact execJr_proper ..
  | callr _ _ => simp only [exec]; exact execCallr_proper ..
  | ret _ => simp only [exec]; exact execRet_proper ..
  | loop _ _ _ => simp only [exec]; exact execLoop_proper ..
  | oinit _ _ _ => simp only [exec]; exact execOinit_proper ..
  | waitc _ _ _ => simp only [exec]; exact execWaitc_proper ..
  | waitf _ _ => simp only [exec]; exact execWaitf_proper ..
  | clrf _ _ => simp only [exec]; exact execClrf_proper ..
  | take _ _ _ => simp only [exec]; exact execTake_proper ..
  | bar _ _ => simp only [exec]; exact execBar_proper ..
  | bars _ _ => simp only [exec]; exact execBars_proper ..
  | barcfg _ _ _ => simp only [exec]; exact execBarcfg_proper ..
  | barq _ _ _ => simp only [exec]; exact execBarq_proper ..
  | barr _ _ _ _ => simp only [exec]; exact execBarr_proper ..
  | put _ _ _ _ => simp only [exec]; exact execPut_proper ..
  | putv _ _ _ _ => simp only [exec]; exact execPutv_proper ..
  | get _ _ _ _ => simp only [exec]; exact execGet_proper ..
  | send _ _ _ => simp only [exec]; exact execSend_proper ..
  | cset _ _ _ => simp only [exec]; exact execCset_proper ..
  | cinc _ _ _ _ => simp only [exec]; exact execCinc_proper ..
  | crd _ _ _ => simp only [exec]; exact execCrd_proper ..
  | post _ _ _ => simp only [exec]; exact execPost_proper ..
  | arm _ _ _ _ => simp only [exec]; exact execArm_proper ..
  | disarm _ _ => simp only [exec]; exact execDisarm_proper ..
  | vsel _ _ _ _ _ => simp only [exec]; exact execVsel_proper ..
  | vbcst _ _ _ _ => simp only [exec]; exact execVbcst_proper ..
  | vext _ _ _ _ _ => simp only [exec]; exact execVext_proper ..
  | vins _ _ _ _ _ => simp only [exec]; exact execVins_proper ..
  | vredadd _ _ _ _ => simp only [exec]; exact execVredadd_proper ..
  | vcvt _ _ _ _ _ => simp only [exec]; exact execVcvt_proper ..
  | vcvtq _ _ _ _ _ => simp only [exec]; exact execVcvtq_proper ..
  | vsfu _ _ _ _ _ => simp only [exec]; exact execVsfu_proper ..
  | vpeg _ _ _ _ => simp only [exec]; exact execVpeg_proper ..
  | mtcfg _ _ _ => simp only [exec]; exact execMtcfg_proper ..
  | mfcfg _ _ _ => simp only [exec]; exact execMfcfg_proper ..
  | mldl _ _ _ => simp only [exec]; exact execMldl_proper ..
  | mpass _ _ _ => simp only [exec]; exact execMpass_proper ..
  | mzero _ _ => simp only [exec]; exact execMzero_proper ..
  | mma _ _ _ _ => simp only [exec]; exact execMma_proper ..
  | scfg _ _ _ => simp only [exec]; exact execScfg_proper ..
  | sadv _ _ _ => simp only [exec]; exact execSadv_proper ..
  | sqry _ _ _ => simp only [exec]; exact execSqry_proper ..
  | sclr _ _ => simp only [exec]; exact execSclr_proper ..
  | cjoin _ _ => simp only [exec]; exact execCjoin_proper ..
  | evpop _ _ => simp only [exec]; exact execEvpop_proper ..
  | evwait _ _ => simp only [exec]; exact execEvwait_proper ..
  | launch _ _ => simp only [exec]; exact execLaunch_proper ..
  | cancel _ _ => simp only [exec]; exact execCancel_proper ..
  | gwait _ _ => simp only [exec]; exact execGwait_proper ..
  | gqry _ _ _ => simp only [exec]; exact execGqry_proper ..
  | spawn _ _ _ => simp only [exec]; exact execSpawn_proper ..
  | seed _ _ => simp only [exec]; exact execSeed_proper ..
  | crdig _ _ _ => simp only [exec]; exact execCrdig_proper ..
  | cron _ => simp only [exec]; exact execCron_proper ..
  | croff _ => simp only [exec]; exact execCroff_proper ..
  | crstat _ _ _ => simp only [exec]; exact execCrstat_proper ..
  | instructionFetchFill _ _ => simp only [exec]; exact instructionFetchFill_proper ..
  | accessPerformed _ => simp only [exec]; exact accessPerformed_proper ..
  | walkRetry _ | stationReplayWrite _ _ | putLand _ | getRequestServe _ | getResponse _ | sendLand _ | cincLand _
  | triggerAction _ | yardRecover _ | seedLogHeadWrite _ | replaySourceSizeWrite _ | hostWrite _ _ _ _ | hostRead _ _ _
  | hostLaunchDoorbell _ _ | hostQueueResume _ | hostLinkDown _ | featureRequestWrite _ | vdEntryWrite _ _ _ | sitePowerWrite _ _
  | mcrWrite _ _ | overcurrentTrip => simp only [exec]; exact trivial
  | alignTimeout _ _ | threadUnpark _ _ | deferredFault _ _ | translationWalkDone _ _ | reservationRevoke _ _
  | queueTableReadmit _ | oinitRetry _ _ | barrierComplete _ _ _ _ _ | specRollback _ _ | inboxRefill _ | postAppend _
  | messageRefused _ | outboundAck _ _ | tileFault _ _ | gangStallReport _ _ | mmaComplete _ | matrixTransferComplete _
  | copyStart _ _ | copyComplete _ _ | copyFault _ _ | copyBudgetWindow | launchAccept _ | dealRound _ _ | gangStart _ _
  | tileRetire _ | gridComplete _ | cancelAccept _ _ | cancelReachYard _ _ | moduleLeavePod _ | yardWithhold _
  | watchdogExpire _ _ | quantumExpiry _ _ | gangSwapOut _ _ | tileStopDone _ | gangSwapIn _ _ | rerunSiteReclaim _
  | rerunVerdict _ _ | cruiseHoldClear _ | entropyTestFail _ | entropyRecover | queueRecordAppend _ | hostLaunchRecordRead _
  | hostRecordRetry _ | attestationRequest | vaultZeroDone _ | podRequest _ _ _ _ _ _ _ | podFlitReplay _ | podLinkDown _
  | podPortsDownTimeout _ | moduleBoot | voltageWindow | stackThermalChange _ _ | linkWordArrive _ | voltageRampDone _ =>
    simp only [exec, execAlignTimeout, execThreadUnpark, execDeferredFault, execTranslationWalkDone, execReservationRevoke,
      execQueueTableReadmit, execOinitRetry, execBarrierComplete, execSpecRollback, execInboxRefill, execPostAppend,
      execMessageRefused, execOutboundAck, execTileFault, execGangStallReport, execMmaComplete,
      execMatrixTransferComplete, execCopyStart, execCopyComplete, execCopyFault, execCopyBudgetWindow,
      execLaunchAccept, execDealRound, execGangStart, execTileRetire, execGridComplete, execCancelAccept,
      execCancelReachYard, execModuleLeavePod, execYardWithhold, execWatchdogExpire, execQuantumExpiry, execGangSwapOut,
      execTileStopDone, execGangSwapIn, execRerunSiteReclaim, execRerunVerdict, execCruiseHoldClear,
      execEntropyTestFail, execEntropyRecover, execQueueRecordAppend, execHostLaunchRecordRead, execHostRecordRetry,
      execAttestationRequest, execVaultZeroDone, execPodRequest, execPodFlitReplay, execPodLinkDown,
      execPodPortsDownTimeout, execModuleBoot, execVoltageWindow, execStackThermalChange, execLinkWordArrive,
      execVoltageRampDone]
    repeat' split
    all_goals trivial

/-- Settles O42: the machine stops where a leaf leads beyond the rim memory, and every meaning hands that stop on and makes none of its own. -/
theorem stopsOnlyAtHole : Obligations.StopsOnlyAtHole :=
  fun i s => ⟨(exec_proper i s).not_refused, (exec_proper i s).atHole⟩

end Sys2Proof.Machine
end

section
/-! The contents of gangs do not hold as stated. A swap-in takes a tile's name from its image, and replays the skid queue of the gang that the
name gives. Here it gives another gang, whose ring lies over the residency entry that the swap-in has just written. -/

namespace Sys2Proof.Machine

open Sys2Proof.Claims

/-! ### Reading what is cleared, pasted and sliced -/

theorem Mem.read_clear_outside {lo n k : Nat} (h : k < lo ∨ lo + n ≤ k) : ∀ m : List Host.Cell, Mem.read (Mem.clear m lo n) k = Mem.read m k
  | [] => rfl
  | (j, b) :: t => by
    have ih := Mem.read_clear_outside h t
    unfold Mem.clear at ih ⊢
    by_cases hj : j < lo ∨ lo + n ≤ j
    · simp [hj, Mem.read, ih]
    · have : j ≠ k := by omega
      simp [hj, Mem.read, ih, this]

theorem Mem.read_paste_below {lo k : Nat} (h : k < lo) : ∀ (cells m : List Host.Cell), Mem.read (Mem.paste m lo cells) k = Mem.read m k
  | [], _ => rfl
  | c :: t, m => by
    have ih := Mem.read_paste_below h t (Mem.write m (lo + c.1) c.2)
    exact ih.trans (Mem.read_write_ne m c.2 (by omega))

theorem Mem.read_slice {lo n i : Nat} (h : i < n) : ∀ m : List Host.Cell, Mem.read (Mem.slice m lo n) i = Mem.read m (lo + i)
  | [] => rfl
  | (j, b) :: t => by
    have ih := Mem.read_slice (lo := lo) h t
    unfold Mem.slice at ih ⊢
    by_cases hj : lo ≤ j ∧ j < lo + n
    · have : (j - lo = i) ↔ j = lo + i := by omega
      simp [hj, Mem.read, ih, this]
    · have : j ≠ lo + i := by omega
      simp [hj, Mem.read, ih, this]

theorem Mem.readN_slice {lo n : Nat} (m : List Host.Cell) :
    ∀ (w i : Nat), i + w ≤ n → Mem.readN (Mem.slice m lo n) i w = Mem.readN m (lo + i) w
  | 0, _, _ => rfl
  | w + 1, i, h => by
    simp only [Mem.readN]
    rw [Mem.read_slice (by omega), Mem.readN_slice m w (i + 1) (by omega)]
    rfl

/-- The third byte of a read. -/
theorem Mem.readN_div_byte (m : List Host.Cell) (k n : Nat) :
    Mem.readN m k (n + 3) / 2 ^ 16 % 256 = (Mem.read m (k + 2)).toNat := by
  have h0 := (Mem.read m k).isLt
  have h1 := (Mem.read m (k + 1)).isLt
  have h2 := (Mem.read m (k + 1 + 1)).isLt
  rw [show k + 2 = k + 1 + 1 from rfl]
  simp only [Mem.readN]
  omega

namespace State

/-! ### Fields of a residency entry -/

/-- A bit of an entry once a field of it is replaced. -/
theorem setField_getLsbD (e : BitVec 256) (lo n v i : Nat) (hi : i < 256) :
    (setField e lo n v).getLsbD i = if lo ≤ i ∧ i < lo + n then v.testBit (i - lo) else e.getLsbD i := by
  have mask : ((2 ^ n - 1) * 2 ^ lo).testBit i = decide (lo ≤ i ∧ i < lo + n) := by
    rw [Nat.mul_comm, Nat.testBit_two_pow_mul, Nat.testBit_two_pow_sub_one]
    by_cases h : lo ≤ i <;> simp [h]; omega
  have value : (v % 2 ^ n * 2 ^ lo).testBit i = (decide (lo ≤ i ∧ i < lo + n) && v.testBit (i - lo)) := by
    rw [Nat.mul_comm, Nat.testBit_two_pow_mul, Nat.testBit_mod_two_pow]
    by_cases h : lo ≤ i <;> simp [h]; congr 1; simp; omega
  simp only [setField, BitVec.getLsbD_or, BitVec.getLsbD_and, BitVec.getLsbD_not, BitVec.getLsbD_ofNat, mask, value, hi]
  by_cases h : lo ≤ i ∧ i < lo + n <;> simp [h]

/-! ### Where a gang is placed -/

theorem takeSites_length {s : State} {lo len n : Nat} {l : List Nat} (h : s.takeSites lo len n = some l) : l.length = n := by
  simp only [takeSites] at h
  split_ifs at h with le
  cases h
  exact List.length_take_of_le le

theorem placeAligned_length {s : State} {avoid l : List Nat} {lo hi n : Nat} (h : s.placeAligned avoid lo hi n = some l) : l.length = n := by
  obtain ⟨k, -, hk⟩ := List.exists_of_findSome?_eq_some h
  dsimp only at hk
  split_ifs at hk
  obtain ⟨j, -, hj⟩ := List.exists_of_findSome?_eq_some hk
  split_ifs at hj
  exact takeSites_length hj

/-- A choice that takes each candidate or keeps the one before it ends at one of them. -/
theorem foldl_choice_mem {α : Type} {f : Option α → α → Option α} (hf : ∀ b x, f b x = some x ∨ f b x = b) :
    ∀ (l : List α) {b : Option α} {r : α}, l.foldl f b = some r → r ∈ l ∨ b = some r
  | [], _, _, h => .inr h
  | x :: t, b, r, h => by
    rcases foldl_choice_mem hf t h with mem | eq
    · exact .inl (List.mem_cons_of_mem x mem)
    · rcases hf b x with took | kept
      · cases took.symm.trans eq
        exact .inl List.mem_cons_self
      · exact .inr (kept.symm.trans eq)

theorem placeShortest_length {s : State} {avoid l : List Nat} {lo hi n : Nat} (h : s.placeShortest avoid lo hi n = some l) : l.length = n := by
  simp only [placeShortest] at h
  split_ifs at h
  rcases foldl_choice_mem (fun b x => by cases b <;> grind) _ h with mem | no
  · obtain ⟨mem, -⟩ := List.mem_filter.1 mem
    obtain ⟨i, hi, rfl⟩ := List.mem_map.1 mem
    have := List.mem_range.1 hi
    simp only [List.length_take, List.length_drop]
    omega
  · cases no

theorem placeAny_length {s : State} {vd n : Nat} {avoid l : List Nat} (h : s.placeAny vd avoid n = some l) : l.length = n := by
  obtain ⟨k, -, hk⟩ := List.exists_of_findSome?_eq_some h
  simp only [place] at hk
  split at hk
  · next e => cases hk; exact placeAligned_length e
  · exact placeShortest_length hk

theorem apartFrom_nil (lo len : Nat) : apartFrom [] lo len = true := rfl

/-- One tile finds a place wherever a site of the partition is placeable. -/
theorem placeAny_isSome {s : State} {vd a : Nat} (lo : s.vdPbase vd ≤ a) (hi : a < s.vdPbase vd + s.vdPlen vd) (in_ : a < 65536)
    (ok : s.placeable a = true) : (s.placeAny vd [] 1).isSome = true := by
  have take : s.takeSites a 1 1 = some [a] := by simp [takeSites, ok]
  have yard : a / 256 < 256 := by omega
  refine List.findSome?_isSome_iff.2 ⟨a / 256, by simpa [placersOf] using yard, ?_⟩
  obtain ⟨p, hp⟩ : ∃ p, p = s.nodePart vd (a / 256) := ⟨_, rfl⟩
  have below : p.1 ≤ a := by simp [hp, nodePart, yard]; omega
  have above : a < p.2 := by simp [hp, nodePart, yard]; omega
  have aligned : (s.placeAligned [] p.1 p.2 1).isSome = true := by
    refine List.findSome?_isSome_iff.2 ⟨0, by simp, ?_⟩
    simp only [Nat.pow_zero, le_refl, if_true]
    refine List.findSome?_isSome_iff.2 ⟨a - p.1, by simp; omega, ?_⟩
    have at_ : alignUp p.1 1 + (a - p.1) = a := by simp only [alignUp, Nat.div_one]; omega
    simp [at_, apartFrom_nil, take, above]
  rw [← hp]
  simp only [place]
  cases e : s.placeAligned [] p.1 p.2 1 with
  | none => simp [e] at aligned
  | some l => rfl

/-- R1: the blob records fewer sites as defective than there are. -/
theorem exists_not_defective : ∃ a < 65536, siteDefective a = false := by
  by_contra none
  have all : ∀ a < 65536, siteDefective a = true := fun a ha => by
    cases e : siteDefective a
    · exact absurd ⟨a, ha, e⟩ none
    · rfl
  have listed : (List.range 65535).filter Config.defective = List.range 65535 := List.filter_eq_self.2 fun a ha => by
    have := all a (by have := List.mem_range.1 ha; omega)
    simp only [siteDefective, Bool.and_eq_true] at this
    exact this.1
  have last := all 65535 (by omega)
  have kept : 57344 ≤ binSites moduleBin := by unfold binSites; split <;> omega
  simp only [siteDefective, listed, List.length_range, Bool.and_eq_true, decide_eq_true_eq] at last
  omega

theorem store_eq_pokeN {s : State} (hw : s.watches = []) (hp : s.poison = []) (key n v : Nat) : s.store key n v = s.pokeN key n v := by
  unfold store rollWatchers rollWhere unpoison pokeN
  simp only [hw, hp, List.filter_nil, List.foldl_nil]

theorem modEntry_eq_pokeN {s : State} {g : Grid} {gid : Word} (hg : s.grid? gid = some g) (hc : g.complete = false)
    (hw : s.watches = []) (hp : s.poison = []) (i : Nat) (f : BitVec 256 → BitVec 256) :
    s.modEntry gid i f = s.pokeN (rimKey (g.table + 32 * i)) 32 (f (s.residency g i)).toNat := by
  simp only [modEntry, hg, hc, Bool.false_eq_true, if_false, store_eq_pokeN hw hp]

/-! ### A run of one tile that comes back -/

theorem skipsOf_one (a : Nat) : skipsOf [a] = [] := by simp [skipsOf]

/-- The entry of a gang that is placed on one site. -/
def oneSiteEntry (e : BitVec 256) (a : Nat) : BitVec 256 :=
  bumpGen (setMove true (setRes true (setField (setField (setField e 0 16 a) 32 16 0) 64 64 0)))

theorem placeEntry_one {s : State} {g : Grid} (hg : s.grid? g.handle = some g) (hc : g.complete = false) (hw : s.watches = [])
    (hp : s.poison = []) (i a : Nat) :
    s.placeEntry g i [a] true = some (none, s.pokeN (rimKey (g.table + 32 * i)) 32 (oneSiteEntry (s.residency g i) a).toNat) := by
  simp only [placeEntry, skipsOf_one, List.isEmpty_nil, if_true]
  exact congrArg (fun t => some (none, t)) (modEntry_eq_pokeN hg hc hw hp i _)

/-- The tile of an image stands on its site. -/
def stand (s : State) (r : Gang) (p a : Nat) : State :=
  ((s.setMcrN (0x60000 + a) 1 0).installImage a (s.getImage p).1 (s.getImage p).2 r.mark r.vd r.handle).modSite a fun x =>
    { x with state := .running, stopBy := none }

/-- A run is resident on one site. -/
def reside (s : State) (r : Gang) (b : Option SwapBlock) (a : Nat) : State :=
  s.modRun r.handle r.index r.mark fun x => { x with
    phase := .resident, sites := [a], history := x.history ++ [a], images := [], imageBlock := none, skipBlock := b
    quantumOver := false, resident := 0 }

/-- What follows the replay of a run's tile. -/
def settleRun (s : State) (r : Gang) (a : Nat) : State :=
  (((((s.settleEntry r.handle r.index).openPads r.handle r.index).clearTileFault r.handle r.index).rejoin a).decideTile a).freeSwap r.imageBlock

theorem restoreOn_one {s t : State} {g : Grid} {r : Gang} {b : Option SwapBlock} {a p : Nat} (hm : r.mark = .original) (hs : r.saved = [])
    (hi : r.images = [p]) (he : s.placeEntry g r.index [a] true = some (b, t)) :
    s.restoreOn g r [a] = ((((t.stand r p a).reside r b a).replaySkid a).settleRun r a) := by
  simp only [restoreOn, hm, hs, hi, he, beq_self_eq_true, if_true, List.length_singleton, List.range_one, List.zip_cons_cons, List.zip_nil_right,
    List.any_nil, Bool.not_false, List.filter_cons_of_pos, List.filter_nil, List.foldl_cons, List.foldl_nil, List.map_cons, List.map_nil,
    stand, reside, settleRun]

end State

theorem Mem.read_filter {p : Host.Cell → Bool} {k : Nat} (h : ∀ b, p (k, b) = true) :
    ∀ m : List Host.Cell, Mem.read (m.filter p) k = Mem.read m k
  | [] => rfl
  | (j, b) :: t => by
    have ih := Mem.read_filter h t
    by_cases hj : j = k
    · subst hj; simp [h, Mem.read]
    · by_cases hp : p (j, b) = true <;> simp [hp, hj, Mem.read, ih]

namespace State

theorem setField_ushiftRight {x y : BitVec 256} (h : x >>> 16 = y >>> 16) (lo n v : Nat) : setField x lo n v >>> 16 = setField y lo n v >>> 16 := by
  refine BitVec.eq_of_getLsbD_eq fun i hi => ?_
  have bit : x.getLsbD (16 + i) = y.getLsbD (16 + i) := by simpa using congrArg (fun z => z.getLsbD i) h
  simp only [BitVec.getLsbD_ushiftRight]
  by_cases top : 16 + i < 256
  · rw [setField_getLsbD _ _ _ _ _ top, setField_getLsbD _ _ _ _ _ top, bit]
  · rw [BitVec.getLsbD_of_ge _ _ (by omega), BitVec.getLsbD_of_ge _ _ (by omega)]

theorem bumpGen_ushiftRight {x y : BitVec 256} (h : x >>> 16 = y >>> 16) : bumpGen x >>> 16 = bumpGen y >>> 16 := by
  have gen : resGen x = resGen y := by
    refine BitVec.eq_of_getLsbD_eq fun i hi => ?_
    have bit : x.getLsbD (16 + (32 + i)) = y.getLsbD (16 + (32 + i)) := by simpa using congrArg (fun z => z.getLsbD (32 + i)) h
    rw [show 16 + (32 + i) = 48 + i by omega] at bit
    simp [resGen, BitVec.getLsbD_extractLsb', bit]
  simp only [bumpGen, gen]
  exact setField_ushiftRight h 48 16 _

/-- The site of a placement stands in the lowest 16 bits. -/
theorem oneSiteEntry_div (e : BitVec 256) (a b : Nat) : (oneSiteEntry e a).toNat / 2 ^ 16 = (oneSiteEntry e b).toNat / 2 ^ 16 := by
  have low : setField e 0 16 a >>> 16 = setField e 0 16 b >>> 16 := by
    refine BitVec.eq_of_getLsbD_eq fun i hi => ?_
    simp only [BitVec.getLsbD_ushiftRight]
    by_cases top : 16 + i < 256
    · rw [setField_getLsbD _ _ _ _ _ top, setField_getLsbD _ _ _ _ _ top, if_neg (by omega), if_neg (by omega)]
    · rw [BitVec.getLsbD_of_ge _ _ (by omega), BitVec.getLsbD_of_ge _ _ (by omega)]
  have all : oneSiteEntry e a >>> 16 = oneSiteEntry e b >>> 16 :=
    bumpGen_ushiftRight (setField_ushiftRight (setField_ushiftRight (setField_ushiftRight (setField_ushiftRight low _ _ _) _ _ _) _ _ _) _ _ _)
  simpa [BitVec.toNat_ushiftRight, Nat.shiftRight_eq_div_pow] using congrArg BitVec.toNat all

/-! ### What a tile on its site leaves alone -/

theorem stand_mem (s : State) (r : Gang) (p a : Nat) : (s.stand r p a).mem =
    Mem.paste (Mem.clear (Mem.writeN s.mem (mcrKey (0x60000 + a)) 1 0) (tileKey a 0) 65536) (tileKey a 0)
      ((s.getImage p).1.filter fun c => imageMemory c.1) := by
  simp only [stand, installImage, setMcrN, pokeN, zeroRange, modSite_mem, modTile_mem, setTile_mem]

theorem stand_read (s : State) (r : Gang) (p a : Nat) {k : Nat} (h : k < tileBase) : Mem.read (s.stand r p a).mem k = Mem.read s.mem k := by
  have pad : k < tileKey a 0 := by unfold tileKey; omega
  have reg : k < mcrKey (0x60000 + a) := by unfold tileBase at h; unfold mcrKey mcrBase; omega
  rw [stand_mem, Mem.read_paste_below pad, Mem.read_clear_outside (.inl pad), Mem.read_writeN_outside 1 _ 0 (.inl reg)]

theorem stand_wf {s : State} (r : Gang) (p a : Nat) (h : Mem.wf s.mem = true) : Mem.wf (s.stand r p a).mem = true := by
  rw [stand_mem]
  exact Mem.paste_wf _ _ (Mem.clear_wf _ _ (Mem.writeN_wf 1 _ _ h))

theorem stand_poison {s : State} (r : Gang) (p a : Nat) (h : s.poison = []) : (s.stand r p a).poison = [] := by
  simp [stand, installImage, getImage, setMcrN, pokeN, zeroRange, modSite, h, NSet.eraseRange]

theorem stand_tile (s : State) (r : Gang) (p a : Nat) :
    ((s.stand r p a).tile a).vtn = BitVec.ofNat 32 (s.readN (rimKey (p + 0x6304)) 4) ∧
      ((s.stand r p a).tile a).mark = r.mark ∧ ((s.stand r p a).tile a).handle = r.handle := by
  have vtn : Mem.readN (s.getImage p).1 0x6304 4 = s.readN (rimKey (p + 0x6304)) 4 := by
    simp only [getImage, readN, rimKey]
    rw [Mem.readN_slice s.mem 4 0x6304 (by decide)]
  rw [← vtn]
  simp only [stand, installImage, modSite, modTile, setTile, tile, Tab.set_set, Tab.get?_set_self, Option.getD_some, loadTile, and_self]

/-! ### What resuming a run leaves alone -/

/-- Memory, the gangs and the withdrawn requests stand. -/
structure Stays (s t : State) : Prop where
  mem : t.mem = s.mem
  gangs : t.gangs = s.gangs
  away : t.away = s.away

theorem Stays.refl (s : State) : Stays s s := ⟨rfl, rfl, rfl⟩
theorem Stays.trans {s t u : State} (h : Stays s t) (k : Stays t u) : Stays s u :=
  ⟨k.mem.trans h.mem, k.gangs.trans h.gangs, k.away.trans h.away⟩

theorem stays_foldl {α : Type} {f : State → α → State} (h : ∀ s x, Stays s (f s x)) : ∀ (l : List α) (s : State), Stays s (l.foldl f s)
  | [], s => .refl s
  | x :: l, s => (h s x).trans (stays_foldl h l (f s x))

theorem stays_modTile (s : State) (a : Nat) (f : Tile → Tile) : Stays s (s.modTile a f) := ⟨rfl, rfl, rfl⟩
theorem stays_modThread (s : State) (a th : Nat) (f : Thread → Thread) : Stays s (s.modThread a th f) := ⟨rfl, rfl, rfl⟩
theorem stays_withdrawArrival (s : State) (a th : Nat) : Stays s (s.withdrawArrival a th) := stays_modTile s a _

theorem stays_rejoinThread (s : State) (a th : Nat) : Stays s (s.rejoinThread a th) := by
  unfold rejoinThread
  dsimp only
  split
  · exact .refl s
  split
  · exact stays_withdrawArrival s a th
  split
  · split
    · exact stays_modThread s a th _
    · exact stays_withdrawArrival s a th
  · split
    · exact stays_modThread s a th _
    · exact stays_withdrawArrival s a th
  · split
    · exact (stays_modThread s a th _).trans (stays_modTile _ a _)
    · exact stays_withdrawArrival s a th
  · exact stays_withdrawArrival s a th

theorem stays_rejoin (s : State) (a : Nat) : Stays s (s.rejoin a) := stays_foldl (fun s th => stays_rejoinThread s a th) _ s

theorem stays_decideGroup (s : State) (a b : Nat) : Stays s (s.decideGroup a b) := by
  unfold decideGroup
  dsimp only
  split
  · exact ⟨rfl, rfl, rfl⟩
  · exact .refl s

theorem stays_decideTile (s : State) (a : Nat) : Stays s (s.decideTile a) := stays_foldl (fun s b => stays_decideGroup s a b) _ s

theorem stays_returnRequests {s : State} (h : s.away = []) (gid : Word) (n : Nat) : Stays s (s.returnRequests gid n) := by
  unfold returnRequests
  split
  · exact .refl s
  · simp only [h, List.filter_nil, List.foldl_nil]
    exact ⟨rfl, rfl, h.symm⟩

theorem stays_openPads {s : State} (h : s.away = []) (gid : Word) (i : Nat) : Stays s (s.openPads gid i) := by
  unfold openPads
  split
  · exact .refl s
  · next g _ =>
    have opened := stays_foldl (f := fun s b =>
      if s.siteState b == .loaded || s.siteState b == .running then s.modTile b fun t => { t with sealed := false } else s)
      (fun s b => by
        split
        · exact stays_modTile s b _
        · exact .refl s) g.sites s
    exact opened.trans (stays_returnRequests (opened.away.trans h) gid i)

theorem stays_clearTileFault (s : State) (gid : Word) (i : Nat) : Stays s (s.clearTileFault gid i) := ⟨rfl, rfl, rfl⟩

theorem stays_freeSwap (s : State) (b : Option SwapBlock) : Stays s (s.freeSwap b) := by
  cases b <;> exact ⟨rfl, rfl, rfl⟩

/-- Once a run's entry is settled nothing more of memory and gangs changes. -/
theorem stays_settleRun {s : State} {r : Gang} (a : Nat) (h : (s.settleEntry r.handle r.index).away = []) :
    Stays (s.settleEntry r.handle r.index) (s.settleRun r a) :=
  (stays_openPads h _ _).trans <| (stays_clearTileFault _ _ _).trans <| (stays_rejoin _ a).trans <|
    (stays_decideTile _ a).trans (stays_freeSwap _ _)

end State

/-- Grid 1 of VD 0: two gangs of one tile, with the residency table at 0x1000. -/
def strayGrid : Grid := { handle := 1, vd := 0, desc := { gsz := 1, gcnt := 2 }, table := 0x1000, lo := 0, hi := 2, image := some [] }

/-- Its gang 0, swapped out, with its image at 0x2000. -/
def strayRun : Gang := { handle := 1, index := 0, vd := 0, phase := .swappedOut, images := [0x2000], imageBlock := some ⟨0, 0x2000, 0xC000⟩ }

/-- The image names virtual tile 0x10001, of gang 1. The skid header of that gang, at 0xF000, holds one record, which lies at 0x1002, over
the entry of gang 0. VD 0 has every site. -/
def strayState : State :=
  { mem := [(0x1002, 0x10), (0x1010, 0x40), (0x1011, 0x10), (0x1031, 0xF0), (0x8304, 1), (0x8306, 1), (0xF000, 2), (0xF001, 0x10), (0xF010, 1),
      (mcrKey 0x10004, 0xFF), (mcrKey 0x10005, 0xFF)]
    grids := [strayGrid], gangs := [strayRun], swap := [⟨0, 0x1000, 0x100⟩, ⟨0, 0x2000, 0xC000⟩] }

/-- The rim memory above the site field of the entry, once the entry is written. -/
def strayRim : List Host.Cell :=
  [(0x1002, 0x13), (0x1006, 1), (0x1010, 0x40), (0x1011, 0x10), (0x1031, 0xF0), (0x8304, 1), (0x8306, 1), (0xF000, 2), (0xF001, 0x10), (0xF010, 1)]

/-- Memory whose rim is that of a list, from above the site field of the entry. -/
structure RimAs (m c : List Host.Cell) : Prop where
  left : Mem.wf m = true
  right : Mem.wf c = true
  read : ∀ k, 0x1002 ≤ k → k < tileBase → Mem.read m k = Mem.read c k

theorem RimAs.readN {m c : List Host.Cell} (h : RimAs m c) {k n : Nat} (lo : 0x1002 ≤ k) (hi : k + n ≤ tileBase) :
    Mem.readN m k n = Mem.readN c k n :=
  Mem.readN_congr n k fun a _ _ => h.read a (by omega) (by omega)

theorem RimAs.writeN {m c : List Host.Cell} (h : RimAs m c) (k n v : Nat) : RimAs (Mem.writeN m k n v) (Mem.writeN c k n v) where
  left := Mem.writeN_wf n k v h.left
  right := Mem.writeN_wf n k v h.right
  read j lo hi := by
    by_cases inside : k ≤ j ∧ j < k + n
    · obtain ⟨i, rfl⟩ := Nat.exists_eq_add_of_le inside.1
      rw [Mem.read_writeN n k v i h.left (by omega), Mem.read_writeN n k v i h.right (by omega)]
    · rw [Mem.read_writeN_outside n m v (by omega), Mem.read_writeN_outside n c v (by omega), h.read j lo hi]

namespace State

/-- The ring at 0xF000: one slot, at 0x1002, with the count 0 in it. -/
structure StrayRing (s : State) : Prop where
  base : s.ringBase 0xF000 = 0x1002
  cap : s.ringCapOf 0xF000 = 1
  tail : s.ringTail 0xF000 = 1
  head : s.ringHead 0xF000 = 0

theorem StrayRing.of_rim {s : State} {c : List Host.Cell} (h : RimAs s.mem c)
    (eq : Mem.readN c 0xF000 8 = 0x1002 ∧ Mem.readN c 0xF008 4 = 0 ∧ Mem.readN c 0xF010 8 = 1 ∧ Mem.readN c 0xF018 8 = 0) : s.StrayRing := by
  obtain ⟨base, cap, tail, head⟩ := eq
  constructor
  · exact (h.readN (by decide) (by decide)).trans base
  · simp only [ringCapOf, State.readN, rimKey]
    rw [h.readN (by decide) (by decide), cap]
    rfl
  · exact (h.readN (by decide) (by decide)).trans tail
  · exact (h.readN (by decide) (by decide)).trans head

theorem StrayRing.used {s : State} (h : s.StrayRing) : s.ringUsed 0xF000 = 1 := by
  simp only [ringUsed, h.tail, h.head]
  rfl

theorem StrayRing.slot {s : State} (h : s.StrayRing) : s.ringSlot 0xF000 0 = 0x1002 := by
  simp only [ringSlot, h.base, h.cap]
  rfl

theorem StrayRing.record {s : State} {c : List Host.Cell} (h : s.StrayRing) (rim : RimAs s.mem c) :
    s.ringRecord 0xF000 0 = BitVec.ofNat 256 (Mem.readN c 0x1002 32) := by
  simp only [ringRecord, h.slot, State.readN]
  rw [rim.readN (by decide) (by decide)]

/-- The record's kind byte is cleared, and HEAD passes it. -/
theorem consume_stray {s : State} (rim : RimAs s.mem strayRim) (hw : s.watches = []) (hp : s.poison = []) :
    s.consume 0xF000 0 = (s.pokeN 0x1002 1 0).pokeN 0xF018 8 1 := by
  have ring : s.StrayRing := .of_rim rim (by decide +kernel)
  have rim' : RimAs (s.pokeN 0x1002 1 0).mem (Mem.writeN strayRim 0x1002 1 0) := rim.writeN 0x1002 1 0
  have ring' : (s.pokeN 0x1002 1 0).StrayRing := .of_rim rim' (by decide +kernel)
  have gone : recKind ((s.pokeN 0x1002 1 0).ringRecord 0xF000 0) = 0 := by
    rw [ring'.record rim']
    decide +kernel
  simp only [consume, ring.slot, store_eq_pokeN hw hp, ring'.used, ring'.cap, min_self, advanceHead, ring'.head, gone, if_true, one_ne_zero,
    if_false]
  exact store_eq_pokeN (s := s.pokeN 0x1002 1 0) hw hp (rimKey (0xF000 + 24)) 8 1

/-- The record's kind is the byte of the entry that holds RES and MOVE; no record of that kind does anything. -/
theorem recKind_stray {s : State} (rim : RimAs s.mem strayRim) : recKind (s.ringRecord 0xF000 0) = 19 := by
  rw [(StrayRing.of_rim rim (by decide +kernel)).record rim]
  decide +kernel

theorem ringLive_stray {s : State} (rim : RimAs s.mem strayRim) : s.ringLive 0xF000 = [0] := by
  have ring : s.StrayRing := .of_rim rim (by decide +kernel)
  simp [ringLive, ring.used, ring.cap, ring.head, recKind_stray rim]

/-- The stray tile takes a record of the other gang, which is the entry of its own. -/
theorem replaySkid_stray {s : State} {a : Nat} (rim : RimAs s.mem strayRim) (hw : s.watches = []) (hp : s.poison = [])
    (grids : s.grids = [strayGrid]) (vtn : (s.tile a).vtn = 0x10001) (mark : (s.tile a).mark = .original) (handle : (s.tile a).handle = 1) :
    s.replaySkid a = ((s.pokeN 0x1002 1 0).pokeN 0xF018 8 1).modTile a fun t => { t with replaying := !t.evalQ.isEmpty } := by
  have ring : s.StrayRing := .of_rim rim (by decide +kernel)
  have grid : s.grid? 1 = some strayGrid := by
    simp only [grid?, grids]
    rfl
  have hdr : resSkidPa (s.residency strayGrid 1) = 0xF000 := by
    simp only [residency, State.readN]
    rw [rim.readN (by decide) (by decide)]
    decide +kernel
  have kind := recKind_stray rim
  have rank : recRank (s.ringRecord 0xF000 0) = 1 := by
    rw [ring.record rim]
    decide +kernel
  have nothing : s.replayOne a (s.ringSlot 0xF000 0) (s.ringRecord 0xF000 0) = (s, true) := by
    simp only [replayOne, kind]
  have list : s.replayList a 0xF000 false [0] = (s.pokeN 0x1002 1 0).pokeN 0xF018 8 1 := by
    simp [replayList, nothing, kind, rank, vtn, consume_stray rim hw hp, rankOf]
  simp only [replaySkid, handle, grid, mark, vtn]
  rw [show gangOf (0x10001 : BitVec 32) = 1 by decide, hdr, ringLive_stray rim, list]
  rfl

/-! ### Frames of the steps of a swap-in -/

theorem pokeN_mem_eq (s : State) (k n v : Nat) : (s.pokeN k n v).mem = Mem.writeN s.mem k n v := rfl

theorem stand_watches (s : State) (r : Gang) (p a : Nat) : (s.stand r p a).watches = s.watches := by
  simp only [stand, installImage, setMcrN, pokeN, zeroRange, modSite_watches, modTile_watches, setTile_watches]
theorem stand_grids (s : State) (r : Gang) (p a : Nat) : (s.stand r p a).grids = s.grids := by
  simp only [stand, installImage, setMcrN, pokeN, zeroRange, modSite_grids, modTile_grids, setTile_grids]
theorem stand_gangs (s : State) (r : Gang) (p a : Nat) : (s.stand r p a).gangs = s.gangs := by
  simp only [stand, installImage, setMcrN, pokeN, zeroRange, modSite_gangs, modTile_gangs, setTile_gangs]
theorem stand_away (s : State) (r : Gang) (p a : Nat) : (s.stand r p a).away = s.away := by
  simp only [stand, installImage, setMcrN, pokeN, zeroRange, modSite_away, modTile_away, setTile_away]

theorem reside_mem (s : State) (r : Gang) (b : Option SwapBlock) (a : Nat) : (s.reside r b a).mem = s.mem := rfl
theorem reside_tile (s : State) (r : Gang) (b : Option SwapBlock) (a c : Nat) : (s.reside r b a).tile c = s.tile c := rfl
theorem reside_watches (s : State) (r : Gang) (b : Option SwapBlock) (a : Nat) : (s.reside r b a).watches = s.watches := rfl
theorem reside_poison (s : State) (r : Gang) (b : Option SwapBlock) (a : Nat) : (s.reside r b a).poison = s.poison := rfl
theorem reside_grids (s : State) (r : Gang) (b : Option SwapBlock) (a : Nat) : (s.reside r b a).grids = s.grids := rfl
theorem reside_away (s : State) (r : Gang) (b : Option SwapBlock) (a : Nat) : (s.reside r b a).away = s.away := rfl

theorem execGangSwapIn_restores {s : State} {h : Word} {n : Nat} {g : Grid} {r : Gang} {l : List Nat} (run : s.runOf h n = some r)
    (grid : s.grid? h = some g) (out : r.phase = .swappedOut) (dormant : r.dormant = false) (cancel : r.cancelTrap = false)
    (turn : s.swapInTurn r = true) (place : s.placeAny r.vd (s.runAvoid r) g.desc.gsz = some l) (leaves : s.leavesRerun r.vd l = true)
    (kept : g.cancelled = false) : execGangSwapIn h n s = .next (s.restoreOn g r l) := by
  simp [execGangSwapIn, run, grid, out, dormant, cancel, turn, place, leaves, kept, Option.filter]

/-! ### The swapped-out gang has its turn -/

theorem strayState_placeable {a : Nat} (good : siteDefective a = false) : strayState.placeable a = true := by
  have site : strayState.site a = {} := rfl
  have withheld : strayState.withheld = [] := rfl
  have on : Mem.read strayState.mem (mcrKey (0x60000 + a)) = 0 := by
    simp only [strayState, Mem.read, mcrKey, mcrBase]
    repeat rw [if_neg (by omega)]
  have power : strayState.powerOff a = false := by simp [powerOff, mcrN, State.readN, Mem.readN, on]
  simp [placeable, siteState, site, good, power, withheld]

/-- The gang finds one site. -/
theorem strayState_place : ∃ a, strayState.placeAny 0 [] 1 = some [a] := by
  obtain ⟨a, lt, good⟩ := exists_not_defective
  have base : strayState.vdPbase 0 = 0 := by decide +kernel
  have len : strayState.vdPlen 0 = 65536 := by decide +kernel
  obtain ⟨l, some_⟩ := Option.isSome_iff_exists.1 (placeAny_isSome (vd := 0) (by omega) (by omega) lt (strayState_placeable good))
  obtain ⟨b, rfl⟩ := List.length_eq_one_iff.1 (placeAny_length some_)
  exact ⟨b, some_⟩

theorem strayState_grid : strayState.grid? 1 = some strayGrid := by decide +kernel

theorem strayState_waits : strayState.runOf 1 0 = some strayRun ∧ strayState.swapInTurn strayRun = true ∧ strayState.rerunShort 0 = false := by
  decide +kernel

theorem execGangSwapIn_stray {a : Nat} (place : strayState.placeAny 0 [] 1 = some [a]) :
    execGangSwapIn 1 0 strayState = .next (strayState.restoreOn strayGrid strayRun [a]) := by
  obtain ⟨run, turn, short⟩ := strayState_waits
  have leaves : strayState.leavesRerun 0 [a] = true := by simp only [leavesRerun, short, Bool.false_eq_true, if_false]
  exact execGangSwapIn_restores run strayState_grid rfl rfl rfl turn place leaves rfl

/-! ### The entry is spoilt on the way -/

/-- The entry of gang 0 is written. -/
def strayEntered (a : Nat) : State := strayState.pokeN 0x1000 32 (oneSiteEntry (strayState.residency strayGrid 0) a).toNat

/-- The tile stands on its site, and the gang's record says so. -/
def strayPlaced (a : Nat) : State := ((strayEntered a).stand strayRun 0x2000 a).reside strayRun none a

theorem restoreOn_stray (a : Nat) : strayState.restoreOn strayGrid strayRun [a] = ((strayPlaced a).replaySkid a).settleRun strayRun a :=
  restoreOn_one rfl rfl rfl (placeEntry_one strayState_grid rfl rfl rfl 0 a)

theorem strayState_wf : Mem.wf strayState.mem = true := by decide +kernel

theorem strayEntered_read (a k : Nat) (lo : 0x1002 ≤ k) (hi : k < tileBase) :
    Mem.read (Mem.writeN strayState.mem 0x1000 32 (oneSiteEntry (strayState.residency strayGrid 0) a).toNat) k = Mem.read strayRim k := by
  by_cases inside : k < 0x1020
  · obtain ⟨i, rfl⟩ := Nat.exists_eq_add_of_le lo
    have bytes : ∀ i < 30, BitVec.ofNat 8 ((oneSiteEntry (strayState.residency strayGrid 0) 0).toNat / 2 ^ 16 / 256 ^ i) =
        Mem.read strayRim (0x1002 + i) := by decide +kernel
    rw [← bytes i (by omega), oneSiteEntry_div _ 0 a, show 0x1002 + i = 0x1000 + (i + 2) by omega,
      Mem.read_writeN 32 0x1000 _ (i + 2) strayState_wf (by omega), Nat.div_div_eq_div_mul, Nat.pow_add,
      Nat.mul_comm (256 ^ i), show 256 ^ 2 = 2 ^ 16 from rfl]
  · let p : Host.Cell → Bool := fun c => decide (0x1020 ≤ c.1) && decide (c.1 < tileBase)
    have same : strayState.mem.filter p = strayRim.filter p := by decide +kernel
    have in_ : ∀ b, p (k, b) = true := fun b => by simp only [p, Bool.and_eq_true, decide_eq_true_eq]; omega
    rw [Mem.read_writeN_outside 32 _ _ (by omega), ← Mem.read_filter in_, same, Mem.read_filter in_]

theorem strayEntered_rim (a : Nat) : RimAs (strayEntered a).mem strayRim := by
  rw [strayEntered, pokeN_mem_eq]
  exact ⟨Mem.writeN_wf 32 _ _ strayState_wf, by decide +kernel, strayEntered_read a⟩

theorem strayPlaced_rim (a : Nat) : RimAs (strayPlaced a).mem strayRim := by
  rw [strayPlaced, reside_mem]
  exact ⟨stand_wf strayRun 0x2000 a (strayEntered_rim a).left, (strayEntered_rim a).right,
    fun k lo hi => (stand_read _ _ _ _ hi).trans ((strayEntered_rim a).read k lo hi)⟩

/-- No watch is held, no doubleword is poisoned, one grid stands, and no request is withdrawn. -/
theorem strayPlaced_rest (a : Nat) : (strayPlaced a).watches = [] ∧ (strayPlaced a).poison = [] ∧ (strayPlaced a).grids = [strayGrid] ∧
    (strayPlaced a).away = [] := by
  refine ⟨?_, ?_, ?_, ?_⟩
  · rw [strayPlaced, reside_watches, stand_watches]; rfl
  · rw [strayPlaced, reside_poison, stand_poison strayRun 0x2000 a rfl]
  · rw [strayPlaced, reside_grids, stand_grids]; rfl
  · rw [strayPlaced, reside_away, stand_away]; rfl

/-- The gang's record as a swap-in leaves it. -/
def strayResident (a : Nat) : Gang :=
  { strayRun with phase := .resident, sites := [a], history := [a], images := [], imageBlock := none, skipBlock := none }

theorem strayPlaced_gangs (a : Nat) : (strayPlaced a).gangs = [strayResident a] := by
  have one : ((strayEntered a).stand strayRun 0x2000 a).gangs = [strayRun] := by rw [stand_gangs]; rfl
  simp only [strayPlaced, reside, modRun, one]
  rfl

theorem strayPlaced_replaySkid (a : Nat) : (strayPlaced a).replaySkid a =
    (((strayPlaced a).pokeN 0x1002 1 0).pokeN 0xF018 8 1).modTile a fun t => { t with replaying := !t.evalQ.isEmpty } := by
  obtain ⟨watches, poison, grids, -⟩ := strayPlaced_rest a
  obtain ⟨vtn, mark, handle⟩ := stand_tile (strayEntered a) strayRun 0x2000 a
  have named : (strayEntered a).readN (rimKey (0x2000 + 0x6304)) 4 = 0x10001 :=
    ((strayEntered_rim a).readN (by decide) (by decide)).trans (by decide +kernel)
  rw [named] at vtn
  refine replaySkid_stray (strayPlaced_rim a) watches poison grids ?_ ?_ ?_
  · rw [strayPlaced, reside_tile, vtn]; rfl
  · rw [strayPlaced, reside_tile, mark]; rfl
  · rw [strayPlaced, reside_tile, handle]; rfl

/-- An entry whose RES is 0 settles with RES = 0. -/
theorem entryN_settleEntry {s : State} {g : Grid} {h : Word} {i : Nat} (hs : s.settleEntry h i =
      s.pokeN (rimKey (g.table + 32 * i)) 32 (bumpGen (setMove false (s.residency g i))).toNat) (wf : Mem.wf s.mem = true)
    (marks : Mem.read s.mem (rimKey (g.table + 32 * i) + 2) = 0) : entryN (s.settleEntry h i) g i / 2 ^ 16 % 2 = 0 := by
  have byte := Mem.readN_div_byte s.mem (rimKey (g.table + 32 * i)) 29
  rw [marks] at byte
  have even : s.readN (rimKey (g.table + 32 * i)) 32 / 2 ^ 16 % 2 = 0 := by
    have : s.readN (rimKey (g.table + 32 * i)) 32 / 2 ^ 16 % 256 = 0 := byte
    omega
  have res : (s.residency g i).getLsbD 16 = false := by
    rw [residency, BitVec.getLsbD_ofNat, Bool.and_eq_false_iff, Nat.testBit_eq_decide_div_mod_eq, even]
    exact .inr rfl
  have kept : (bumpGen (setMove false (s.residency g i))).getLsbD 16 = false := by
    rw [bumpGen, setField_getLsbD _ _ _ _ _ (by omega), if_neg (by omega), setMove, setField_getLsbD _ _ _ _ _ (by omega), if_neg (by omega), res]
  have entry : entryN (s.settleEntry h i) g i = (bumpGen (setMove false (s.residency g i))).toNat := by
    rw [hs, entryN, State.readN, pokeN_mem_eq, Mem.readN_writeN 32 _ _ wf]
    exact Nat.mod_eq_of_lt (lt_of_lt_of_eq (BitVec.isLt _) (by norm_num))
  rw [BitVec.getLsbD, Nat.testBit_eq_decide_div_mod_eq] at kept
  rw [entry]
  simpa using kept

theorem gang?_of_gangs {s : State} {r : Gang} {h : Word} {i : Nat} (gangs : s.gangs = [r]) (handle : r.handle = h) (index : r.index = i)
    (mark : r.mark = .original) : s.gang? h i = some r := by
  simp [gang?, gangs, handle, index, mark]

/-- The machine after the replay. -/
def strayReplayed (a : Nat) : State := (strayPlaced a).replaySkid a

theorem strayReplayed_mem (a : Nat) :
    (strayReplayed a).mem = Mem.writeN (Mem.writeN (strayPlaced a).mem 0x1002 1 0) 0xF018 8 1 := by
  rw [strayReplayed, strayPlaced_replaySkid, modTile_mem, pokeN_mem_eq, pokeN_mem_eq]

theorem strayReplayed_gangs (a : Nat) : (strayReplayed a).gangs = [strayResident a] := by
  rw [strayReplayed, strayPlaced_replaySkid, modTile_gangs, pokeN_gangs, pokeN_gangs, strayPlaced_gangs]

theorem strayReplayed_rest (a : Nat) : (strayReplayed a).watches = [] ∧ (strayReplayed a).poison = [] ∧ (strayReplayed a).grids = [strayGrid] ∧
    (strayReplayed a).away = [] := by
  rw [strayReplayed, strayPlaced_replaySkid]
  exact strayPlaced_rest a

theorem strayReplayed_wf (a : Nat) : Mem.wf (strayReplayed a).mem = true := by
  rw [strayReplayed_mem]
  exact Mem.writeN_wf 8 _ _ (Mem.writeN_wf 1 _ _ (strayPlaced_rim a).left)

/-- RES and MOVE of the entry are gone: their byte was the record's kind. -/
theorem strayReplayed_marks (a : Nat) : Mem.read (strayReplayed a).mem 0x1002 = 0 := by
  rw [strayReplayed_mem, Mem.read_writeN_outside 8 _ _ (by omega)]
  exact Mem.read_writeN 1 0x1002 0 0 (strayPlaced_rim a).left (by omega)

theorem strayReplayed_settleEntry (a : Nat) : (strayReplayed a).settleEntry 1 0 = (strayReplayed a).pokeN (rimKey (strayGrid.table + 32 * 0)) 32
    (bumpGen (setMove false ((strayReplayed a).residency strayGrid 0))).toNat := by
  obtain ⟨watches, poison, grids, -⟩ := strayReplayed_rest a
  refine modEntry_eq_pokeN ?_ rfl watches poison 0 _
  rw [grid?, grids]
  rfl

end State

/-- What the swap-in of the stray image comes to: gang 0 is resident, and its entry holds RES = 0. -/
theorem execGangSwapIn_spoils : ∃ t r, execGangSwapIn 1 0 strayState = .next t ∧ t.gang? 1 0 = some r ∧ r.phase = .resident ∧
    entryN t strayGrid 0 / 2 ^ 16 % 2 = 0 := by
  obtain ⟨a, place⟩ := State.strayState_place
  have settled := State.strayReplayed_settleEntry a
  have stays : State.Stays ((State.strayReplayed a).settleEntry 1 0) ((State.strayReplayed a).settleRun strayRun a) := by
    refine State.stays_settleRun (r := strayRun) a ?_
    obtain ⟨-, -, -, away⟩ := State.strayReplayed_rest a
    exact (congrArg State.away settled).trans away
  have gangs : ((State.strayReplayed a).settleRun strayRun a).gangs = [State.strayResident a] := by
    rw [stays.gangs, settled, State.pokeN_gangs, State.strayReplayed_gangs]
  have entry := State.entryN_settleEntry settled (State.strayReplayed_wf a) (State.strayReplayed_marks a)
  rw [entryN, State.readN, ← stays.mem] at entry
  exact ⟨_, State.strayResident a, (State.execGangSwapIn_stray place).trans (congrArg _ (State.restoreOn_stray a)),
    State.gang?_of_gangs gangs rfl rfl rfl, rfl, entry⟩

theorem strayState_calm : calmGang strayState strayGrid 0 :=
  ⟨State.strayState_wf, rfl, rfl, State.strayState_grid, rfl, by decide, by decide, by decide, by decide, by decide +kernel, by decide +kernel,
    ⟨0, 0x1000, 0x100⟩, by decide +kernel⟩

theorem not_gangSwapsIn : ¬ gangSwapsIn := by
  intro h
  obtain ⟨t, r', step, gang, resident, res⟩ := execGangSwapIn_spoils
  have image : ∀ p ∈ strayRun.images, 0x2000 ≤ p ∧ p + 49152 ≤ 0x2000 + 0xC000 := by decide
  obtain ⟨entry, -⟩ := h strayState t strayGrid strayRun r' ⟨0, 0x2000, 0xC000⟩ strayState_calm rfl rfl rfl (by decide +kernel) rfl rfl rfl
    (by decide) image (by decide) rfl (by decide) (by decide) step gang resident
  have : entryN t strayGrid 0 / 2 ^ 16 % 4 = 1 := entry
  omega

/-- Refutes O59: a swap-in whose image names a virtual tile of another gang replays that gang's skid queue; where the queue's one record lies over
the entry of the gang that comes back, consuming the record clears RES, and the entry settles with RES = 0. No hypothesis of `gangSwapsIn` ties
the image to its gang before the clause on the entry, and `calmGang` speaks of the gang's own skid queue alone. -/
theorem not_gangContent : ¬ Obligations.GangContent := by
  unfold Obligations.GangContent
  rintro ⟨-, -, -, swapsIn, -, -⟩
  exact not_gangSwapsIn swapsIn

end Sys2Proof.Machine
end

section
/-! Reading back the prefixes of an encoding (R29 to R35, R58): the four kinds of halfword before the base word that `encode` writes, in its order, leave the
decoder with the payloads they were made of, and an immediate that fits comes out of its pieces whole. -/

namespace Sys2Proof

/-! ### One halfword of a chain -/

/-- A halfword before the base word: major 0xF, its kind and its payload (R29). -/
def prefixHalf (kind : BitVec 2) (d : BitVec 10) : Half := 0xF#4 ++ kind ++ d

theorem isPrefixWord_prefixHalf (kind : BitVec 2) (d : BitVec 10) : isPrefixWord (prefixHalf kind d) = true := by
  have major : majorOf (prefixHalf kind d) = 0xF#4 :=
    (BitVec.extractLsb'_append_eq_of_le (by decide)).trans BitVec.extractLsb'_append_eq_left
  simp [isPrefixWord, major]

theorem payload_prefixHalf (kind : BitVec 2) (d : BitVec 10) : (prefixHalf kind d).extractLsb' 0 10 = d := BitVec.extractLsb'_append_eq_right

theorem kind_prefixHalf (kind : BitVec 2) (d : BitVec 10) : (prefixHalf kind d).extractLsb' 10 2 = kind :=
  (BitVec.extractLsb'_append_eq_of_le (by decide)).trans BitVec.extractLsb'_append_eq_right

/-- What `encode` writes for a payload under the bits of its kind. -/
theorem or_setWidth_eq_prefixHalf (kind : BitVec 2) (d : BitVec 10) :
    ((0xF#4 ++ kind ++ 0#10 : Half) ||| d.setWidth 16) = prefixHalf kind d := by
  apply BitVec.eq_of_getLsbD_eq
  intro i hi
  simp only [prefixHalf, BitVec.getLsbD_or, BitVec.getLsbD_append, BitVec.getLsbD_setWidth, BitVec.getLsbD_zero, hi]
  by_cases h : i < 10
  · simp [h]
  · simp [h, BitVec.getLsbD_of_ge d i (by omega)]

theorem imx_half (d : BitVec 10) : (0xF000#16 ||| d.setWidth 16) = prefixHalf 0 d := or_setWidth_eq_prefixHalf 0 d
theorem regx_half (d : BitVec 10) : ((0xF400 : Half) ||| d.setWidth 16) = prefixHalf 1 d := or_setWidth_eq_prefixHalf 1 d
theorem page_half (d : BitVec 10) : ((0xF800 : Half) ||| d.setWidth 16) = prefixHalf 2 d := or_setWidth_eq_prefixHalf 2 d
theorem mod_half (d : BitVec 10) : ((0xFC00 : Half) ||| d.setWidth 16) = prefixHalf 3 d := or_setWidth_eq_prefixHalf 3 d

namespace Prefixes

theorem push_imx {p : Prefixes} (d : BitVec 10) (room : p.count < 4) (few : p.imx.length < 3) :
    p.push (prefixHalf 0 d) = some { p with imx := p.imx ++ [d], count := p.count + 1 } := by
  simp [push, payload_prefixHalf, kind_prefixHalf, Nat.not_le.2 room, Nat.not_le.2 few]

theorem push_regx {p : Prefixes} (d : BitVec 10) (room : p.count < 4) (first : p.regx = none) :
    p.push (prefixHalf 1 d) = some { p with regx := some d, count := p.count + 1 } := by
  simp [push, payload_prefixHalf, kind_prefixHalf, Nat.not_le.2 room, first]

theorem push_page {p : Prefixes} (d : BitVec 10) (room : p.count < 4) (first : p.page = none) :
    p.push (prefixHalf 2 d) = some { p with page := some d, count := p.count + 1 } := by
  simp [push, payload_prefixHalf, kind_prefixHalf, Nat.not_le.2 room, first]

theorem push_mod {p : Prefixes} (d : BitVec 10) (room : p.count < 4) (first : p.modp = none) :
    p.push (prefixHalf 3 d) = some { p with modp := some d, count := p.count + 1 } := by
  simp [push, payload_prefixHalf, kind_prefixHalf, Nat.not_le.2 room, first]

end Prefixes

theorem decodeFrom_prefix {p p' : Prefixes} {kind : BitVec 2} {d : BitVec 10} (h : p.push (prefixHalf kind d) = some p') (tl : List Half) :
    decodeFrom p (prefixHalf kind d :: tl) = decodeFrom p' tl := by
  simp [decodeFrom, Prefixes.feed, isPrefixWord_prefixHalf, h]

theorem decodeFrom_base {p : Prefixes} {w : Half} {i : Instr} (last : isPrefixWord w = false) (h : decodeBase p w = some i) (tl : List Half) :
    decodeFrom p (w :: tl) = .ok (i, tl) := by
  simp [decodeFrom, Prefixes.feed, last, h]

/-! ### A halfword that is left out where its payload is zero -/

/-- The payload that the decoder keeps of a halfword that `encode` may leave out (R58). -/
def kept (d : BitVec 10) : Option (BitVec 10) := if d == 0 then none else some d

@[simp] theorem getD_kept (d : BitVec 10) : (kept d).getD 0#10 = d := by
  by_cases h : d = 0#10 <;> simp [kept, h]

section
variable {p : Prefixes} {d : BitVec 10} {tl : List Half}

theorem decodeFrom_prefixWord_mod (room : p.count + (prefixWord 0xFC00 d).length ≤ 4) (first : p.modp = none) :
    decodeFrom p (prefixWord 0xFC00 d ++ tl) =
      decodeFrom { p with modp := kept d, count := p.count + (prefixWord 0xFC00 d).length } tl := by
  by_cases h : d = 0
  · simp [prefixWord, kept, h, ← first]
  · simp only [prefixWord, kept, beq_iff_eq, h, if_false, mod_half] at room ⊢
    exact decodeFrom_prefix (Prefixes.push_mod d room first) tl

theorem decodeFrom_prefixWord_page (room : p.count + (prefixWord 0xF800 d).length ≤ 4) (first : p.page = none) :
    decodeFrom p (prefixWord 0xF800 d ++ tl) =
      decodeFrom { p with page := kept d, count := p.count + (prefixWord 0xF800 d).length } tl := by
  by_cases h : d = 0
  · simp [prefixWord, kept, h, ← first]
  · simp only [prefixWord, kept, beq_iff_eq, h, if_false, page_half] at room ⊢
    exact decodeFrom_prefix (Prefixes.push_page d room first) tl

theorem decodeFrom_prefixWord_regx (room : p.count + (prefixWord 0xF400 d).length ≤ 4) (first : p.regx = none) :
    decodeFrom p (prefixWord 0xF400 d ++ tl) =
      decodeFrom { p with regx := kept d, count := p.count + (prefixWord 0xF400 d).length } tl := by
  by_cases h : d = 0
  · simp [prefixWord, kept, h, ← first]
  · simp only [prefixWord, kept, beq_iff_eq, h, if_false, regx_half] at room ⊢
    exact decodeFrom_prefix (Prefixes.push_regx d room first) tl
end

/-! ### The pieces of an immediate -/

/-- The payloads of the IMX prefixes of an immediate, the most significant first (R30). -/
def imxPayloads (width : Nat) (v : Word) : Nat → List (BitVec 10)
  | 0 => []
  | n + 1 => (v >>> (width + 10 * n)).setWidth 10 :: imxPayloads width v n

@[simp] theorem length_imxPayloads (width : Nat) (v : Word) (n : Nat) : (imxPayloads width v n).length = n := by
  induction n with
  | zero => rfl
  | succ n ih => simp [imxPayloads, ih]

@[simp] theorem length_imxWords (width : Nat) (v : Word) (n : Nat) : (imxWords width v n).length = n := by
  induction n with
  | zero => rfl
  | succ n ih => simp [imxWords, ih]

theorem decodeFrom_imxWords {width : Nat} {v : Word} {tl : List Half} (n : Nat) :
    ∀ {p : Prefixes}, p.count + n ≤ 4 → p.imx.length + n ≤ 3 →
      decodeFrom p (imxWords width v n ++ tl) = decodeFrom { p with imx := p.imx ++ imxPayloads width v n, count := p.count + n } tl := by
  induction n with
  | zero => simp [imxWords, imxPayloads]
  | succ n ih =>
    intro p room few
    simp only [imxWords, imxPayloads, imx_half, List.cons_append]
    rw [decodeFrom_prefix (Prefixes.push_imx _ (by omega) (by omega)), ih (by simp; omega) (by simp; omega)]
    simp [Nat.add_assoc, Nat.add_comm 1 n]

theorem foldl_imxPayloads (width : Nat) (v : Word) (n : Nat) : ∀ a : Nat,
    (imxPayloads width v n).foldl (fun a d => a * 1024 + d.toNat) a = a * 1024 ^ n + v.toNat / 2 ^ width % 1024 ^ n := by
  induction n with
  | zero => simp [imxPayloads, Nat.mod_one]
  | succ n ih =>
    intro a
    have top : v.toNat / 2 ^ (width + 10 * n) = v.toNat / 2 ^ width / 1024 ^ n := by
      rw [Nat.pow_add, Nat.pow_mul, Nat.div_div_eq_div_mul]
    simp only [imxPayloads, List.foldl_cons, ih, BitVec.toNat_setWidth, BitVec.toNat_ushiftRight, Nat.shiftRight_eq_div_pow, top]
    rw [pow_succ 1024 n, Nat.mod_mul]
    ring

/-- The payloads and the base field together are the low bits of the immediate. -/
theorem pieces_eq_mod (width : Nat) (v : Word) (n : Nat) :
    (imxPayloads width v n).foldl (fun a d => a * 1024 + d.toNat) 0 * 2 ^ width + v.toNat % 2 ^ width = v.toNat % 2 ^ (10 * n + width) := by
  rw [foldl_imxPayloads, Nat.pow_add, Nat.pow_mul, Nat.mul_comm (_ ^ n), Nat.mod_mul]
  ring

/-- An unsigned value is what its low bits extend to, where it fits (R30). -/
theorem extendImm_unsigned {bits : Nat} {v : Word} (h : v.toNat < 2 ^ bits) : extendImm false bits (v.toNat % 2 ^ bits) = v := by
  simp [extendImm, Nat.mod_eq_of_lt h]

/-- A signed value is what its low bits extend to, where it fits (R30): a negative one has the top bit of the field set. -/
theorem extendImm_signed {k : Nat} {v : Word} (small : k < 64) (lo : -(2 ^ k : Nat) ≤ v.toInt) (hi : v.toInt < (2 ^ k : Nat)) :
    extendImm true (k + 1) (v.toNat % 2 ^ (k + 1)) = v := by
  have double : 2 ^ (k + 1) = 2 * 2 ^ k := by ring
  by_cases pos : 2 * v.toNat < 2 ^ 64
  · have value : v.toInt = v.toNat := BitVec.toInt_eq_toNat_of_lt pos
    have low : v.toNat % 2 ^ (k + 1) = v.toNat := Nat.mod_eq_of_lt (by omega)
    have plain : ¬ 2 ^ k ≤ v.toNat := by omega
    simp [extendImm, low, plain]
  · have value : v.toInt = (v.toNat : Int) - (2 ^ 64 : Nat) := by rw [BitVec.toInt_eq_toNat_cond, if_neg pos]
    obtain ⟨q, hq⟩ : (2 : Nat) ^ (k + 1) ∣ 2 ^ 64 := pow_dvd_pow 2 small
    have low : v.toNat % 2 ^ (k + 1) = v.toNat + 2 ^ (k + 1) - 2 ^ 64 := by
      have split : v.toNat + 2 ^ (k + 1) = v.toNat + 2 ^ (k + 1) - 2 ^ 64 + 2 ^ (k + 1) * q := by omega
      rw [← Nat.add_mod_right, split, Nat.add_mul_mod_self_left, ← split, Nat.mod_eq_of_lt (by omega)]
    have top : 2 ^ k ≤ v.toNat % 2 ^ (k + 1) := by omega
    have back : ((v.toNat % 2 ^ (k + 1) : Nat) : Int) - (2 ^ (k + 1) : Nat) = v.toInt := by omega
    simp only [extendImm, Nat.add_sub_cancel, Bool.true_and, decide_eq_true_eq, if_pos top, back, BitVec.ofInt_toInt]

/-- A value that fits in a field is what its low bits extend to (R30). -/
theorem extendImm_of_fits {signed : Bool} {bits : Nat} {v : Word} (pos : 0 < bits) (small : bits ≤ 64) (h : fitsImm signed bits v = true) :
    extendImm signed bits (v.toNat % 2 ^ bits) = v := by
  obtain ⟨k, rfl⟩ : ∃ k, bits = k + 1 := ⟨bits - 1, by omega⟩
  cases signed with
  | false => exact extendImm_unsigned (by simpa [fitsImm] using h)
  | true =>
    obtain ⟨lo, hi⟩ : -(2 ^ k : Nat) ≤ v.toInt ∧ v.toInt < (2 ^ k : Nat) := by simpa [fitsImm] using h
    exact extendImm_signed small lo hi

/-- As many IMX prefixes as `imxCount` counts make room for the immediate. -/
theorem fits_imxCount {b : BaseWord} (wide : b.width ≠ 0) (few : imxCount b ≤ 3) : fitsImm b.signed (b.width + 10 * imxCount b) b.value = true := by
  revert few
  unfold imxCount
  split_ifs with h0 h1 h2 h3 h4
  · exact absurd (by simpa using h0) wide
  · exact fun _ => h1
  · exact fun _ => h2
  · exact fun _ => h3
  · exact fun _ => h4
  · omega

end Sys2Proof
end

section
/-! The tables of R45 to R54 read back: a base word of `Instr.enc`, behind the prefixes that go with it, decodes to its instruction. The three
operand layouts are read once each; a table is then a look-up of its page and function. -/

namespace Sys2Proof

/-- The prefixes read so far are those of an encoding: its page, its register parts, its chain, and an immediate that comes out whole. -/
structure Prefixes.Carry (p : Prefixes) (c : Chain) (e : Enc) : Prop where
  page : p.pageNo = e.page.toNat
  regx : p.regx.getD 0 = e.regx
  chain : p.chain e.base.half = c
  immediate : e.base.width ≠ 0 → p.immediate e.base.signed e.base.width (e.base.value.toNat % 2 ^ e.base.width) = e.base.value

/-- The base word of an instruction decodes to it behind prefixes that carry the rest of its encoding. -/
structure Decodes (i : Instr) : Prop where
  base : ∀ (p : Prefixes) (e : Enc), i.wf = true → i.enc = some e → p.Carry i.chain e → decodeBase p e.base.half = some i

theorem decodes_of_enc {i : Instr} {e : Enc} (c : Chain) (he : i.enc = some e) (hc : i.chain = c)
    (h : ∀ p : Prefixes, p.Carry c e → i.wf = true → decodeBase p e.base.half = some i) : Decodes i where
  base p e' hw he' hp := by
    obtain rfl : e = e' := Option.some.inj (he.symm.trans he')
    exact h p (hc ▸ hp) hw

/-! ### The fields of the layouts (R28) -/

@[simp] theorem hi_append_lo (x : RegNum) : (x.extractLsb' 3 3 ++ x.extractLsb' 0 3 : RegNum) = x := BitVec.extractLsb'_append_extractLsb' (w := 3) (len := 3)

section
variable (m : BitVec 4) (x y z f : BitVec 3) (g : BitVec 6)

theorem fieldX_rrr : fieldX (rrr m x y z f) = x := by
  unfold fieldX rrr
  iterate 3 rw [BitVec.extractLsb'_append_eq_of_le (by decide)]
  exact BitVec.extractLsb'_append_eq_right
theorem fieldY_rrr : fieldY (rrr m x y z f) = y := by
  unfold fieldY rrr
  iterate 2 rw [BitVec.extractLsb'_append_eq_of_le (by decide)]
  exact BitVec.extractLsb'_append_eq_right
theorem fieldZ_rrr : fieldZ (rrr m x y z f) = z :=
  (BitVec.extractLsb'_append_eq_of_le (by decide)).trans BitVec.extractLsb'_append_eq_right
theorem fn3_rrr : fn3 (rrr m x y z f) = f := BitVec.extractLsb'_append_eq_right

theorem fieldX_rrf : fieldX (rrf m x y g) = x := by
  unfold fieldX rrf
  iterate 2 rw [BitVec.extractLsb'_append_eq_of_le (by decide)]
  exact BitVec.extractLsb'_append_eq_right
theorem fieldY_rrf : fieldY (rrf m x y g) = y :=
  (BitVec.extractLsb'_append_eq_of_le (by decide)).trans BitVec.extractLsb'_append_eq_right
theorem fn6_rrf : fn6 (rrf m x y g) = g := BitVec.extractLsb'_append_eq_right
end

section
variable {p : Prefixes} {x y z : BitVec 3} (h : p.regx.getD 0 = regxOf x y z)
include h

theorem hiX_of_regx : p.hiX = x := by
  unfold Prefixes.hiX
  rw [h]
  unfold regxOf
  iterate 2 rw [BitVec.extractLsb'_append_eq_of_le (by decide)]
  exact BitVec.extractLsb'_append_eq_left
theorem hiY_of_regx : p.hiY = y := by
  unfold Prefixes.hiY
  rw [h]
  unfold regxOf
  iterate 2 rw [BitVec.extractLsb'_append_eq_of_le (by decide)]
  exact BitVec.extractLsb'_append_eq_right
theorem hiZ_of_regx : p.hiZ = z := by
  unfold Prefixes.hiZ
  rw [h]
  exact (BitVec.extractLsb'_append_eq_of_le (by decide)).trans BitVec.extractLsb'_append_eq_right

theorem rx_of_regx {w : Half} {v : BitVec 3} (hw : fieldX w = v) : p.rx w = x ++ v := by rw [Prefixes.rx, hiX_of_regx h, hw]
theorem ry_of_regx {w : Half} {v : BitVec 3} (hw : fieldY w = v) : p.ry w = y ++ v := by rw [Prefixes.ry, hiY_of_regx h, hw]
theorem rz_of_regx {w : Half} {v : BitVec 3} (hw : fieldZ w = v) : p.rz w = z ++ v := by rw [Prefixes.rz, hiZ_of_regx h, hw]
end

/-- What the decoder reads of an RRR word behind its prefixes. -/
structure ReadsRrr (p : Prefixes) (w : Half) (c : Chain) (page : BitVec 10) (m : BitVec 4) (hx x hy y hz z f : BitVec 3) : Prop where
  page : p.pageNo = page.toNat
  chain : p.chain w = c
  major : majorOf w = m
  fieldX : fieldX w = x
  fieldY : fieldY w = y
  fieldZ : fieldZ w = z
  fn : fn3 w = f
  rx : p.rx w = hx ++ x
  ry : p.ry w = hy ++ y
  rz : p.rz w = hz ++ z

/-- What the decoder reads of an RRF word behind its prefixes. -/
structure ReadsRrf (p : Prefixes) (w : Half) (c : Chain) (page : BitVec 10) (m : BitVec 4) (hx x hy y : BitVec 3) (f : BitVec 6) : Prop where
  page : p.pageNo = page.toNat
  chain : p.chain w = c
  major : majorOf w = m
  fieldX : fieldX w = x
  fieldY : fieldY w = y
  fn : fn6 w = f
  rx : p.rx w = hx ++ x
  ry : p.ry w = hy ++ y

open Laws.BaseEndsChain (major_rrr major_rrf major_imm9 major_imm12)

section
variable {i : Instr} {page : BitVec 10} {m : BitVec 4} {hx x hy y hz z : BitVec 3}

theorem decodes_rrr (c : Chain) {f : BitVec 3} (he : i.enc = some ⟨page, regxOf hx hy hz, .word (rrr m x y z f)⟩) (hc : i.chain = c)
    (h : ∀ p w, ReadsRrr p w c page m hx x hy y hz z f → i.wf = true → decodeBase p w = some i) : Decodes i :=
  decodes_of_enc c he hc fun p hp => h p (rrr m x y z f)
    { page := hp.page, chain := hp.chain, major := major_rrr .., fieldX := fieldX_rrr .., fieldY := fieldY_rrr .., fieldZ := fieldZ_rrr ..
      fn := fn3_rrr .., rx := rx_of_regx hp.regx (fieldX_rrr ..), ry := ry_of_regx hp.regx (fieldY_rrr ..)
      rz := rz_of_regx hp.regx (fieldZ_rrr ..) }

theorem Prefixes.Carry.reads_rrf {p : Prefixes} {c : Chain} {b : BaseWord} {w : Half} {f : BitVec 6} (hp : p.Carry c ⟨page, regxOf hx hy hz, b⟩)
    (hb : b.half = w) (hw : w = rrf m x y f) : ReadsRrf p w c page m hx x hy y f := by
  subst hw
  exact
    { page := hp.page, chain := hb ▸ hp.chain, major := major_rrf .., fieldX := fieldX_rrf .., fieldY := fieldY_rrf .., fn := fn6_rrf ..
      rx := rx_of_regx hp.regx (fieldX_rrf ..), ry := ry_of_regx hp.regx (fieldY_rrf ..) }

theorem decodes_rrf (c : Chain) {f : BitVec 6} (he : i.enc = some ⟨page, regxOf hx hy hz, .word (rrf m x y f)⟩) (hc : i.chain = c)
    (h : ∀ p w, ReadsRrf p w c page m hx x hy y f → i.wf = true → decodeBase p w = some i) : Decodes i :=
  decodes_of_enc c he hc fun p hp => h p _ (hp.reads_rrf rfl rfl)

theorem decodes_imm6 (c : Chain) {sg : Bool} {v : Word} (he : i.enc = some ⟨page, regxOf hx hy hz, .imm6 sg (m ++ x ++ y) v⟩) (hc : i.chain = c)
    (h : ∀ p w, ReadsRrf p w c page m hx x hy y (v.setWidth 6) → p.immediate sg 6 (v.toNat % 64) = v → decodeBase p w = some i) : Decodes i :=
  decodes_of_enc c he hc fun p hp _ => h p _ (hp.reads_rrf rfl rfl) (hp.immediate (by decide : 6 ≠ 0))

theorem decodes_imm4 (c : Chain) {op : BitVec 2} {v : Word} (he : i.enc = some ⟨page, regxOf hx hy hz, .imm4 (m ++ x ++ y ++ op) v⟩) (hc : i.chain = c)
    (h : ∀ p w, ReadsRrf p w c page m hx x hy y (op ++ v.setWidth 4) → w.extractLsb' 4 2 = op → w.extractLsb' 0 4 = v.setWidth 4 →
      p.immediate true 4 (v.toNat % 16) = v → decodeBase p w = some i) : Decodes i :=
  decodes_of_enc c he hc fun p hp _ => h p _ (hp.reads_rrf rfl (BitVec.append_assoc (x₁ := m ++ x ++ y) (x₂ := op) (x₃ := v.setWidth 4)))
    ((BitVec.extractLsb'_append_eq_of_le (by decide)).trans BitVec.extractLsb'_append_eq_right) BitVec.extractLsb'_append_eq_right
    (hp.immediate (by decide : 4 ≠ 0))

theorem decodes_imm9 (c : Chain) {sg : Bool} {v : Word} (he : i.enc = some ⟨page, regxOf hx hy hz, .imm9 sg (m ++ x) v⟩) (hc : i.chain = c)
    (h : ∀ (p : Prefixes) (w : Half), p.pageNo = page.toNat → p.chain w = c → majorOf w = m → p.rx w = hx ++ x → w.extractLsb' 0 9 = v.setWidth 9 →
      p.immediate sg 9 (v.toNat % 512) = v → i.wf = true → decodeBase p w = some i) : Decodes i :=
  decodes_of_enc c he hc fun p hp => h p _ hp.page hp.chain (major_imm9 ..)
    (rx_of_regx hp.regx ((BitVec.extractLsb'_append_eq_of_le (by decide)).trans BitVec.extractLsb'_append_eq_right))
    BitVec.extractLsb'_append_eq_right (hp.immediate (by decide : 9 ≠ 0))

theorem decodes_imm12 (c : Chain) {regx : BitVec 10} {v : Word} (he : i.enc = some ⟨page, regx, .imm12 m v⟩) (hc : i.chain = c)
    (h : ∀ (p : Prefixes) (w : Half), p.pageNo = page.toNat → p.chain w = c → majorOf w = m → w.extractLsb' 0 12 = v.setWidth 12 →
      p.immediate true 12 (v.toNat % 4096) = v → decodeBase p w = some i) : Decodes i :=
  decodes_of_enc c he hc fun p hp _ => h p _ hp.page hp.chain (major_imm12 ..) BitVec.extractLsb'_append_eq_right
    (hp.immediate (by decide : 12 ≠ 0))

/-- What the decoder reads of a word of major 0x0 on page 0: an S word, or a hint, and the byte behind its function. -/
structure ReadsSys (p : Prefixes) (w : Half) (c : Chain) (hint : Bool) (hx fn : BitVec 3) (low : BitVec 8) : Prop where
  page : p.pageNo = 0
  chain : p.chain w = c
  major : majorOf w = 0
  hint : w[11] = hint
  hiX : p.hiX = hx
  code : w.extractLsb' 8 3 = fn
  byte : w.extractLsb' 0 8 = low
  x : w.extractLsb' 5 3 = low.extractLsb' 5 3
  k : w.extractLsb' 0 5 = low.extractLsb' 0 5

theorem reads_sys {p : Prefixes} {c : Chain} {w : Half} {hint : Bool} {code : BitVec 3} {byte : BitVec 8} (page : p.pageNo = 0)
    (regx : p.regx.getD 0 = regxOf hx hy hz) (chain : p.chain w = c) (hw : w = (0#4 ++ BitVec.ofBool hint ++ code) ++ byte) :
    ReadsSys p w c hint hx code byte where
  page := page
  chain := chain
  hiX := hiX_of_regx regx
  major := by
    subst hw
    unfold majorOf
    iterate 2 rw [BitVec.extractLsb'_append_eq_of_le (by decide)]
    exact BitVec.extractLsb'_append_eq_left
  hint := by
    subst hw
    rw [← BitVec.getLsbD_eq_getElem]
    iterate 3 rw [BitVec.getLsbD_append]
    cases hint <;> rfl
  code := by
    subst hw
    rw [BitVec.extractLsb'_append_eq_of_le (by decide)]
    exact BitVec.extractLsb'_append_eq_right
  byte := by subst hw; exact BitVec.extractLsb'_append_eq_right
  x := by subst hw; rw [BitVec.extractLsb'_append_eq_of_add_le (by decide)]
  k := by subst hw; rw [BitVec.extractLsb'_append_eq_of_add_le (by decide)]

theorem decodes_sys (c : Chain) (hint : Bool) {code : BitVec 3} {byte : BitVec 8} {w : Half}
    (he : i.enc = some ⟨0, regxOf hx hy hz, .word w⟩) (hc : i.chain = c) (hw : w = (0#4 ++ BitVec.ofBool hint ++ code) ++ byte)
    (h : ∀ p w, ReadsSys p w c hint hx code byte → i.wf = true → decodeBase p w = some i) : Decodes i :=
  decodes_of_enc c he hc fun p hp => h p w (reads_sys hp.page hp.regx hp.chain hw)

@[simp] theorem high_of_byte (x : BitVec 3) (k : BitVec 5) : (x ++ k : BitVec 8).extractLsb' 5 3 = x := BitVec.extractLsb'_append_eq_left
@[simp] theorem low_of_byte (x : BitVec 3) (k : BitVec 5) : (x ++ k : BitVec 8).extractLsb' 0 5 = k := BitVec.extractLsb'_append_eq_right

theorem sLayout_eq (fn x : BitVec 3) (k : BitVec 5) : sLayout fn x k = (0#4 ++ BitVec.ofBool false ++ fn) ++ (x ++ k : BitVec 8) :=
  BitVec.append_assoc (x₁ := 0#5 ++ fn) (x₂ := x) (x₃ := k)

theorem decodes_imm8 (c : Chain) {code : BitVec 3} {v : Word} (he : i.enc = some ⟨0, regxOf 0 0 0, .imm8 (0#5 ++ code) v⟩) (hc : i.chain = c)
    (h : ∀ p w, ReadsSys p w c false 0 code (v.setWidth 8) → p.immediate false 8 (v.toNat % 256) = v → decodeBase p w = some i) : Decodes i :=
  decodes_of_enc c he hc fun p hp _ => h p _ (reads_sys hp.page hp.regx hp.chain rfl) (hp.immediate (by decide : 8 ≠ 0))

end

/-! ### Keyword codes -/

@[simp] theorem VTy.ofCode_code (t : VTy) : VTy.ofCode t.code = t := by cases t <;> rfl
@[simp] theorem QFmt.ofCode_code (f : QFmt) : QFmt.ofCode f.code = some f := by cases f <;> rfl
@[simp] theorem Sfu.ofCode_code (f : Sfu) : Sfu.ofCode f.code = f := by cases f <;> rfl
@[simp] theorem SysReg.ofNumber_number (r : SysReg) : SysReg.ofNumber r.number = some r := by cases r <;> rfl
@[simp] theorem Link.ofNumber_number (l : Link) : Link.ofNumber l.number = some l := by cases l <;> rfl
@[simp] theorem Dir.ofNumber_number (d : Dir) : Dir.ofNumber d.number = some d := by cases d <;> rfl
@[simp] theorem low2_setWidth (b : BitVec 2) : low2 (b.setWidth 3) = some b := by revert b; decide
/-- A counter number stands in a register field of six bits. -/
@[simp] theorem setWidth_setWidth_counter (k : BitVec 4) : ((k.setWidth 6).setWidth 4 : BitVec 4) = k := by simp

/-! ### Rows of one shape: registers, and a register with an immediate -/

theorem decodes_xyz : ∀ mk ∈ [Instr.add, .sub, .and, .or, .xor, .shl, .shr, .sar, .addw, .subw, .andn, .orn, .xnor, .rol, .ror, .scadd,
    .mul, .mulh, .mulhu, .mulhsu, .div, .divu, .rem, .remu, .slt, .sltu, .seq, .sne, .min, .max, .minu, .maxu, .hxy, .hidx, .sel],
    ∀ c x y z, Decodes (mk c x y z) := by
  intro mk row c x y z
  fin_cases row
  all_goals
    refine decodes_rrr c rfl rfl fun p w r _ => ?_
    simp [decodeBase, decodeAlu, decodeMulCmp, r.page, r.major, r.fn, r.chain, r.rx, r.ry, r.rz]

theorem decodes_xy_rrr : ∀ mk ∈ [Instr.clz, .ctz, .popc, .brev, .bswap, .sexb, .sexh, .sexw, .send, .post], ∀ c x y, Decodes (mk c x y) := by
  intro mk row c x y
  fin_cases row
  all_goals
    refine decodes_rrr c rfl rfl fun p w r _ => ?_
    simp [decodeBase, decodeMulCmp, decodeMsg, r.page, r.major, r.fn, r.chain, r.rx, r.ry]

theorem decodes_xy_rrf : ∀ mk ∈ [Instr.tsave, .tload, .tmap, .zero, .tlbinv, .lrw, .sch, .lro, .sco, .oinit, .aadd, .aand, .aor, .axor, .amin, .amax,
    .aminu, .amaxu, .aswap, .afadd, .aaddw, .aandw, .aorw, .axorw, .aminw, .amaxw, .aminuw, .amaxuw, .aswapw, .afaddw, .cpy, .cpyg, .cpys, .cpyz,
    .gqry, .spawn, .crstat], ∀ c x y, Decodes (mk c x y) := by
  intro mk row c x y
  fin_cases row
  all_goals
    refine decodes_rrf c rfl rfl fun p w r _ => ?_
    simp [decodeBase, decodeSysPage1, decodeSync, decodeEng, r.page, r.major, r.fn, r.chain, r.rx, r.ry]

theorem decodes_x : ∀ mk ∈ [Instr.tstop, .tgo, .tquar, .vote, .cjoin, .launch, .cancel, .gwait, .seed], ∀ c x, Decodes (mk c x) := by
  intro mk row c x
  fin_cases row
  all_goals
    refine decodes_rrf c rfl rfl fun p w r _ => ?_
    simp [decodeBase, decodeSysPage1, decodeEng, r.page, r.major, r.fn, r.chain, r.rx]

theorem decodes_txyz : ∀ mk ∈ [Instr.vadd, .vsub, .vmul, .vmin, .vmax, .vand, .vor, .vxor, .vsel, .vslu, .vsld], ∀ c t x y z, Decodes (mk c t x y z) := by
  intro mk row c t x y z
  fin_cases row
  all_goals
    refine decodes_rrr c rfl rfl fun p w r _ => ?_
    simp [decodeBase, decodeVec, r.page, r.major, r.fn, r.chain, r.rx, r.ry, r.rz]

theorem decodes_xy_imm : ∀ mk ∈ [Instr.addi, .andi, .ori, .xori, .shli, .shri, .sari, .beq, .bne, .blt, .bge, .bltu, .bgeu],
    ∀ c x y v, Decodes (mk c x y v) := by
  intro mk row c x y v
  fin_cases row
  all_goals
    refine decodes_imm6 c rfl rfl fun p w r hv => ?_
    simp [decodeBase, decodeImmAlu, decodeCompareBranch, r.page, r.major, r.fn, r.chain, r.rx, r.ry, hv]

theorem decodes_x_imm : ∀ mk ∈ [Instr.bz, .bnz, .bltz, .bgez, .loop], ∀ c x v, Decodes (mk c x v) := by
  intro mk row c x v
  fin_cases row
  all_goals
    refine decodes_imm6 c rfl rfl fun p w r hv => ?_
    simp [decodeBase, decodeBranch, r.page, r.major, r.fn, r.chain, r.rx, r.fieldY, hv]

theorem decodes_q_imm : ∀ mk ∈ [Instr.bq, .bnq], ∀ c x v, Decodes (mk c x v) := by
  intro mk row c x v
  fin_cases row
  all_goals
    refine decodes_imm6 c (hx := 0) (hy := 0) (hz := 0) rfl rfl fun p w r hv => ?_
    simp [decodeBase, decodeBranch, r.page, r.major, r.fn, r.chain, r.fieldX, r.fieldY, hv]

theorem decodes_xy_pair : ∀ mk ∈ [Instr.acas, .afaddo, .acasw, .afaddow], ∀ c x y, Decodes (mk c x y) := by
  intro mk row c x y
  fin_cases row
  all_goals
    refine decodes_rrf c rfl rfl fun p w r hw => ?_
    have even : pairReg x = true := hw
    simp [decodeBase, decodeSync, r.page, r.major, r.fn, r.chain, r.rx, r.ry, even]

theorem decodes_x_pair : ∀ mk ∈ [Instr.evpop, .evwait], ∀ c x, Decodes (mk c x) := by
  intro mk row c x
  fin_cases row
  all_goals
    refine decodes_rrf c rfl rfl fun p w r hw => ?_
    have even : pairReg x = true := hw
    simp [decodeBase, decodeEng, r.page, r.major, r.fn, r.chain, r.rx, even]

/-! ### Synchronization, barriers and messages (R50, R51) -/

theorem decodes_fence : ∀ mk ∈ [Instr.fence, .fenceG, .fenceM, .fenceP], ∀ c, Decodes (mk c) := by
  intro mk row c
  fin_cases row
  all_goals
    refine decodes_rrf c (hx := 0) (hy := 0) (hz := 0) rfl rfl fun p w r hw => ?_
    have scope := eq_of_beq hw
    simp [decodeBase, decodeSync, r.page, r.major, r.fn, r.chain, scope]

theorem decodes_sync_y : ∀ mk ∈ [Instr.waitf, .clrf], ∀ c y, Decodes (mk c y) := by
  intro mk row c y
  fin_cases row
  all_goals
    refine decodes_rrf c rfl rfl fun p w r _ => ?_
    simp [decodeBase, decodeSync, r.page, r.major, r.fn, r.chain, r.ry]

theorem decodes_waitc (c : Chain) (k : BitVec 4) (y : RegNum) : Decodes (.waitc c k y) := by
  refine decodes_rrf c rfl rfl fun p w r _ => ?_
  simp [decodeBase, decodeSync, r.page, r.major, r.fn, r.chain, r.rx, r.ry]

theorem decodes_take (c : Chain) (x y : RegNum) : Decodes (.take c x y) := by
  refine decodes_rrf c rfl rfl fun p w r hw => ?_
  have shared : isShared y = true := hw
  simp [decodeBase, decodeSync, r.page, r.major, r.fn, r.chain, r.rx, r.ry, shared]

theorem decodes_bar : ∀ mk ∈ [Instr.bar, .bars], ∀ c b, Decodes (mk c b) := by
  intro mk row c b
  fin_cases row
  all_goals
    refine decodes_rrf c (hx := 0) (hy := 0) (hz := 0) rfl rfl fun p w r _ => ?_
    simp [decodeBase, decodeBarrier, r.page, r.major, r.fn, r.chain, r.fieldY]

theorem decodes_barcfg (c : Chain) (b : BitVec 2) (x : RegNum) : Decodes (.barcfg c b x) := by
  refine decodes_rrf c rfl rfl fun p w r _ => ?_
  simp [decodeBase, decodeBarrier, r.page, r.major, r.fn, r.chain, r.fieldY, r.rx]

theorem decodes_barq (c : Chain) (x : RegNum) (b : BitVec 2) : Decodes (.barq c x b) := by
  refine decodes_rrf c rfl rfl fun p w r _ => ?_
  simp [decodeBase, decodeBarrier, r.page, r.major, r.fn, r.chain, r.fieldY, r.rx]

theorem decodes_barr (c : Chain) (x : RegNum) (b : BitVec 2) (op : BarrOp) : Decodes (.barr c x b op) := by
  refine decodes_rrf c rfl rfl fun p w r _ => ?_
  cases op
  all_goals simp [decodeBase, decodeBarrier, r.page, r.major, r.fn, r.chain, r.fieldY, r.rx, BarrOp.code]

theorem decodes_xyk : ∀ mk ∈ [Instr.put, .putv, .get], ∀ c x y k, Decodes (mk c x y k) := by
  intro mk row c x y k
  fin_cases row
  all_goals
    refine decodes_rrr c rfl rfl fun p w r _ => ?_
    simp [decodeBase, decodeMsg, r.page, r.major, r.fn, r.chain, r.rx, r.ry, r.rz]

theorem decodes_cinc (c : Chain) (k : BitVec 4) (x y : RegNum) : Decodes (.cinc c k x y) := by
  refine decodes_rrr c rfl rfl fun p w r _ => ?_
  simp [decodeBase, decodeMsg, r.page, r.major, r.fn, r.chain, r.rx, r.ry, r.rz]

theorem decodes_cset (c : Chain) (k : BitVec 4) (x : RegNum) : Decodes (.cset c k x) := by
  refine decodes_rrr c rfl rfl fun p w r _ => ?_
  simp [decodeBase, decodeMsg, r.page, r.major, r.fn, r.chain, r.rx, r.rz]

theorem decodes_crd (c : Chain) (x : RegNum) (k : BitVec 4) : Decodes (.crd c x k) := by
  refine decodes_rrr c rfl rfl fun p w r _ => ?_
  simp [decodeBase, decodeMsg, r.page, r.major, r.fn, r.chain, r.rx, r.rz]

theorem decodes_arm (c : Chain) (slot : BitVec 3) (x y : RegNum) : Decodes (.arm c slot x y) := by
  refine decodes_rrr c (hz := 0) rfl rfl fun p w r _ => ?_
  simp [decodeBase, decodeMsg, r.page, r.major, r.fn, r.chain, r.rx, r.ry, r.fieldZ]

theorem decodes_disarm (c : Chain) (slot : BitVec 3) : Decodes (.disarm c slot) := by
  refine decodes_rrr c (hx := 0) (hy := 0) (hz := 0) rfl rfl fun p w r _ => ?_
  simp [decodeBase, decodeMsg, r.page, r.major, r.fn, r.chain, r.fieldZ]

/-! ### Vectors (R52) -/

theorem decodes_txyz_noHandle : ∀ mk ∈ [Instr.vfma, .vaddmin], ∀ c t x y z, Decodes (mk c t x y z) := by
  intro mk row c t x y z
  fin_cases row
  all_goals
    refine decodes_rrr c rfl rfl fun p w r hw => ?_
    have plain : (!isHandle x) = true := hw
    simp [decodeBase, decodeVec, r.page, r.major, r.fn, r.chain, r.rx, r.ry, r.rz] at plain ⊢
    exact plain

theorem decodes_txyz_int : ∀ mk ∈ [Instr.vshl, .vshr, .vsar, .vperm], ∀ c t x y z, Decodes (mk c t x y z) := by
  intro mk row c t x y z
  fin_cases row
  all_goals
    refine decodes_rrr c rfl rfl fun p w r hw => ?_
    have int : t.isFloat = false := by simpa using (show (!t.isFloat) = true from hw)
    simp [decodeBase, decodeVec, r.page, r.major, r.fn, r.chain, r.rx, r.ry, r.rz, int]

theorem decodes_vdiv (c : Chain) (t : VTy) (x y z : RegNum) : Decodes (.vdiv c t x y z) := by
  refine decodes_rrr c rfl rfl fun p w r hw => ?_
  have float : t.isFloat = true := hw
  simp [decodeBase, decodeVec, r.page, r.major, r.fn, r.chain, r.rx, r.ry, r.rz, float]

theorem decodes_vsqrt (c : Chain) (t : VTy) (x y : RegNum) : Decodes (.vsqrt c t x y) := by
  refine decodes_rrr c rfl rfl fun p w r hw => ?_
  have float : t.isFloat = true := hw
  simp [decodeBase, decodeVec, r.page, r.major, r.fn, r.chain, r.rx, r.ry, float]

theorem decodes_tqyz : ∀ mk ∈ [Instr.vceq, .vclt, .vcle], ∀ c t q y z, Decodes (mk c t q y z) := by
  intro mk row c t q y z
  fin_cases row
  all_goals
    refine decodes_rrr c rfl rfl fun p w r _ => ?_
    simp [decodeBase, decodeVec, r.page, r.major, r.fn, r.chain, r.fieldX, r.ry, r.rz]

theorem decodes_txy : ∀ mk ∈ [Instr.vbcst, .vredadd], ∀ c t x y, Decodes (mk c t x y) := by
  intro mk row c t x y
  fin_cases row
  all_goals
    refine decodes_rrr c rfl rfl fun p w r _ => ?_
    simp [decodeBase, decodeVec, r.page, r.major, r.fn, r.chain, r.rx, r.ry]

theorem decodes_vext (c : Chain) (t : VTy) (x y lane : RegNum) : Decodes (.vext c t x y lane) := by
  refine decodes_rrr c rfl rfl fun p w r hw => ?_
  have within : lane.toNat < t.lanes := of_decide_eq_true hw
  simp [decodeBase, decodeVec, r.page, r.major, r.fn, r.chain, r.rx, r.ry, r.rz, within]

theorem decodes_vins (c : Chain) (t : VTy) (x y lane : RegNum) : Decodes (.vins c t x y lane) := by
  refine decodes_rrr c rfl rfl fun p w r hw => ?_
  have within : (decide (lane.toNat < t.lanes) && !isHandle x) = true := hw
  simp [decodeBase, decodeVec, r.page, r.major, r.fn, r.chain, r.rx, r.ry, r.rz] at within ⊢
  exact within

theorem decodes_vcvt (c : Chain) (t : VTy) (x y : RegNum) (src : VTy) : Decodes (.vcvt c t x y src) := by
  refine decodes_rrr c rfl rfl fun p w r _ => ?_
  simp [decodeBase, decodeVec, r.page, r.major, r.fn, r.chain, r.rx, r.ry, r.fieldZ]

theorem decodes_vcvtq (c : Chain) (t : VTy) (x y : RegNum) (f : QFmt) : Decodes (.vcvtq c t x y f) := by
  refine decodes_rrr c rfl rfl fun p w r hw => ?_
  have float : t.isFloat = true := hw
  simp [decodeBase, decodeVec, r.page, r.major, r.fn, r.chain, r.rx, r.ry, r.fieldZ, float]

theorem decodes_vsfu (c : Chain) (t : VTy) (x y : RegNum) (f : Sfu) : Decodes (.vsfu c t x y f) := by
  refine decodes_rrr c rfl rfl fun p w r hw => ?_
  have float : t.isFloat = true := hw
  simp [decodeBase, decodeVec, r.page, r.major, r.fn, r.chain, r.rx, r.ry, r.fieldZ, float]

theorem decodes_vpeg (c : Chain) (x y z : RegNum) : Decodes (.vpeg c x y z) := by
  refine decodes_rrr c rfl rfl fun p w r _ => ?_
  simp [decodeBase, decodeVec, r.page, r.major, r.fn, r.chain, r.rx, r.ry, r.rz, VTy.ofCode]

/-! ### Matrix (R53) -/

theorem decodes_my : ∀ mk ∈ [Instr.mtcfg, .mld, .mst, .mrda, .mwra, .mscl], ∀ c m y, Decodes (mk c m y) := by
  intro mk row c m y
  fin_cases row
  all_goals
    refine decodes_rrf c rfl rfl fun p w r _ => ?_
    simp [decodeBase, decodeMtx, r.page, r.major, r.fn, r.chain, r.fieldX, r.ry]

theorem decodes_mfcfg (c : Chain) (x : RegNum) (m : BitVec 2) : Decodes (.mfcfg c x m) := by
  refine decodes_rrf c rfl rfl fun p w r _ => ?_
  simp [decodeBase, decodeMtx, r.page, r.major, r.fn, r.chain, r.rx, r.fieldY]

theorem decodes_mldl (c : Chain) (m : BitVec 2) (l : Link) : Decodes (.mldl c m l) := by
  refine decodes_rrf c rfl rfl fun p w r _ => ?_
  simp [decodeBase, decodeMtx, r.page, r.major, r.fn, r.chain, r.fieldX, r.ry]

theorem decodes_mpass (c : Chain) (m : BitVec 2) (d : Dir) : Decodes (.mpass c m d) := by
  refine decodes_rrf c rfl rfl fun p w r _ => ?_
  simp [decodeBase, decodeMtx, r.page, r.major, r.fn, r.chain, r.fieldX, r.ry]

theorem decodes_mzero (c : Chain) (a : BitVec 2) : Decodes (.mzero c a) := by
  refine decodes_rrf c (hx := 0) (hy := 0) (hz := 0) rfl rfl fun p w r _ => ?_
  simp [decodeBase, decodeMtx, r.page, r.major, r.fn, r.chain, r.fieldX]

theorem low2_of_mma (n : BitVec 2) : (0x10#6 ||| n.setWidth 6).extractLsb' 0 2 = n := by revert n; decide

/-- The third matrix of MMA is in the two low bits of its function. -/
theorem decodes_mma (c : Chain) (a m n : BitVec 2) : Decodes (.mma c a m n) := by
  have values : n = 0 ∨ n = 1 ∨ n = 2 ∨ n = 3 := by revert n; decide
  refine decodes_rrf c (hx := 0) (hy := 0) (hz := 0) rfl rfl fun p w r _ => ?_
  have low : w.extractLsb' 0 2 = n := by
    have inFn : w.extractLsb' 0 2 = (fn6 w).extractLsb' 0 2 := by
      apply BitVec.eq_of_getLsbD_eq
      intro i hi
      simp [fn6, hi]
    rw [inFn, r.fn, low2_of_mma]
  obtain rfl | rfl | rfl | rfl := values
  all_goals simp [decodeBase, decodeMtx, r.page, r.major, r.fn, r.chain, r.fieldX, r.fieldY, low]

/-! ### Engines (R54) -/

theorem decodes_hy : ∀ mk ∈ [Instr.scfg, .sadv], ∀ c h y, Decodes (mk c h y) := by
  intro mk row c h y
  fin_cases row
  all_goals
    refine decodes_rrf c rfl rfl fun p w r _ => ?_
    simp [decodeBase, decodeEng, r.page, r.major, r.fn, r.chain, r.fieldX, r.ry]

theorem decodes_sqry (c : Chain) (x : RegNum) (h : BitVec 3) : Decodes (.sqry c x h) := by
  refine decodes_rrf c rfl rfl fun p w r _ => ?_
  simp [decodeBase, decodeEng, r.page, r.major, r.fn, r.chain, r.rx, r.fieldY]

theorem decodes_sclr (c : Chain) (h : BitVec 3) : Decodes (.sclr c h) := by
  refine decodes_rrf c (hx := 0) (hy := 0) (hz := 0) rfl rfl fun p w r _ => ?_
  simp [decodeBase, decodeEng, r.page, r.major, r.fn, r.chain, r.fieldX]

theorem decodes_crdig (c : Chain) (x : RegNum) (i : BitVec 1) : Decodes (.crdig c x i) := by
  refine decodes_rrf c rfl rfl fun p w r _ => ?_
  have bit : i.toNat % 8 ≤ 1 := by omega
  simp [decodeBase, decodeEng, r.page, r.major, r.fn, r.chain, r.fieldY, r.rx, bit]

theorem decodes_cruise : ∀ mk ∈ [Instr.cron, .croff], ∀ c, Decodes (mk c) := by
  intro mk row c
  fin_cases row
  all_goals
    refine decodes_rrf c (hx := 0) (hy := 0) (hz := 0) rfl rfl fun p w r _ => ?_
    simp [decodeBase, decodeEng, r.page, r.major, r.fn, r.chain]

/-! ### Jumps, constants and memory (R47, R48) -/

theorem decodes_jump_x : ∀ mk ∈ [Instr.jr, .callr], ∀ c x, Decodes (mk c x) := by
  intro mk row c x
  fin_cases row
  all_goals
    refine decodes_rrr c rfl rfl fun p w r _ => ?_
    simp [decodeBase, decodeJump, r.page, r.major, r.fn, r.chain, r.rx]

theorem decodes_ret (c : Chain) : Decodes (.ret c) := by
  refine decodes_rrr c (hx := 0) (hy := 0) (hz := 0) rfl rfl fun p w r _ => ?_
  simp [decodeBase, decodeJump, r.page, r.major, r.fn, r.chain]

theorem decodes_jump_imm : ∀ mk ∈ [Instr.j, .call], ∀ c v, Decodes (mk c v) := by
  intro mk row c v
  fin_cases row
  all_goals
    refine decodes_imm12 c rfl rfl fun p w page chain major field value => ?_
    simp [decodeBase, decodeJump, page, major, chain, field, value]

theorem decodes_li : ∀ mk ∈ [Instr.li, .addpc], ∀ c x v, Decodes (mk c x v) := by
  intro mk row c x v
  fin_cases row
  all_goals
    refine decodes_imm9 c rfl rfl fun p w page chain major rx field value _ => ?_
    simp [decodeBase, decodeLi, page, major, chain, rx, field, value]

theorem decodes_lih (c : Chain) (x : RegNum) (v : Word) : Decodes (.lih c x v) := by
  refine decodes_imm9 c rfl rfl fun p w page chain major rx field value hw => ?_
  have general : x.toNat < 32 := of_decide_eq_true hw
  simp [decodeBase, decodeLi, page, major, chain, rx, field, value, general]

theorem decodes_xy_off : ∀ mk ∈ [Instr.ldb, .ldh, .ldw, .ldd, .ldbs, .ldhs, .ldws, .ldf, .ldfd, .ldfe, .ldfed, .vld, .stb, .sth, .stw, .std, .ste,
    .sted, .stf, .stfd, .vst], ∀ c x y v, Decodes (mk c x y v) := by
  intro mk row c x y v
  fin_cases row
  all_goals
    refine decodes_imm4 c rfl rfl fun p w r op field value => ?_
    simp [decodeBase, decodeLoad, decodeStore, r.page, r.major, r.chain, r.rx, r.ry, op, field, value]

/-! ### Major 0x0, page 0 (R45) -/

theorem decodes_sys_plain : ∀ mk ∈ [Instr.nop, .eret, .halt, .sleep], ∀ c, Decodes (mk c) := by
  intro mk row c
  fin_cases row
  all_goals
    refine decodes_sys c false (hx := 0) (hy := 0) (hz := 0) rfl rfl (sLayout_eq ..) fun p w r _ => ?_
    simp [decodeBase, decodeSysPage0, r.page, r.major, r.hint, r.code, r.chain]

theorem decodes_sys_imm : ∀ mk ∈ [Instr.trap, .brk], ∀ c v, Decodes (mk c v) := by
  intro mk row c v
  fin_cases row
  · refine decodes_imm8 c (code := 1) rfl rfl fun p w r value => ?_
    simp [decodeBase, decodeSysPage0, r.page, r.major, r.hint, r.code, r.chain, r.byte, value]
  · refine decodes_imm8 c (code := 5) rfl rfl fun p w r value => ?_
    simp [decodeBase, decodeSysPage0, r.page, r.major, r.hint, r.code, r.chain, r.byte, value]

theorem decodes_mfs (c : Chain) (x : RegNum) (s : SysReg) : Decodes (.mfs c x s) := by
  refine decodes_sys c false rfl rfl (sLayout_eq ..) fun p w r _ => ?_
  simp [decodeBase, decodeSysPage0, r.page, r.major, r.hint, r.code, r.chain, r.hiX, r.x, r.k]

theorem decodes_mts (c : Chain) (x : RegNum) (s : SysReg) : Decodes (.mts c x s) := by
  refine decodes_sys c false rfl rfl (sLayout_eq ..) fun p w r hw => ?_
  have writable : s.readOnly = false := by simpa using (show (!s.readOnly) = true from hw)
  simp [decodeBase, decodeSysPage0, r.page, r.major, r.hint, r.code, r.chain, r.hiX, r.x, r.k, writable]

theorem decodes_align (c : Chain) (tag : BitVec 8) : Decodes (.align c tag) := by
  refine decodes_sys c true (hx := 0) (hy := 0) (hz := 0) rfl rfl rfl fun p w r _ => ?_
  simp [decodeBase, decodeSysPage0, r.page, r.major, r.hint, r.code, r.chain, r.byte]

theorem decodes_pref (c : Chain) (x : RegNum) : Decodes (.pref c x) := by
  refine decodes_sys c true rfl rfl rfl fun p w r _ => ?_
  simp [decodeBase, decodeSysPage0, r.page, r.major, r.hint, r.code, r.chain, r.hiX, r.x]

end Sys2Proof
end

section
/-! An encoding reads back: its prefixes first, then its base word. -/

namespace Sys2Proof

/-- Every instruction's base word decodes to it (R45 to R54); an event has no encoding. -/
theorem decodes (i : Instr) : Decodes i := by
  cases i with
  | add | sub | and | or | xor | shl | shr | sar | addw | subw | andn | orn | xnor | rol | ror | scadd
  | mul | mulh | mulhu | mulhsu | div | divu | rem | remu | slt | sltu | seq | sne | min | max | minu | maxu | hxy | hidx | sel =>
    exact decodes_xyz _ (by simp) _ _ _ _
  | clz | ctz | popc | brev | bswap | sexb | sexh | sexw | send | post => exact decodes_xy_rrr _ (by simp) _ _ _
  | tsave | tload | tmap | zero | tlbinv | lrw | sch | lro | sco | oinit | aadd | aand | aor | axor | amin | amax | aminu | amaxu | aswap | afadd
  | aaddw | aandw | aorw | axorw | aminw | amaxw | aminuw | amaxuw | aswapw | afaddw | cpy | cpyg | cpys | cpyz | gqry | spawn | crstat =>
    exact decodes_xy_rrf _ (by simp) _ _ _
  | tstop | tgo | tquar | vote | cjoin | launch | cancel | gwait | seed => exact decodes_x _ (by simp) _ _
  | addi | andi | ori | xori | shli | shri | sari | beq | bne | blt | bge | bltu | bgeu => exact decodes_xy_imm _ (by simp) _ _ _ _
  | bz | bnz | bltz | bgez | loop => exact decodes_x_imm _ (by simp) _ _ _
  | bq | bnq => exact decodes_q_imm _ (by simp) _ _ _
  | ldb | ldh | ldw | ldd | ldbs | ldhs | ldws | ldf | ldfd | ldfe | ldfed | vld | stb | sth | stw | std | ste | sted | stf | stfd | vst =>
    exact decodes_xy_off _ (by simp) _ _ _ _
  | acas | afaddo | acasw | afaddow => exact decodes_xy_pair _ (by simp) _ _ _
  | evpop | evwait => exact decodes_x_pair _ (by simp) _ _
  | fence | fenceG | fenceM | fenceP => exact decodes_fence _ (by simp) _
  | waitf | clrf => exact decodes_sync_y _ (by simp) _ _
  | waitc => exact decodes_waitc ..
  | take => exact decodes_take ..
  | bar | bars => exact decodes_bar _ (by simp) _ _
  | barcfg => exact decodes_barcfg ..
  | barq => exact decodes_barq ..
  | barr => exact decodes_barr ..
  | put | putv | get => exact decodes_xyk _ (by simp) _ _ _ _
  | cinc => exact decodes_cinc ..
  | cset => exact decodes_cset ..
  | crd => exact decodes_crd ..
  | arm => exact decodes_arm ..
  | disarm => exact decodes_disarm ..
  | vadd | vsub | vmul | vmin | vmax | vand | vor | vxor | vsel | vslu | vsld => exact decodes_txyz _ (by simp) _ _ _ _ _
  | vfma | vaddmin => exact decodes_txyz_noHandle _ (by simp) _ _ _ _ _
  | vshl | vshr | vsar | vperm => exact decodes_txyz_int _ (by simp) _ _ _ _ _
  | vdiv => exact decodes_vdiv ..
  | vsqrt => exact decodes_vsqrt ..
  | vceq | vclt | vcle => exact decodes_tqyz _ (by simp) _ _ _ _ _
  | vbcst | vredadd => exact decodes_txy _ (by simp) _ _ _ _
  | vext => exact decodes_vext ..
  | vins => exact decodes_vins ..
  | vcvt => exact decodes_vcvt ..
  | vcvtq => exact decodes_vcvtq ..
  | vsfu => exact decodes_vsfu ..
  | vpeg => exact decodes_vpeg ..
  | mtcfg | mld | mst | mrda | mwra | mscl => exact decodes_my _ (by simp) _ _ _
  | mfcfg => exact decodes_mfcfg ..
  | mldl => exact decodes_mldl ..
  | mpass => exact decodes_mpass ..
  | mzero => exact decodes_mzero ..
  | mma => exact decodes_mma ..
  | scfg | sadv => exact decodes_hy _ (by simp) _ _ _
  | sqry => exact decodes_sqry ..
  | sclr => exact decodes_sclr ..
  | crdig => exact decodes_crdig ..
  | cron | croff => exact decodes_cruise _ (by simp) _
  | jr | callr => exact decodes_jump_x _ (by simp) _ _
  | ret => exact decodes_ret _
  | j | call => exact decodes_jump_imm _ (by simp) _ _
  | li | addpc => exact decodes_li _ (by simp) _ _ _
  | lih => exact decodes_lih ..
  | nop | eret | halt | sleep => exact decodes_sys_plain _ (by simp) _
  | trap | brk => exact decodes_sys_imm _ (by simp) _ _
  | mfs => exact decodes_mfs ..
  | mts => exact decodes_mts ..
  | align => exact decodes_align ..
  | pref => exact decodes_pref ..
  | _ => exact ⟨fun _ _ _ he => nomatch he⟩

/-! ### The whole chain -/

/-- The prefixes that `encode` writes for a chain and the parts that the opcode map fixes. -/
def prefixesOf (c : Chain) (e : Enc) : Prefixes :=
  { modp := kept c.mod, page := kept e.page, regx := kept e.regx, imx := imxPayloads e.base.width e.base.value (imxCount e.base)
    count := (prefixWord 0xFC00 c.mod).length + (prefixWord 0xF800 e.page).length + (prefixWord 0xF400 e.regx).length + imxCount e.base }

theorem encode_of_enc {i : Instr} {e : Enc} (he : i.enc = some e) :
    encode i = prefixWord 0xFC00 i.chain.mod ++ (prefixWord 0xF800 e.page ++ (prefixWord 0xF400 e.regx ++
      (imxWords e.base.width e.base.value (imxCount e.base) ++ [e.base.half]))) := by
  simp [encode, he]

theorem length_encode {i : Instr} {e : Enc} (he : i.enc = some e) : (encode i).length = (prefixesOf i.chain e).count + 1 := by
  simp [encode_of_enc he, prefixesOf]
  omega

/-- Reading the prefixes of an encoding leaves its base word to be read behind them. -/
theorem decode_encode_prefixes {i : Instr} {e : Enc} (he : i.enc = some e) (few : imxCount e.base ≤ 3) (room : (prefixesOf i.chain e).count ≤ 4)
    (rest : List Half) : decode (encode i ++ rest) = decodeFrom (prefixesOf i.chain e) (e.base.half :: rest) := by
  simp only [prefixesOf] at room
  simp only [decode, encode_of_enc he, List.append_assoc]
  rw [decodeFrom_prefixWord_mod (by dsimp only; omega) rfl, decodeFrom_prefixWord_page (by dsimp only; omega) rfl,
    decodeFrom_prefixWord_regx (by dsimp only; omega) rfl, decodeFrom_imxWords _ (by dsimp only; omega) (by simpa using few)]
  simp [prefixesOf]

/-- They carry all that the base word does not. -/
theorem prefixesOf_carry {c : Chain} {e : Enc} (few : imxCount e.base ≤ 3) (len : c.len = (prefixesOf c e).count + 1) (word : c.word = e.base.half) :
    (prefixesOf c e).Carry c e where
  page := by simp [prefixesOf, Prefixes.pageNo]
  regx := by simp [prefixesOf]
  chain := by
    rw [show c = ⟨c.mod, (prefixesOf c e).count + 1, e.base.half⟩ by rw [← len, ← word]]
    simp [prefixesOf, Prefixes.chain]
  immediate := by
    intro wide
    have narrow : e.base.width ≤ 12 := by cases e.base <;> simp [BaseWord.width]
    have fits := fits_imxCount wide few
    simp only [Prefixes.immediate, prefixesOf, length_imxPayloads, pieces_eq_mod]
    exact extendImm_of_fits (by omega) (by omega) (by rwa [Nat.add_comm] at fits)

theorem encodable_iff {i : Instr} : i.encodable = true ↔ ∃ e, i.enc = some e ∧ i.wf = true ∧ imxCount e.base ≤ 3 ∧ (encode i).length ≤ 5 ∧
    i.chain.len = (encode i).length ∧ i.chain.word = e.base.half := by
  unfold Instr.encodable
  cases i.enc with
  | none => simp
  | some e => simp [and_assoc]

/-- A base word that decodes does not belong to the prefixes. -/
theorem not_isPrefixWord_of_decodeBase {p : Prefixes} {w : Half} {i : Instr} (h : decodeBase p w = some i) : isPrefixWord w = false := by
  by_contra hp
  have major : majorOf w = 0xF#4 := by simpa [isPrefixWord] using hp
  simp [decodeBase, major] at h

/-- Settles O37: the prefixes of an encoding are read back one by one and carry what its base word does not hold, and every row of the tables
reads back. -/
theorem decodeOfEncode : Obligations.DecodeOfEncode := by
  intro i rest h
  obtain ⟨e, he, wf, few, short, len, word⟩ := encodable_iff.1 h
  rw [length_encode he] at short len
  rw [decode_encode_prefixes he few (by omega)]
  have row := (decodes i).base _ e wf he (prefixesOf_carry few len word)
  exact decodeFrom_base (not_isPrefixWord_of_decodeBase row) row rest

end Sys2Proof
end

section
/-! Words of the spec's examples, as encodings. -/

namespace Sys2Proof

/-- Halfwords that are the encoding of an instruction decode to it. -/
theorem decode_toOption_of_encode {i : Instr} {hs : List Half} (encodable : i.encodable = true) (h : encode i = hs) :
    (decode hs).toOption = some (i, []) := by
  have back := decodeOfEncode i [] encodable
  rw [List.append_nil, h] at back
  rw [back]
  rfl

/-- Settles O38: each word is the encoding of what it stands for, but for the lane 9 of VEXT.I16, which no row takes. -/
theorem decodeWords : Obligations.DecodeWords := by
  refine ⟨?_, ?_, ?_, ?_, ?_, ?_, ?_, ?_, ?_, ?_, ?_, ?_, ?_, ?_, by decide +kernel⟩
  all_goals exact decode_toOption_of_encode (by decide +kernel) (by decide +kernel)
end Sys2Proof
end

section
/-! What an instruction asks of its thread before its own effect (R38 steps 2 and 3, R34, R39): every encoded instruction issues under rules
that name its thread, its mode and its guard. -/

namespace Sys2Proof.Machine

open Sys2Proof.Claims (computeOnly controlOnly privilegedUse unguarded)

/-- TQUAR, the one instruction of the service cores alone (R403). -/
def coreOnly : Instr → Bool
  | .tquar .. => true
  | _ => false

/-- The rules under which an instruction issues are those of its kind. -/
structure Op.Rules.Fit (r : Op.Rules) (i : Instr) : Prop where
  compute : r.compute = computeOnly i
  control : r.control = controlOnly i
  privileged : r.privileged = privilegedUse i
  core : r.core = coreOnly i
  guarded : r.guarded = !unguarded i

/-- An outcome of an instruction that is its effect issued under the rules of its kind. -/
structure Issued (i : Instr) (s : State) (o : Host.Outcome State Fault Refusal) : Prop where
  rules : ∃ r m, o = issue r i.chain s m ∧ r.Fit i

theorem Issued.of {i : Instr} {s : State} {o : Host.Outcome State Fault Refusal} {r : Op.Rules} {m : Op Unit} (he : o = issue r i.chain s m) (fit : r.Fit i) :
    Issued i s o := ⟨r, m, he, fit⟩

theorem sysRules_fit_mfs (c : Chain) (x : RegNum) (r : SysReg) : (sysRules r false).Fit (.mfs c x r) := by
  cases r <;> exact ⟨rfl, rfl, rfl, rfl, rfl⟩
theorem sysRules_fit_mts (c : Chain) (x : RegNum) (r : SysReg) : (sysRules r true).Fit (.mts c x r) := by
  cases r <;> exact ⟨rfl, rfl, rfl, rfl, rfl⟩

theorem issued_bar (c : Chain) (b : BitVec 2) (s : State) : Issued (.bar c b) s (execBar c b s) := by
  by_cases h : s.participates s.cur.1 s.cur.2 b.toNat = true
  · exact .of (if_pos h) ⟨rfl, rfl, rfl, rfl, rfl⟩
  · exact .of (if_neg h) ⟨rfl, rfl, rfl, rfl, rfl⟩

theorem issued_bars (c : Chain) (b : BitVec 2) (s : State) : Issued (.bars c b) s (execBars c b s) := by
  by_cases h : s.participates s.cur.1 s.cur.2 b.toNat = true
  · exact .of (if_pos h) ⟨rfl, rfl, rfl, rfl, rfl⟩
  · exact .of (if_neg h) ⟨rfl, rfl, rfl, rfl, rfl⟩

theorem issued_barr (c : Chain) (x : RegNum) (b : BitVec 2) (op : BarrOp) (s : State) : Issued (.barr c x b op) s (execBarr c x b op s) := by
  by_cases h : s.participates s.cur.1 s.cur.2 b.toNat = true
  · exact .of (if_pos h) ⟨rfl, rfl, rfl, rfl, rfl⟩
  · exact .of (if_neg h) ⟨rfl, rfl, rfl, rfl, rfl⟩

theorem issued_cinc (c : Chain) (k : BitVec 4) (x y : RegNum) (s : State) : Issued (.cinc c k x y) s (execCinc c k x y s) := by
  by_cases h : (y == 0) = true
  · exact .of (if_pos h) ⟨rfl, rfl, rfl, rfl, rfl⟩
  · exact .of (if_neg h) ⟨rfl, rfl, rfl, rfl, rfl⟩

/-- Every instruction issues under the rules of its kind; the rest are events, which have no encoding. -/
theorem issued_or_event (i : Instr) (s : State) : Issued i s (exec i s) ∨ (i.enc = none ∧ computeOnly i = false ∧ controlOnly i = false) := by
  cases i with
  | nop | trap | eret | brk | halt | sleep | align | pref | tstop | tsave | tload | tgo | tmap | tquar | zero | tlbinv | vote
  | add | sub | and | or | xor | shl | shr | sar | addw | subw | andn | orn | xnor | rol | ror | scadd | mul | mulh | mulhu | mulhsu
  | div | divu | rem | remu | slt | sltu | seq | sne | min | max | minu | maxu | clz | ctz | popc | brev | bswap | sexb | sexh | sexw
  | hxy | hidx | sel | j | call | jr | callr | ret | addi | andi | ori | xori | shli | shri | sari | li | lih | addpc
  | ldb | ldh | ldw | ldd | ldbs | ldhs | ldws | ldf | ldfd | ldfe | ldfed | vld | stb | sth | stw | std | ste | sted | stf | stfd | vst
  | bz | bnz | bltz | bgez | bq | bnq | loop | beq | bne | blt | bge | bltu | bgeu | lrw | sch | lro | sco | oinit
  | aadd | aand | aor | axor | amin | amax | aminu | amaxu | aswap | acas | afadd | afaddo
  | aaddw | aandw | aorw | axorw | aminw | amaxw | aminuw | amaxuw | aswapw | acasw | afaddw | afaddow
  | fence | fenceG | fenceM | fenceP | waitc | waitf | clrf | take | barcfg | barq
  | put | putv | get | send | cset | crd | post | arm | disarm
  | vadd | vsub | vmul | vfma | vmin | vmax | vaddmin | vdiv | vsqrt | vand | vor | vxor | vshl | vshr | vsar | vceq | vclt | vcle | vsel
  | vslu | vsld | vperm | vbcst | vext | vins | vredadd | vcvt | vcvtq | vsfu | vpeg
  | mtcfg | mfcfg | mld | mldl | mst | mpass | mzero | mrda | mwra | mscl | mma
  | scfg | sadv | sqry | sclr | cjoin | evpop | evwait
  | launch | cancel | gwait | gqry | spawn | seed | crdig | cron | croff | crstat =>
    simp only [exec]
    exact .inl (.of rfl ⟨rfl, rfl, rfl, rfl, rfl⟩)
  | cpy | cpyg | cpys | cpyz =>
    simp only [exec, execCpy, execCpyg, execCpys, execCpyz, copyIssue]
    exact .inl (.of rfl ⟨rfl, rfl, rfl, rfl, rfl⟩)
  | mfs => simp only [exec]; exact .inl (.of rfl (sysRules_fit_mfs ..))
  | mts => simp only [exec]; exact .inl (.of rfl (sysRules_fit_mts ..))
  | bar => simp only [exec]; exact .inl (issued_bar ..)
  | bars => simp only [exec]; exact .inl (issued_bars ..)
  | barr => simp only [exec]; exact .inl (issued_barr ..)
  | cinc => simp only [exec]; exact .inl (issued_cinc ..)
  | _ => exact .inr ⟨rfl, rfl, rfl⟩

/-- An instruction on a thread it is not for traps before anything else (R38). -/
theorem issue_wrong_thread {r : Op.Rules} {s : State} (h : (r.compute = true ∧ s.cur.2 = 0) ∨ (r.control = true ∧ s.cur.2 ≠ 0)) (c : Chain) (m : Op Unit) :
    issue r c s m = .next (s.trapHere 0x01 (c.word.setWidth 64)) := by
  refine if_pos ?_
  obtain ⟨kind, thread⟩ | ⟨kind, thread⟩ := h
  · simp [kind, thread]
  · simp [kind, thread]

/-- A guarded instruction whose guard fails falls through (R39), where it is on its thread and in its mode. -/
theorem issue_guard_fails {r : Op.Rules} {c : Chain} {s : State} (compute : r.compute = true → s.cur.2 ≠ 0) (control : r.control = true → s.cur.2 = 0)
    (privileged : r.privileged = true → s.me.sup = true) (core : r.core = true → State.isCore s.cur.1 = true) (guarded : r.guarded = true)
    (fails : Op.guardHolds s c = false) (m : Op Unit) : issue r c s m = .next (s.fell c) := by
  unfold issue
  rw [if_neg, if_neg, if_pos]
  · exact Op.run_ok (Op.retire_ok s c)
  · simp [guarded, fails]
  · simpa using ⟨privileged, core⟩
  · simpa using ⟨compute, control⟩

/-- Settles O29: an instruction is issued under the rules of its kind, and the kind of thread is the first of them. -/
theorem illegalOnThread : Obligations.IllegalOnThread := by
  intro i s h
  obtain ⟨r, m, he, fit⟩ | ⟨-, noCompute, noControl⟩ := issued_or_event i s
  · rw [he]
    exact issue_wrong_thread (by rwa [fit.compute, fit.control]) _ m
  · simp [noCompute, noControl] at h

/-- Settles O31: past the kind of thread and the mode, a guard that fails leaves nothing but the fall through. -/
theorem guardFails : Obligations.GuardFails := by
  intro i s encoded guarded compute control privileged core fails
  obtain ⟨r, m, he, fit⟩ | ⟨event, -⟩ := issued_or_event i s
  · rw [he]
    refine issue_guard_fails (fit.compute ▸ compute) (fit.control ▸ control) (fit.privileged ▸ privileged) ?_ ?_ ?_ m
    · rw [fit.core]
      cases i with
      | tquar => exact fun _ => core ⟨_, _, rfl⟩
      | _ => exact fun h => nomatch h
    · rw [fit.guarded, guarded]
      rfl
    · simp only [Op.guardHolds, fails, bne_self_eq_false]
  · simp [event] at encoded

end Sys2Proof.Machine
end

section
/-! A step in which a thread issues (R38, R60): the halfwords that `fetched` lists are those that the fetch feeds to the decoder one at a time, so
that both come to the same instruction, or the same offending halfword. -/

namespace Sys2Proof.Machine

open Sys2Proof.Claims (fetched fetching begun_)

/-! ### The fetch, halfword by halfword -/

/-- A further halfword is fetched first, and the others behind it. -/
theorem fetched_succ {s s' : State} {a th n : Nat} {va : Word} {hs : List Half} (h : fetched s a th va (n + 1) = some (hs, s')) :
    ∃ w s1 tl, s.fetchHalf a th va = .ok (w, s1) ∧ fetched s1 a th (va + 2) n = some (tl, s') ∧ hs = w :: tl := by
  unfold fetched at h
  split at h
  · next w s1 first =>
    obtain ⟨⟨tl, s2⟩, rest, eq⟩ := Option.map_eq_some_iff.1 h
    obtain ⟨rfl, rfl⟩ := Prod.mk.inj eq
    exact ⟨w, s1, tl, first, rest, rfl⟩
  · cases h

theorem fetched_zero {s s' : State} {a th : Nat} {va : Word} {hs : List Half} (h : fetched s a th va 0 = some (hs, s')) : hs = [] ∧ s' = s := by
  simpa [fetched, eq_comm] using h

theorem fetched_length {a th : Nat} {s' : State} : ∀ {n : Nat} {s : State} {va : Word} {hs : List Half},
    fetched s a th va n = some (hs, s') → hs.length = n
  | 0, _, _, _, h => by simp [(fetched_zero h).1]
  | n + 1, _, _, _, h => by
    obtain ⟨w, s1, tl, -, rest, rfl⟩ := fetched_succ h
    simp [fetched_length rest]

section
variable {a th : Nat} {s' : State}

/-- Halfwords that decode to an instruction, with none left over, are what the fetch reads of it. -/
theorem fetchChain_of_decode {i : Instr} {n : Nat} : ∀ {fuel : Nat} {s : State} {va : Word} {p : Prefixes} {hs : List Half}, n ≤ fuel →
    fetched s a th va n = some (hs, s') → decodeFrom p hs = .ok (i, []) → s.fetchChain a th p va fuel = .ok (.ok i, s') := by
  induction n with
  | zero =>
    intro fuel s va p hs _ h hd
    rw [(fetched_zero h).1, decodeFrom] at hd
    nomatch hd
  | succ n ih =>
    intro fuel s va p hs le h hd
    obtain ⟨fuel, rfl⟩ : ∃ k, fuel = k + 1 := ⟨fuel - 1, by omega⟩
    obtain ⟨w, s1, tl, first, rest, rfl⟩ := fetched_succ h
    rw [decodeFrom] at hd
    simp only [State.fetchChain, first]
    cases fed : p.feed w with
    | more p' =>
      rw [fed] at hd
      exact ih (Nat.le_of_succ_le_succ le) rest hd
    | done j =>
      rw [fed] at hd
      obtain ⟨rfl, rfl⟩ := Prod.mk.inj (Except.ok.inj hd)
      obtain rfl : n = 0 := (fetched_length rest).symm
      rw [(fetched_zero rest).2]
    | bad e =>
      rw [fed] at hd
      nomatch hd

theorem feed_not_truncated (p : Prefixes) (w : Half) : p.feed w ≠ .bad .truncated := by
  unfold Prefixes.feed
  split <;> split <;> simp

/-- What the decoder refuses is the halfword it was given. -/
theorem badHalf_of_feed {p : Prefixes} {w : Half} {e : DecodeError} (h : p.feed w = .bad e) : State.badHalf e = w := by
  unfold Prefixes.feed at h
  split at h <;> split at h <;> cases h <;> rfl

/-- Halfwords that are refused at the last of them are refused there by the fetch. -/
theorem fetchChain_of_refused {e : DecodeError} {n : Nat} (real : e ≠ .truncated) : ∀ {fuel : Nat} {s : State} {va : Word} {p : Prefixes} {hs : List Half},
    n < fuel → fetched s a th va (n + 1) = some (hs, s') → decodeFrom p (hs.take n) = .error .truncated → decodeFrom p hs = .error e →
    s.fetchChain a th p va fuel = .ok (.error e, s') ∧ State.badHalf e = hs.getLastD 0 := by
  induction n with
  | zero =>
    intro fuel s va p hs lt h _ hd
    obtain ⟨fuel, rfl⟩ : ∃ k, fuel = k + 1 := ⟨fuel - 1, by omega⟩
    obtain ⟨w, s1, tl, first, rest, rfl⟩ := fetched_succ h
    obtain ⟨rfl, rfl⟩ := fetched_zero rest
    rw [decodeFrom] at hd
    simp only [State.fetchChain, first]
    cases fed : p.feed w with
    | more p' =>
      rw [fed] at hd
      exact absurd (Except.error.inj hd).symm real
    | done j =>
      rw [fed] at hd
      nomatch hd
    | bad e' =>
      rw [fed] at hd
      obtain rfl := Except.error.inj hd
      exact ⟨rfl, badHalf_of_feed fed⟩
  | succ n ih =>
    intro fuel s va p hs lt h short hd
    obtain ⟨fuel, rfl⟩ : ∃ k, fuel = k + 1 := ⟨fuel - 1, by omega⟩
    obtain ⟨w, s1, tl, first, rest, rfl⟩ := fetched_succ h
    rw [List.take_succ_cons, decodeFrom] at short
    rw [decodeFrom] at hd
    simp only [State.fetchChain, first]
    cases fed : p.feed w with
    | more p' =>
      rw [fed] at hd short
      obtain ⟨chain, last⟩ := ih (Nat.lt_of_succ_lt_succ lt) rest short hd
      obtain ⟨w', s2, tl', -, -, rfl⟩ := fetched_succ rest
      exact ⟨chain, last⟩
    | done j =>
      rw [fed] at hd
      nomatch hd
    | bad e' =>
      rw [fed] at short
      obtain rfl := Except.error.inj short
      exact absurd fed (feed_not_truncated p w)
end

/-! ### The step -/

/-- Where a thread issues, the step is its fetch and what follows it. -/
theorem slot_of_fetching {s r : State} (h : fetching s = some r) :
    ∃ a ready split s0, s.nextMove = (.cycle a ready split, s0) ∧ s0.slot a ready split = r.fetchSlot r.cur.1 r.cur.2 := by
  unfold fetching at h
  split at h
  · next a ready split s0 move =>
    refine ⟨a, ready, split, s0, move, ?_⟩
    unfold State.slot
    split_ifs at h ⊢ with due
    dsimp only at h ⊢
    cases turn : ({ s0.advance a with split := split } : State).slotThread a ready with
    | none => simp [turn] at h
    | some th =>
      simp only [turn, Option.ite_none_right_eq_some, Bool.and_eq_true, Option.isNone_iff_eq_none, Option.some.injEq] at h
      obtain ⟨⟨issues, calm⟩, rfl⟩ := h
      simp only [Option.filter_some, issues, if_true, calm]
      rfl
  · nomatch h

theorem step_of_fetching_ok {s r s' : State} {i : Instr} (h : fetching s = some r)
    (chain : r.fetchChain r.cur.1 r.cur.2 {} (r.thread r.cur.1 r.cur.2).pc 6 = .ok (.ok i, s')) : step s = exec i (begun_ s' r.cur.1) := by
  obtain ⟨a, ready, split, s0, move, slot⟩ := slot_of_fetching h
  simp only [step, move, slot, State.fetchSlot, chain]
  rfl

theorem step_of_fetching_error {s r s' : State} {e : DecodeError} (h : fetching s = some r)
    (chain : r.fetchChain r.cur.1 r.cur.2 {} (r.thread r.cur.1 r.cur.2).pc 6 = .ok (.error e, s')) :
    step s = .next ((begun_ s' r.cur.1).trapHere 0x01 ((State.badHalf e).setWidth 64)) := by
  obtain ⟨a, ready, split, s0, move, slot⟩ := slot_of_fetching h
  simp only [step, move, slot, State.fetchSlot, chain]
  rfl

/-- Settles O39: the fetch reads what the decoder reads, and an event is its own meaning. -/
theorem stepRunsDecoded : Obligations.StepRunsDecoded := by
  refine ⟨fun s r s' n hs i h le fetch decoded => step_of_fetching_ok h (fetchChain_of_decode le fetch decoded), fun s e move event => ?_⟩
  cases next : s.nextMove with
  | mk m s0 =>
    rw [next] at move
    obtain rfl : m = .event e := move
    simp only [step, next, event, if_true]

/-- Settles O41: the fetch stops at the halfword that the decoder refuses. -/
theorem stepIllegal : Obligations.StepIllegal := by
  intro s r s' n hs e h lt fetch short refused real
  obtain ⟨chain, last⟩ := fetchChain_of_refused real lt fetch short refused
  rw [step_of_fetching_error h chain, last]

end Sys2Proof.Machine
end

section
/-! Register numbers (R40, R116): what a number names, and that a new thread's predicates are zero (R341, R342). -/

namespace Sys2Proof.Machine

/-! ### Classes of register numbers (R40) -/

theorem regClass_zero : regClass 0 = .zero := rfl

theorem regClass_general {n : RegNum} (pos : 0 < n.toNat) (h : n.toNat < 32) : regClass n = .general n.toNat := by
  simp [regClass, Nat.ne_of_gt pos, h]

theorem regClass_none : ∀ n : RegNum, n.toNat ∈ [45, 46, 47, 61, 62, 63] → regClass n = .none := by decide

theorem regClass_readOnly : ∀ n : RegNum, n.toNat ∈ [44, 56, 57, 58, 59, 60] → regClass n ∈ [.inbox, .tid, .vtn, .rank, .gsize, .gidx] := by decide

theorem regClass_tid : ∀ n : RegNum, n.toNat = 56 → regClass n = .tid := by decide

namespace State
variable (s : State) (a th : Nat) {n m : RegNum} (v : Word) (lat : Nat)

theorem readG_zero (h : regClass n = .zero ∨ regClass n = .none) : s.readG a th n = (0, s) := by
  obtain h | h := h <;> simp only [readG, h]

theorem writeG_discards (h : regClass n ∈ [.zero, .none, .inbox, .tid, .vtn, .rank, .gsize, .gidx]) : s.writeG a th n v lat = s := by
  simp only [List.mem_cons, List.not_mem_nil, or_false] at h
  obtain h | h | h | h | h | h | h | h := h <;> simp only [writeG, h]

theorem readG_general {k : Nat} (h : regClass n = .general k) : (s.readG a th n).1 = vget (s.thread a th).g k 0 := by
  simp only [readG, h]

theorem writeG_general {k : Nat} (h : regClass n = .general k) : s.writeG a th n v lat = s.modThread a th fun t => t.setG k v := by
  simp only [writeG, h]

theorem readG_writeG_same (h4 : th < 4) (pos : 0 < n.toNat) (h : n.toNat < 32) : ((s.writeG a th n v lat).readG a th n).1 = v := by
  rw [readG_general _ _ _ (regClass_general pos h), writeG_general _ _ _ _ _ (regClass_general pos h), thread_modThread _ _ _ _ h4]
  exact vget_vset_self _ _ _ _ h

theorem readG_writeG_ne (h4 : th < 4) (pos : 0 < n.toNat) (h : n.toNat < 32) (ne : m ≠ n) (hm : m.toNat < 32) :
    ((s.writeG a th n v lat).readG a th m).1 = (s.readG a th m).1 := by
  by_cases zero : m = 0
  · subst zero
    rw [readG_zero _ _ _ (.inl rfl), readG_zero _ _ _ (.inl rfl)]
  · have mpos : 0 < m.toNat := Nat.pos_of_ne_zero fun e => zero (BitVec.eq_of_toNat_eq e)
    rw [readG_general _ _ _ (regClass_general mpos hm), readG_general _ _ _ (regClass_general mpos hm),
      writeG_general _ _ _ _ _ (regClass_general pos h), thread_modThread _ _ _ _ h4]
    exact vget_vset_ne _ _ _ fun e => ne (BitVec.eq_of_toNat_eq e.symm)

/-! ### Predicates (R116) -/

theorem readQ_zero : s.readQ a th 0 = 0xFFFF#16 := rfl
theorem writeQ_zero (w : BitVec 16) : s.writeQ a th 0 w = s := rfl

theorem readQ_control {k : Nat} (h : k ≠ 0) : s.readQ a 0 k = 0 := by simp [readQ, h]
theorem writeQ_control (k : Nat) (w : BitVec 16) : s.writeQ a 0 k w = s := by simp [writeQ]

theorem readQ_compute {k : Nat} (h : k ≠ 0) (compute : th ≠ 0) : s.readQ a th k = vget (s.thread a th).q k 0 := by simp [readQ, h, compute]

theorem readQ_writeQ_same {k : Nat} (w : BitVec 16) (h4 : th < 4) (hk : k < 8) (h : k ≠ 0) (compute : th ≠ 0) : (s.writeQ a th k w).readQ a th k = w := by
  rw [readQ_compute _ _ _ h compute]
  simp [writeQ, h, compute, h4, Thread.setQ, hk]

/-! ### What a change of a thread, a push or a write of a general register leaves of the threads -/

/-- A part of a thread that an update leaves alone is as it was, in that thread and in every other. -/
theorem thread_modThread_part {α : Type} {part : Thread → α} {f : Thread → Thread} (hf : ∀ t, part (f t) = part t) (b u : Nat) :
    part ((s.modThread a th f).thread b u) = part (s.thread b u) := by
  by_cases same : a = b ∧ th = u
  · obtain ⟨rfl, rfl⟩ := same
    by_cases h4 : th < 4
    · rw [thread_modThread _ _ _ _ h4, hf]
    · simp [thread, modThread_eq, vget, vset, h4]
  · rw [thread_modThread_ne _ _ (by omega)]

theorem rollWhere_part {α : Type} {part : Thread → α} (hp : ∀ t : Thread, part { t with rollback := true } = part t) (p : Watch → Bool) (b u : Nat) :
    part ((s.rollWhere p).thread b u) = part (s.thread b u) := by
  unfold rollWhere
  generalize s.watches.filter p = ws
  induction ws generalizing s with
  | nil => rfl
  | cons w ws ih => rw [List.foldl_cons, ih, thread_modThread_part _ _ _ hp]

section
variable {α : Type} {part : Thread → α} (rolled : ∀ t : Thread, part { t with rollback := true } = part t) (b u : Nat)
include rolled

theorem streamPush_part (h w : Nat) : part ((s.streamPush a h w).thread b u) = part (s.thread b u) := by
  unfold streamPush
  dsimp only
  split
  · rw [thread_modTile]
    · exact rollWhere_part _ rolled _ _ _
    · exact fun _ => rfl
  · rfl

theorem performPush_part (p : Push) : part ((s.performPush a p).thread b u) = part (s.thread b u) := by
  unfold performPush
  cases p.to_ with
  | link d => rw [thread_linkPush]
  | stream h => exact streamPush_part _ _ rolled _ _ _ _

theorem pushLater_part (p : PushTo) (w : VReg) : part ((s.pushLater a th p w lat).thread b u) = part (s.thread b u) := by
  unfold pushLater
  dsimp only
  split
  · exact performPush_part _ _ rolled _ _ _
  · rw [thread_modTile]
    exact fun _ => rfl

theorem writeG_part (written : ∀ (t : Thread) k w, part (t.setG k w) = part t) (n : RegNum) : part ((s.writeG a th n v lat).thread b u) = part (s.thread b u) := by
  unfold writeG
  cases regClass n with
  | general k => exact thread_modThread_part _ _ _ (fun t => written t k v) _ _
  | shared r => exact congrArg part (thread_modTile _ _ _ _ _ fun _ => rfl)
  | ln | lnf | lp | lpf | stream => exact pushLater_part _ _ _ _ rolled _ _ _ _
  | zero | inbox | tid | vtn | rank | gsize | gidx | none => rfl
end

/-- A read takes from a queue, and stands with the instruction that took it. -/
theorem src_live (n : RegNum) (b u : Nat) : ((s.src n).2.thread b u).live = (s.thread b u).live := by
  by_cases pops : Op.pops n = true
  · rw [src_popping s n pops]
    have kept : ∀ l h (t : Thread), (t.setPops l h).live = t.live := fun _ _ _ => rfl
    rw [modMe, thread_modThread_part (part := Thread.live) _ _ _ (fun t => kept _ _ t), (s.readG_frame s.cur.1 s.cur.2 n).1]
  · rw [src_plain s n pops]

end State

/-! ### The predicates of a thread that completes, or starts -/

theorem Thread.loopStep0_q (t : Thread) (next : Word) (taken : Bool) : (t.loopStep0 next taken).1.q = t.q := by
  unfold loopStep0
  split
  · rfl
  · split <;> rfl

theorem Thread.complete_q (t : Thread) (next : Word) (taken : Bool) : (t.complete next taken).q = t.q := by
  show (t.loopStep next taken).1.q = t.q
  unfold loopStep
  split
  · exact t.loopStep0_q next taken
  · split
    · rfl
    · rfl
    · exact Thread.loopStep0_q _ next taken

namespace State
variable (s : State)

theorem fell_q (c : Chain) (b u : Nat) : ((s.fell c).thread b u).q = (s.thread b u).q :=
  thread_modThread_part (part := Thread.q) _ _ _ (fun t => t.complete_q _ _) b u

theorem dst_q (n : RegNum) (v : Word) (lat b u : Nat) : ((s.dst n v lat).thread b u).q = (s.thread b u).q :=
  writeG_part (part := Thread.q) _ _ _ _ _ (fun _ => rfl) _ _ (fun _ _ _ => rfl) _

theorem startThread_q {a th : Nat} (h4 : th < 4) (pc arg g4 : Word) : ((s.startThread a th pc arg g4).thread a th).q = Vector.replicate 8 0 := by
  unfold startThread
  dsimp only
  rw [thread_modThread _ _ _ _ h4]

/-- SPAWN starts the thread named where it is not live and the entry is a code address (R341). -/
theorem spawnOn_starts {a : Nat} {e w : Word} (other : w.toNat % 4 ≠ 0) (code : tagOf e = 4) (even : e.getLsbD 0 = false)
    (idle : (s.thread a (w.toNat % 4)).live = false) : s.spawnOn a e w = (0, s.startThread a (w.toNat % 4) e w 0) := by
  have named : (w.extractLsb' 0 2).toNat = w.toNat % 4 := by simp [BitVec.extractLsb'_toNat]
  simp only [spawnOn, named, other, code, even, idle]
  rfl

end State

theorem execSpawn_eq {c : Chain} {x y : RegNum} {s : State} (h : s.admits Claims.settled c = true) (hr : s.atHand [.g y, .g x] [.g x] = true) :
    exec (.spawn c x y) s =
      let read := (s.src y).2.src x
      let r := read.2.spawnOn s.cur.1 read.1 (s.src y).1
      .next ((r.2.dst x (BitVec.ofNat 64 r.1)).fell c) := by
  have hh := State.atHand_held hr
  have hx := (State.src_held s y (State.admits_lt h)).trans hh
  have cur : ((s.src y).2.src x).2.cur = s.cur := (State.src_cur _ _).trans (State.src_cur _ _)
  refine (issue_admitted h).trans (Op.run_ok ?_)
  rw [Op.bind_ok (Op.need_ok hr), Op.bind_ok (Op.readG_ok y hh), Op.bind_ok (Op.readG_ok x hx), ← cur]
  rfl

/-- A thread that SPAWN starts has its predicates zero (R342). -/
theorem execSpawn_q {c : Chain} {x y : RegNum} {s t : State} (h : s.admits Claims.settled c = true) (hr : s.atHand [.g y, .g x] [.g x] = true)
    (other : (s.src y).1.toNat % 4 ≠ 0) (code : State.tagOf ((s.src y).2.src x).1 = 4) (even : ((s.src y).2.src x).1.getLsbD 0 = false)
    (idle : (s.thread s.cur.1 ((s.src y).1.toNat % 4)).live = false) (run : exec (.spawn c x y) s = .next t) :
    (t.thread s.cur.1 ((s.src y).1.toNat % 4)).q = Vector.replicate 8 0 := by
  simp only [execSpawn_eq h hr] at run
  have idle' : (((s.src y).2.src x).2.thread s.cur.1 ((s.src y).1.toNat % 4)).live = false := by
    rw [State.src_live, State.src_live, idle]
  rw [State.spawnOn_starts _ other code even idle'] at run
  obtain rfl := Host.Outcome.next.inj run
  rw [State.fell_q, State.dst_q, State.startThread_q _ (Nat.mod_lt _ (by decide))]

/-- Settles O33: by what each class of numbers reads and keeps, and by the predicates of the thread that SPAWN starts. -/
theorem registerNumbers : Obligations.RegisterNumbers := by
  refine ⟨fun s a th n v lat h4 => ⟨fun h => ?_, fun h => ?_, fun h => ?_, fun pos h => ⟨?_, ?_, ?_⟩⟩, fun s a th n w h4 hn => ⟨?_, ?_, ?_, ?_⟩,
    fun s c control pred => ?_, fun c x y s t k n h hr hk other code even idle pos hn run => ?_⟩
  · have empty : regClass n = .zero ∨ regClass n = .none := by
      obtain rfl | h := h
      · exact .inl regClass_zero
      · exact .inr (regClass_none n h)
    refine ⟨s.readG_zero a th empty, s.writeG_discards a th v lat ?_⟩
    obtain e | e := empty <;> simp [e]
  · refine s.writeG_discards a th v lat ?_
    have readOnly := regClass_readOnly n h
    simp only [List.mem_cons] at readOnly ⊢
    tauto
  · simp only [State.readG, regClass_tid n h]
  · exact s.readG_writeG_same a th v lat h4 pos h
  · exact fun m ne hm => s.readG_writeG_ne a th v lat h4 pos h ne hm
  · rw [s.writeG_general a th v lat (regClass_general pos h), State.modThread_mem]
  · exact s.readQ_zero a th
  · exact s.writeQ_zero a th w
  · exact fun ne => ⟨s.readQ_control a ne, s.writeQ_control a n w⟩
  · exact fun ne compute => s.readQ_writeQ_same a th w h4 hn ne compute
  · have ne : c.pred.toNat ≠ 0 := fun e => pred (BitVec.eq_of_toNat_eq e)
    simp [Op.guardHolds, control, State.readQ_control _ _ ne]
  · subst hk
    rw [State.readQ_compute _ _ _ (Nat.ne_of_gt pos) other, execSpawn_q h hr other code even idle run]
    simp [vget, hn]

end Sys2Proof.Machine
end

section
/-! The reads of VTN do not hold as stated. VTN is a field of 32 bits, in which core q is 0xFFFF_FFF0 + q (R455, R459); `fixedReg` takes that sum in 64
bits, for every agent number. The two differ where q is 16 or more. -/

namespace Sys2Proof.Machine

open Sys2Proof.Claims

/-- MFS of an admitted thread delivers what the register reads. -/
theorem execMfs_eq {c : Chain} {x : RegNum} {r : SysReg} {s : State} (h : s.admits (mfsAt r) c = true) (hr : s.atHand [] [.g x] = true) :
    exec (.mfs c x r) s = .next ((s.dst x (s.sysRead s.cur.1 s.cur.2 r)).fell c) := by
  refine (issue_admitted h).trans (Op.run_ok ?_)
  rw [Op.bind_ok (Op.need_ok hr)]
  rfl

/-- A core's VTN stays within 32 bits, whatever its number. -/
theorem State.sysRead_vtn_core (s : State) {a : Nat} (th : Nat) (core : isCore a = true) :
    (s.sysRead a th .vtn).toNat = (0xFFFFFFF0 + coreNo a) % 2 ^ 32 := by
  simp only [sysRead, recordVtn, core, if_true]
  bv_omega

/-- Thread 1 of agent 65,552, which stands where a service core of number 16 would, issues after reset. -/
def farCore : State := { State.reset with cur := (65552, 1) }

/-- MFS g1, VTN. -/
def readsVtn : Chain := ⟨0, 1, 0x0330⟩

theorem farCore_reads_zero : farCore.sysRead farCore.cur.1 farCore.cur.2 .vtn = 0 :=
  BitVec.eq_of_toNat_eq (State.sysRead_vtn_core farCore 1 (a := 65552) rfl)

/-- Refutes O52: MFS VTN of an agent number that stands for a core 16 reads 0, where `fixedReg` gives 2^32. No hypothesis keeps the issuing agent among
the four service cores of R12. -/
theorem not_systemRegisters : ¬ Obligations.SystemRegisters := by
  unfold Obligations.SystemRegisters
  rintro ⟨-, fixed, -⟩
  have admitted : farCore.admits (mfsAt .vtn) readsVtn = true := by decide +kernel
  have ready : farCore.atHand [] [.g 1] = true := by decide +kernel
  have claimed := fixed readsVtn 1 .vtn 0x100000000 farCore rfl admitted ready
  rw [execMfs_eq admitted ready, farCore_reads_zero] at claimed
  have g1 : vget ((farCore.dst 1 0).fell readsVtn).me.g 1 0 = vget ((farCore.dst 1 0x100000000).fell readsVtn).me.g 1 0 :=
    congrArg (fun t : State => vget t.me.g 1 0) (Host.Outcome.next.inj claimed)
  exact absurd g1 (by decide +kernel)

end Sys2Proof.Machine
end

section
/-! The integer elements of MMA do not hold as stated. The statement takes every element of B as a byte, and asks of A alone that its format is INT8; where
B's is BF16 or FP16, the model's sum takes B's elements as they stand, at two bytes each. -/

namespace Sys2Proof.Machine

open Sys2Proof.Claims

/-- Tile 0 after reset, with m0 one row of 16 INT8 elements that starts with 1, and m1 one of 8 FP16 elements that starts with 0x0200. -/
def mixedPair : State :=
  ((State.reset.modTile 0 fun t => { t with mcfg := #v[0x113, 0x115, 0x2080, 0x2080] }).pokeN (rowsKey 0 0) 1 1).pokeN (rowsKey 0 1) 2 0x0200

/-- `signedOf 8` takes 2^8 off 0x0200 and leaves 2^8. -/
theorem mixedPair_mmaElement : mixedPair.mmaElement 0 0 0 1 0 0 = (256, 0) := by decide +kernel

/-- The low byte of 0x0200 is 0, and so is every product. -/
theorem mixedPair_products : ((List.range (rowLength 0x113)).map fun k => (BitVec.ofNat 8 (elementBits mixedPair 0 0 0 k)).toInt *
    (BitVec.ofNat 8 (elementBits mixedPair 0 1 0 k)).toInt).sum = 0 := by decide +kernel

/-- Refutes O56: with A = m0 of INT8 and B = m1 of FP16, the model's element is 256 and the sum of the low bytes' products is 0. No hypothesis of the clause
makes the pair one that R295 allows. -/
theorem not_numericContent : ¬ Obligations.NumericContent := by
  unfold Obligations.NumericContent
  rintro ⟨-, -, -, -, -, -, elements⟩
  have int : (vget (mixedPair.tile 0).mcfg 0 0x2080).toNat % 8 = 3 := by decide +kernel
  have claimed := (elements mixedPair 0 0 0 1 0 0 (by decide) (by decide)).1 int
  rw [mixedPair_mmaElement, show vget (mixedPair.tile 0).mcfg 0 0x2080 = 0x113 from rfl, mixedPair_products] at claimed
  exact absurd claimed (by decide +kernel)

end Sys2Proof.Machine
end

section
/-! Control flow (R118 to R126): branches, jumps, calls and returns, and LOOP. -/

namespace Sys2Proof.Machine

open Sys2Proof.Claims

/-! ### Checks and the first operand -/

namespace Op
variable {α β : Type} {s : State}

theorem require_of {b : Bool} (h : b = true) (cause : BitVec 8) (v : Word) : require b cause v s = .ok ((), s) := by rw [h]; rfl

theorem next_eq_after (s : State) (c : Chain) : next s c = s.after c := rfl

/-- Operands at hand are checked and the first of them is read. -/
theorem need_readG {f : Word → Op β} {reads dests : List OpRef} (n : RegNum) (hr : s.atHand reads dests = true) :
    (need reads dests >>= fun _ => readG n >>= f) s = f (s.src n).1 (s.src n).2 := by
  rw [bind_ok (need_ok hr), bind_ok (readG_ok n (State.atHand_held hr))]

end Op

theorem jumpCheck_even {t : Word} {s : State} (h : t.getLsbD 0 = false) : jumpCheck t s = .ok ((), s) := Op.require_of (by rw [h]; rfl) _ _

/-! ### Branches -/

theorem State.target_eq (s : State) (o : Word) : targetOf s o = target s o := by
  unfold targetOf target
  rw [BitVec.mul_comm]

theorem signBit_iff (a : Word) : a.getLsbD 63 = true ↔ a.toInt < 0 := by
  rw [show a.getLsbD 63 = a.msb from rfl, BitVec.msb_eq_toInt, decide_eq_true_iff]

/-- A branch that is decided: to its target where it is taken, and through elsewhere. -/
theorem branch_decided {p : Prop} {b : Bool} {went fell : State} {o : Host.Outcome State Fault Refusal} (h : o = .next (if b then went else fell))
    (hb : b = true ↔ p) : (p → o = .next went) ∧ (¬p → o = .next fell) := by
  subst h
  exact ⟨fun hp => by rw [if_pos (hb.2 hp)], fun hp => by rw [if_neg (mt hb.1 hp)]⟩

theorem branchQ_next {c : Chain} {q : BitVec 3} {o : Word} {p : BitVec 16 → Bool} {s : State} :
    Op.run s c (branchQ c q o p) = .next (if p (s.readQ s.cur.1 s.cur.2 q.toNat) then s.went (target s o) true else s.fell c) := by
  apply Op.run_ok
  rw [← s.target_eq o]
  show branchIf c o (p (s.readQ s.cur.1 s.cur.2 q.toNat)) s = _
  cases p (s.readQ s.cur.1 s.cur.2 q.toNat) <;> rfl

section
variable {c : Chain} {x y : RegNum} {o : Word} {s : State} (h : s.admits {} c = true)
include h

/-- A branch on one register whose test is a condition. -/
theorem branch1_decides {p : Word → Bool} {P : Word → Prop} (test : ∀ a, p a = true ↔ P a) (hr : s.atHand [.g x] [] = true) :
    (P (s.src x).1 → issue {} c s (branch1 c x o p) = .next ((s.src x).2.went (target s o) true)) ∧
    (¬P (s.src x).1 → issue {} c s (branch1 c x o p) = .next ((s.src x).2.fell c)) := by
  refine branch_decided ?_ (test _)
  rw [issue_admitted h, branch1_next (State.admits_lt h) hr, ← s.target_eq o]
  rfl

/-- A branch on two registers whose test is a condition. -/
theorem branch2_decides {p : Word → Word → Bool} {P : Word → Word → Prop} (test : ∀ a b, p a b = true ↔ P a b) (hr : s.atHand [.g x, .g y] [] = true) :
    (P (s.src x).1 ((s.src x).2.src y).1 → issue {} c s (branch2 c x y o p) = .next (((s.src x).2.src y).2.went (target s o) true)) ∧
    (¬P (s.src x).1 ((s.src x).2.src y).1 → issue {} c s (branch2 c x y o p) = .next (((s.src x).2.src y).2.fell c)) := by
  refine branch_decided ?_ (test _ _)
  rw [issue_admitted h, branch2_next (State.admits_lt h) hr, ← s.target_eq o]
  rfl

/-! ### Jumps, calls and returns -/

theorem execJr_even (hr : s.atHand [.g x] [] = true) (even : (s.src x).1.getLsbD 0 = false) :
    exec (.jr c x) s = .next ((s.src x).2.went (s.src x).1 true) := by
  refine (issue_admitted h).trans (Op.run_ok ?_)
  rw [Op.need_readG x hr, Op.bind_ok (jumpCheck_even even)]
  rfl

theorem execRet_even (hr : s.atHand [.g 1] [] = true) (even : (s.src 1).1.getLsbD 0 = false) :
    exec (.ret c) s = .next (((s.src 1).2.modMe Thread.loopReturn).went (s.src 1).1 false) := by
  refine (issue_admitted h).trans (Op.run_ok ?_)
  rw [Op.need_readG 1 hr, Op.bind_ok (jumpCheck_even even)]
  rfl

theorem execCallr_even (hr : s.atHand [.g x] [.g 1] = true) (even : (s.src x).1.getLsbD 0 = false) :
    exec (.callr c x) s = .next ((((s.src x).2.dst 1 (s.after c)).modMe fun t => { t with ldepth := depthUp t.ldepth }).went (s.src x).1 false) := by
  refine (issue_admitted h).trans (Op.run_ok ?_)
  rw [Op.need_readG x hr, Op.bind_ok (jumpCheck_even even), ← State.src_after s x c (State.admits_lt h)]
  rfl

theorem execCall_eq (hr : s.atHand [] [.g 1] = true) : exec (.call c o) s =
    .next (((s.dst 1 (s.after c)).modMe fun t => { t with ldepth := depthUp t.ldepth }).went (target s o) false) := by
  refine (issue_admitted h).trans (Op.run_ok ?_)
  rw [Op.bind_ok (Op.need_ok hr), ← s.target_eq o]
  rfl

/-! ### LOOP -/

section
variable (hr : s.atHand [.g x] [] = true) (order : (s.after c).toNat < (target s o).toNat)
include hr order

/-- LOOP whose count is zero goes to its end (R125). -/
theorem execLoop_zero (zero : (s.src x).1 = 0) : exec (.loop c x o) s = .next ((s.src x).2.went (target s o) false) := by
  refine (issue_admitted h).trans (Op.run_ok ?_)
  rw [← s.target_eq o, ← Op.next_eq_after] at order
  rw [← s.target_eq o, Op.need_readG x hr, Op.bind_ok (Op.require_of (decide_eq_true order) _ _), if_pos (beq_iff_eq.2 zero)]
  rfl

/-- LOOP makes an entry where one is free (R125). -/
theorem execLoop_enters (count : (s.src x).1 ≠ 0) (free : s.me.loop1.valid = false) : exec (.loop c x o) s =
    .next (((s.src x).2.modMe (makeLoop (s.after c) (target s o) (s.src x).1)).went (s.after c) false) := by
  refine (issue_admitted h).trans (Op.run_ok ?_)
  rw [← s.target_eq o, ← Op.next_eq_after] at order
  rw [← s.target_eq o, Op.need_readG x hr, Op.bind_ok (Op.require_of (decide_eq_true order) _ _), if_neg (mt beq_iff_eq.1 count),
    Op.bind_ok (Op.require_of (by rw [free]; rfl) _ _)]
  rfl

end
end

/-- Settles O5: both ends of LOOP's test of its count. -/
theorem loopResult : Obligations.LoopResult := fun _ _ _ _ h hr order =>
  ⟨execLoop_zero h hr order, execLoop_enters h hr order⟩

/-- The branches on general registers are of two shapes, each with a test of its own. -/
theorem branchG_shape {i : Instr} {c : Chain} {x : RegNum} {y : Option RegNum} {o : Word} {p : Word → Word → Prop}
    (form : branchG i = some (c, x, y, o, p)) :
    (∃ f : Word → Bool, y = none ∧ (∀ s, exec i s = issue {} c s (branch1 c x o f)) ∧ ∀ a, f a = true ↔ p a 0) ∨
    (∃ (z : RegNum) (f : Word → Word → Bool), y = some z ∧ (∀ s, exec i s = issue {} c s (branch2 c x z o f)) ∧ ∀ a b, f a b = true ↔ p a b) := by
  unfold branchG at form
  split at form <;> cases form
  case h_1 => exact .inl ⟨fun a => a == 0, rfl, fun _ => rfl, fun _ => beq_iff_eq⟩
  case h_2 => exact .inl ⟨fun a => a != 0, rfl, fun _ => rfl, fun _ => bne_iff_ne⟩
  case h_3 => exact .inl ⟨fun a => a.getLsbD 63, rfl, fun _ => rfl, signBit_iff⟩
  case h_4 => exact .inl ⟨fun a => !a.getLsbD 63, rfl, fun _ => rfl, fun a => by
    rw [Bool.not_eq_true', ← Bool.not_eq_true, signBit_iff, Int.not_lt]⟩
  case h_5 z => exact .inr ⟨z, fun a b => a == b, rfl, fun _ => rfl, fun _ _ => beq_iff_eq⟩
  case h_6 z => exact .inr ⟨z, fun a b => a != b, rfl, fun _ => rfl, fun _ _ => bne_iff_ne⟩
  case h_7 z => exact .inr ⟨z, sltW, rfl, fun _ => rfl, fun a b => by simp [sltW]⟩
  case h_8 z => exact .inr ⟨z, fun a b => !sltW a b, rfl, fun _ => rfl, fun a b => by simp [sltW]⟩
  case h_9 z => exact .inr ⟨z, ultW, rfl, fun _ => rfl, fun a b => by simp [ultW]⟩
  case h_10 z => exact .inr ⟨z, fun a b => !ultW a b, rfl, fun _ => rfl, fun a b => by simp [ultW]⟩

/-- Settles O4: the branches by their two shapes, every other form by its own lemma. -/
theorem branchResult : Obligations.BranchResult := by
  refine ⟨fun i c x y o p s form h hr => ?_, fun c s o h => ⟨fun q => ⟨?_, ?_⟩, ?_, execCall_eq h, fun x => execJr_even h, fun x => execCallr_even h,
    execRet_even h⟩⟩
  · obtain ⟨f, rfl, shape, test⟩ | ⟨z, f, rfl, shape, test⟩ := branchG_shape form
    · rw [shape]
      exact branch1_decides h test hr
    · rw [shape]
      exact branch2_decides h test hr
  · refine (issue_admitted h).trans (branchQ_next.trans ?_)
    simp only [bne_iff_ne]
  · refine (issue_admitted h).trans (branchQ_next.trans ?_)
    simp only [beq_iff_eq]
  · rw [← s.target_eq o]
    exact issue_admitted h

end Sys2Proof.Machine
end

section
/-! The traps of operands do not hold as stated: a CJOIN of a command in flight parks with nothing changed (R98), while the statement keeps the thread in
the state after the read of its operand. The two differ where the operand pops. -/

namespace Sys2Proof.Machine

open Sys2Proof.Claims

theorem Op.run_park {c : Chain} {s : State} {m : Op Unit} {p : Park} (h : m s = .error (.park p)) : run s c m = .next (s.parkMe c p) := by
  simp [run, h]

/-- CJOIN of a command in flight parks its thread in the state in which it issues. -/
theorem execCjoin_waits {c : Chain} {x : RegNum} {s : State} {i : Nat} {k : CopyCmd} (h : s.admits engineAt c = true) (hr : s.atHand [.g x] [] = true)
    (slot : (s.src x).2.slotOf (s.src x).2.cur.1 ((s.src x).1.setWidth 32) = some (i, k)) (going : k.phase ≠ .faulted) :
    exec (.cjoin c x) s = .next (s.parkMe c (.cjoin ((s.src x).1 &&& 0xFFFFFFFF#64))) := by
  refine (issue_admitted h).trans (Op.run_park ?_)
  rw [Op.bind_ok (Op.need_ok hr), Op.bind_ok (Op.readG_ok x (State.atHand_held hr)), Op.bind_ok (s' := (s.src x).2) (a := (s.src x).2) rfl, slot]
  dsimp only
  rw [if_neg (mt beq_iff_eq.1 going)]
  rfl

/-- CJOIN of the number that the inbox holds. -/
def joinsInbox : Chain := ⟨0, 2, 0xE808⟩

/-- A copy command of thread 1 that moves eight bytes of its pad. -/
def copying : CopyCmd :=
  { kind := .cpy, number := 5, src := 0, dst := 0x100, idx := 0, len := 8, esz := 0, stream := 0, fin := 0, thread := 1, phase := .running }

/-- Thread 1 of tile 0 issues; slot 0 of the tile runs copy command 5, whose number stands in the inbox. -/
def joiner : State := { State.reset with cur := (0, 1) }.modTile 0 fun t => { t with inbox := [5], copies := vset t.copies 0 (some copying) }

/-- Refutes O53: CJOIN of register 44 while command 5 runs. The model leaves the word in the inbox and has nothing popped; the statement has it popped. -/
theorem not_operandTraps : ¬ Obligations.OperandTraps := by
  unfold Obligations.OperandTraps
  rintro ⟨-, -, -, -, joins⟩
  have admitted : joiner.admits engineAt joinsInbox = true := by decide +kernel
  have ready : joiner.atHand [.g 44] [] = true := by decide +kernel
  have slot : (joiner.src 44).2.slotOf (joiner.src 44).2.cur.1 ((joiner.src 44).1.setWidth 32) = some (0, copying) := by decide +kernel
  have claimed := (joins joinsInbox 44 joiner 0 copying admitted ready (by decide) (by decide +kernel) (by decide +kernel)
    (fun j lt => absurd lt (Nat.not_lt_zero j))).2 (by decide)
  rw [execCjoin_waits admitted ready slot (by decide)] at claimed
  have popped := congrArg (fun t : State => t.me.popped) (Host.Outcome.next.inj claimed)
  exact absurd popped (by decide +kernel)

end Sys2Proof.Machine
end

section
/-! What outstanding accesses leave does not hold as stated. The statement takes a thread's only outstanding store to be performed at once; a store to pod
space stays outstanding while an earlier one of its tile to the same module does (R174, R185), whichever thread has issued that. -/

namespace Sys2Proof.Machine

open Sys2Proof.Claims

/-- A store behind an earlier one of its tile to the same module is not performed. -/
theorem State.relaxedStep_behind {s : State} {a th i : Nat} {r : Relaxed} (stands : (s.thread a th).relaxed[i]? = some r) (behind : s.behindStore a r = true) :
    s.relaxedStep a th i = .ok s := by
  simp only [relaxedStep, stands, behind, Bool.or_true, Bool.true_or, if_true]

/-- A store of thread 1, issued in cycle 8, to this module's pod space. -/
def laterStore : Relaxed := { addr := 0x5000000000010000, size := 8, store := true, data := 7, at_ := 8 }
/-- A store of thread 2, issued in cycle 4, to the doubleword behind it. -/
def earlierStore : Relaxed := { addr := 0x5000000000010008, size := 8, store := true, data := 7, at_ := 4 }

/-- Module 0, of which VD 0 is its own partner: space 0 is there, and the station of tile 0 has the leaf of the second page, at 0x20000. -/
def ownPod : State := { State.reset with
  mem := [(rimKey 0, 1), (mcrKey (State.vdOff 0 16), 1), (mcrKey (State.vdOff 0 129), 1)]
  tlb := [{ station := State.entryStation 0, vd := 0, space := 0, bits := 16, page := 1, leaf := 0x201D7, leafPa := 0 }] }

/-- Threads 1 and 2 of tile 0 each have one store outstanding. -/
def twoStores : State :=
  (ownPod.modThread 0 1 fun t => { t with relaxed := [laterStore] }).modThread 0 2 fun t => { t with relaxed := [earlierStore] }

theorem twoStores_plain : plainThread twoStores 0 1 :=
  ⟨by decide +kernel, by decide +kernel, by decide, by decide +kernel, by decide +kernel, by decide +kernel⟩

theorem laterStore_waits : waitsWhole laterStore := ⟨rfl, rfl, by decide, by decide, rfl, rfl, rfl, rfl⟩

theorem twoStores_resolve : twoStores.resolve 0 1 laterStore.addr Use.store = .ok (.mem 0x20000) := by rfl

/-- The store of thread 1 stays as it is. -/
theorem twoStores_stands : exec (.accessPerformed (.relaxed 0 1 0)) twoStores = .next twoStores := by
  have stays := State.relaxedStep_behind (s := twoStores) (a := 0) (th := 1) (i := 0) (r := laterStore) (by decide +kernel) (by decide +kernel)
  show execAccessPerformed (.relaxed 0 1 0) twoStores = _
  simp only [execAccessPerformed, stays]

/-- Refutes O57: the store of thread 1 waits for that of thread 2, where the statement has it leave the list. -/
theorem not_accessContent : ¬ Obligations.AccessContent := by
  unfold Obligations.AccessContent
  rintro ⟨-, -, outstanding, -⟩
  have only : (twoStores.thread 0 1).relaxed = [laterStore] := by decide +kernel
  obtain ⟨-, stores⟩ := outstanding twoStores 0 1 laterStore 0x20000 twoStores_plain only laterStore_waits (by decide +kernel) (by decide +kernel)
    (by decide +kernel) (by decide +kernel)
  obtain ⟨t, ran, gone, -⟩ := stores rfl twoStores_resolve
  rw [twoStores_stands] at ran
  obtain rfl := Host.Outcome.next.inj ran
  rw [only] at gone
  nomatch gone

end Sys2Proof.Machine
end

section
/-! What a state keeps of another (R134, R135, R337 to R345, R376, R377): the registers of every thread but the destinations, and the bytes of memory but the
stored ones. One rule for each operation of the state, and what `quiet` says follows. -/

namespace Sys2Proof.Machine

open Sys2Proof.Claims

/-- A thread's vector, predicate and control registers: what no write of a general register reaches. -/
def Thread.face (t : Thread) :=
  (t.v, t.q, t.tst, t.fctl, t.fst, t.srkey, t.srcnt, t.tcause, t.tepc, t.tval, t.tvec, t.tscratch)

/-- Two threads with the same registers. -/
def Thread.Same (t u : Thread) : Prop := u.g = t.g ∧ u.face = t.face

namespace Thread

theorem loopStep0_same (t : Thread) (next : Word) (taken : Bool) : t.Same (t.loopStep0 next taken).1 := by
  unfold loopStep0
  split
  · exact ⟨rfl, rfl⟩
  · split <;> exact ⟨rfl, rfl⟩

theorem complete_same (t : Thread) (next : Word) (taken : Bool) : t.Same (t.complete next taken) := by
  show t.Same (t.loopStep next taken).1
  unfold loopStep
  split
  · exact t.loopStep0_same next taken
  · split
    · exact ⟨rfl, rfl⟩
    · exact ⟨rfl, rfl⟩
    · exact loopStep0_same _ next taken

theorem face_controls {t u : Thread} (h : u.face = t.face) : u.v = t.v ∧ u.q = t.q ∧ keepsControls t u := by
  simp only [face, Prod.mk.injEq] at h
  exact h

end Thread

/-- From a state to a later one: the general registers of the issuing thread but the destinations, all other registers of every thread but those that `but`
names, and every byte of memory but those of `stores`. -/
structure Keeps (dests : List OpRef) (stores : Nat → Prop) (but : Nat → Nat → Prop) (s t : State) : Prop where
  cur : t.cur = s.cur
  face : ∀ b u, ¬but b u → (t.thread b u).face = (s.thread b u).face
  general : ∀ b u, ¬but b u → ∀ n : RegNum, ((b, u) = s.cur ∧ .g n ∈ dests) ∨ vget (t.thread b u).g n.toNat 0 = vget (s.thread b u).g n.toNat 0
  bytes : keepsBytes s t stores

namespace Keeps
variable {dests : List OpRef} {stores : Nat → Prop} {but : Nat → Nat → Prop} {s t u : State}

theorem trans (h : Keeps dests stores but s t) (k : Keeps dests stores but t u) : Keeps dests stores but s u where
  cur := k.cur.trans h.cur
  face b th out := (k.face b th out).trans (h.face b th out)
  general b th out n := by
    obtain ⟨mine, dest⟩ | kept := k.general b th out n
    · exact .inl ⟨mine.trans h.cur, dest⟩
    · rw [kept]
      exact h.general b th out n
  bytes j out := (k.bytes j out).trans (h.bytes j out)

theorem of_threads (cur : t.cur = s.cur) (threads : ∀ b th, t.thread b th = s.thread b th) (mem : t.mem = s.mem) : Keeps dests stores but s t where
  cur := cur
  face b th _ := by rw [threads]
  general b th _ n := .inr (by rw [threads])
  bytes j _ := by rw [mem]

theorem refl (s : State) : Keeps dests stores but s s := of_threads rfl (fun _ _ => rfl) rfl

theorem modTile (s : State) (a : Nat) {f : Tile → Tile} (threads : ∀ x, (f x).threads = x.threads) : Keeps dests stores but s (s.modTile a f) :=
  of_threads rfl (fun b th => State.thread_modTile s a b th f threads) rfl

theorem modThread (s : State) (a th : Nat) {f : Thread → Thread} (same : ∀ x : Thread, x.Same (f x)) : Keeps dests stores but s (s.modThread a th f) where
  cur := rfl
  face b u _ := s.thread_modThread_part _ _ (part := Thread.face) (fun x => (same x).2) b u
  general b u _ n := .inr (s.thread_modThread_part _ _ (part := fun x => vget x.g n.toNat 0) (fun x => by rw [(same x).1]) b u)
  bytes _ _ := rfl

theorem foldl {α : Type} {f : State → α → State} (h : ∀ s x, Keeps dests stores but s (f s x)) : ∀ (l : List α) (s : State), Keeps dests stores but s (l.foldl f s)
  | [], s => .refl s
  | x :: l, s => (h s x).trans (foldl h l (f s x))

/-! ### Operands, completion and waiting -/

theorem src (s : State) (n : RegNum) : Keeps dests stores but s (s.src n).2 := by
  by_cases pops : Op.pops n = true
  · obtain ⟨threads, cur, mem⟩ := s.readG_frame s.cur.1 s.cur.2 n
    rw [s.src_popping n pops]
    exact (of_threads cur threads mem).trans (modThread _ _ _ fun _ => ⟨rfl, rfl⟩)
  · rw [s.src_plain n pops]
    exact .refl s

theorem pushLater (s : State) (a th : Nat) (to_ : PushTo) (v : VReg) : Keeps dests stores but s (s.pushLater a th to_ v 1) := by
  rw [State.pushLater, if_neg Nat.one_ne_zero]
  exact modTile s a fun _ => rfl

/-- A general register of the issuing thread is written: no other changes. -/
theorem modThread_setG_general (s : State) {x n : RegNum} (v : Word) (b u : Nat) : ((b, u) = s.cur ∧ n = x) ∨
    vget ((s.modThread s.cur.1 s.cur.2 fun t => t.setG x.toNat v).thread b u).g n.toNat 0 = vget (s.thread b u).g n.toNat 0 := by
  by_cases same : n = x
  · by_cases mine : (b, u) = s.cur
    · exact .inl ⟨mine, same⟩
    · have other : s.cur.1 ≠ b ∨ s.cur.2 ≠ u := by
        by_contra own
        simp only [ne_eq, not_or, not_not] at own
        exact mine (Prod.ext own.1.symm own.2.symm)
      exact .inr (by rw [s.thread_modThread_ne _ other])
  · have apart : x.toNat ≠ n.toNat := fun e => same (BitVec.eq_of_toNat_eq e.symm)
    exact .inr (s.thread_modThread_part _ _ (part := fun t => vget t.g n.toNat 0) (fun t => vget_vset_ne t.g v 0 apart) b u)

theorem setG (s : State) {x : RegNum} (dest : .g x ∈ dests) (v : Word) :
    Keeps dests stores but s (s.modThread s.cur.1 s.cur.2 fun t => t.setG x.toNat v) where
  cur := rfl
  face b u _ := s.thread_modThread_part _ _ (part := Thread.face) (fun t => (rfl : (t.setG x.toNat v).face = t.face)) b u
  general b u _ _ := (modThread_setG_general s v b u).imp_left fun ⟨mine, same⟩ => ⟨mine, by rw [same]; exact dest⟩
  bytes _ _ := rfl

/-- A write at the latency of one cycle reaches a register of the issuing thread, or waits in its tile. -/
theorem dst (s : State) {x : RegNum} (dest : .g x ∈ dests) (v : Word) : Keeps dests stores but s (s.dst x v) := by
  unfold State.dst State.writeG
  cases class_ : regClass x with
  | general k =>
    have number : k = x.toNat := by
      unfold regClass at class_
      grind
    subst number
    exact setG s dest v
  | shared r => exact modTile s _ fun _ => rfl
  | ln | lnf | lp | lpf | stream =>
    dsimp only
    exact pushLater ..
  | zero | inbox | tid | vtn | rank | gsize | gidx | none => exact .refl s

theorem modMe (s : State) {f : Thread → Thread} (same : ∀ x : Thread, x.Same (f x)) : Keeps dests stores but s (s.modMe f) := modThread s _ _ same

theorem fell (s : State) (c : Chain) : Keeps dests stores but s (s.fell c) := modMe s fun x => x.complete_same _ _

theorem parkMe (s : State) (c : Chain) (p : Park) : Keeps dests stores but s (s.parkMe c p) := modMe s fun _ => ⟨rfl, rfl⟩

theorem written_fell (s : State) {x : RegNum} (dest : .g x ∈ dests) (v : Word) (c : Chain) : Keeps dests stores but s ((s.dst x v).fell c) :=
  (dst s dest v).trans (fell _ c)

/-! ### Memory -/

theorem pokeN (s : State) {key n : Nat} (own : ∀ k, at_ key n k → stores k) (v : Nat) : Keeps dests stores but s (s.pokeN key n v) where
  cur := rfl
  face _ _ _ := rfl
  general _ _ _ _ := .inr rfl
  bytes k out := Mem.read_writeN_outside n s.mem v (by
    have := mt (own k) out
    unfold at_ at this
    omega)

theorem rollWhere (s : State) (p : Watch → Bool) : Keeps dests stores but s (s.rollWhere p) :=
  foldl (f := fun s (w : Watch) => s.modThread w.agent w.thread fun t => { t with rollback := true })
    (fun s w => modThread s w.agent w.thread fun _ => ⟨rfl, rfl⟩) (s.watches.filter p) s

theorem store (s : State) {key n : Nat} (own : ∀ k, at_ key n k → stores k) (v : Nat) : Keeps dests stores but s (s.store key n v) := by
  have unpoisoned : Keeps dests stores but (s.pokeN key n v) ((s.pokeN key n v).unpoison key n) := of_threads rfl (fun _ _ => rfl) rfl
  exact (pokeN s own v).trans (unpoisoned.trans (rollWhere _ _))

end Keeps

/-! ### From what is kept to the frame -/

theorem Keeps.regs {dests : List OpRef} {stores : Nat → Prop} {but : Nat → Nat → Prop} {s t : State} (h : Keeps dests stores but s t) {b u : Nat} (out : ¬but b u)
    {ds : List OpRef} (dest : (b, u) = s.cur → ∀ o ∈ dests, o ∈ ds) : keepsRegs ds [] (s.thread b u) (t.thread b u) ∧ keepsControls (s.thread b u) (t.thread b u) := by
  obtain ⟨v, q, controls⟩ := Thread.face_controls (h.face b u out)
  refine ⟨⟨fun n _ => ?_, fun n _ => .inr (by rw [v]), fun n _ => .inr (by rw [q])⟩, controls⟩
  exact (h.general b u out n).imp_left fun ⟨mine, named⟩ => dest mine _ named

theorem Keeps.quiet {dests : List OpRef} {stores : Nat → Prop} {but : Nat → Nat → Prop} {s t : State} (h : Keeps dests stores but s t)
    (mine : ¬but s.cur.1 s.cur.2) : Claims.quiet s t dests stores but := by
  have me : t.me = t.thread s.cur.1 s.cur.2 := by rw [State.me, h.cur]
  obtain ⟨regs, controls⟩ := h.regs mine (ds := dests) fun _ _ named => named
  rw [Claims.quiet, me]
  exact ⟨regs, controls, fun b u _ other out => h.regs out fun mine => absurd mine other, h.bytes⟩

end Sys2Proof.Machine
end

section
/-! The runs of the hints and of the gang instructions (R45, R134, R135, R337 to R345, R376, R377, R387, R406), and what each leaves unchanged. -/

namespace Sys2Proof.Machine

open Sys2Proof.Claims

namespace Keeps
variable {dests : List OpRef} {stores : Nat → Prop} {but : Nat → Nat → Prop} {s : State}

/-! ### Threads that end, wait together or start, and messages -/

theorem decideTile (s : State) (a : Nat) : Keeps dests stores but s (s.decideTile a) :=
  foldl (f := fun s b => s.decideGroup a b) (fun s b => by
    unfold State.decideGroup
    dsimp only
    split
    · exact of_threads rfl (fun _ _ => rfl) rfl
    · exact .refl s) _ s

theorem dropHold {a th : Nat} (unheld : (s.thread a th).sync.heldKey = none) (keep : Bool) : Keeps dests stores but s (s.dropHold a th keep) := by
  unfold State.dropHold
  rw [unheld]
  exact modThread s a th fun _ => ⟨rfl, rfl⟩

theorem freeWatches (s : State) (p : Watch → Bool) : Keeps dests stores but s (s.freeWatches p) := of_threads rfl (fun _ _ => rfl) rfl

/-- A thread that holds no reservation ends. -/
theorem dropThread {a th : Nat} (unheld : (s.thread a th).sync.heldKey = none) : Keeps dests stores but s (s.dropThread a th) := by
  have withdrawn (fe resv rejected away fills) : Keeps dests stores but s { s with fe := fe, resv := resv, rejected := rejected, away := away, fills := fills } :=
    of_threads rfl (fun _ _ => rfl) rfl
  unfold State.dropThread
  dsimp only
  exact (withdrawn ..).trans <| (freeWatches ..).trans <| (dropHold (by exact unheld) false).trans <| modThread _ _ _ fun _ => ⟨rfl, rfl⟩

theorem haltThread {a th : Nat} (unheld : (s.thread a th).sync.heldKey = none) : Keeps dests stores but s (s.haltThread a th) :=
  (dropThread unheld).trans (decideTile _ a)

theorem alignSeen (s : State) (a th : Nat) (tag : BitVec 8) : Keeps dests stores but s (s.alignSeen a th tag) := by
  unfold State.alignSeen
  refine .trans (foldl (fun s b => ?_) _ s) (foldl (f := fun s b => s.finishThread b th) (fun s b => modThread s b th fun x => x.complete_same _ _) _ _)
  split
  · exact modThread s b th fun _ => ⟨rfl, rfl⟩
  · exact .refl s

theorem postMsg (s : State) (m : Msg) : Keeps dests stores but s (s.postMsg m true) := by
  have sent (net n) : Keeps dests stores but s { s with net := net, nextMsg := n } := of_threads rfl (fun _ _ => rfl) rfl
  unfold State.postMsg
  dsimp only
  rw [if_pos rfl]
  exact (sent ..).trans (modTile _ _ fun _ => rfl)

theorem addRecord (s : State) (q : RecordQueue) (r : BitVec 256) : Keeps dests stores but s (s.addRecord q r) := of_threads rfl (fun _ _ => rfl) rfl

theorem startThread (s : State) {a th : Nat} (named : but a th) (pc arg g4 : Word) : Keeps dests stores but s (s.startThread a th pc arg g4) where
  cur := rfl
  face b u out := by
    rw [State.startThread, State.thread_modThread_ne]
    grind
  general b u out n := .inr (by
    rw [State.startThread, State.thread_modThread_ne]
    grind)
  bytes _ _ := rfl

theorem spawnOn (s : State) {a : Nat} {e w : Word} (named : but a (w.toNat % 4)) : Keeps dests stores but s (s.spawnOn a e w).2 := by
  have number : (w.extractLsb' 0 2).toNat = w.toNat % 4 := by simp [BitVec.extractLsb'_toNat]
  unfold State.spawnOn
  rw [number]
  dsimp only
  split_ifs
  · exact .refl s
  · exact .refl s
  · exact .refl s
  · exact startThread s named e w 0

/-- A logged SEED writes the record and TAIL (R345). -/
theorem seedAppend (s : State) (a th : Nat) (v : Word)
    (record : ∀ k, at_ (rimKey (s.mcrN 0x1000 8 + 32 * (s.mcrN 0x1018 8 % s.mcrN 0x1008 8))) 32 k → stores k) (tail : ∀ k, at_ (mcrKey 0x1018) 8 k → stores k) :
    Keeps dests stores but s (s.seedAppend a th v) := by
  have logged (r n : Nat) : Keeps dests stores but s ((s.store _ 32 r).setMcrN 0x1018 8 n) := (store s record r).trans (pokeN _ tail n)
  unfold State.seedAppend
  dsimp only
  split
  · exact (logged ..).trans (addRecord ..)
  · exact logged ..

/-! ### Single fields -/

theorem drawn (s : State) (n) : Keeps dests stores but s { s with free := n } := of_threads rfl (fun _ _ => rfl) rfl

theorem counted (s : State) : Keeps dests stores but s (s.modMe fun t => { t with seedSeq := t.seedSeq + 1 }) := modMe s fun _ => ⟨rfl, rfl⟩

theorem excluding (s : State) (b : Bool) : Keeps dests stores but s (s.modMe fun t => { t with cx := b }) := modMe s fun _ => ⟨rfl, rfl⟩

end Keeps

/-! ### How a run ends -/

namespace Op

/-- A run that completes, or ends the slot in a state of its own, in a state with a property. -/
def Ends (P : State → Prop) : Except Stop (Unit × State) → Prop
  | .ok (_, t) => P t
  | .error (.done t) => P t
  | .error _ => False

theorem Ends.run {P : State → Prop} {m : Op Unit} {s t : State} {c : Chain} (h : Ends P (m s)) (run : Op.run s c m = .next t) : P t := by
  unfold Op.run at run
  revert h
  cases e : m s with
  | ok r =>
    intro h
    rw [e] at run
    cases run
    exact h
  | error stop =>
    rw [e] at run
    cases stop <;> intro h
    case done => cases run; exact h
    all_goals exact h.elim

end Op

end Sys2Proof.Machine
end

section
/-! What each of the hints and gang instructions keeps. -/

namespace Sys2Proof.Machine

open Sys2Proof.Claims

namespace Op.Ends
variable {P : State → Prop} {s t : State} {c : Chain}

theorem issue {r : Op.Rules} {m : Op Unit} (h : s.admits r c = true) (e : Ends P (m s)) (run : Machine.issue r c s m = .next t) : P t :=
  e.run ((issue_admitted h).symm.trans run)

theorem getting {f : State → Op Unit} (h : Ends P (f s s)) : Ends P ((get >>= f) s) := h
theorem setting {u : State} {f : PUnit → Op Unit} (h : Ends P (f ⟨⟩ u)) : Ends P ((set u >>= f) s) := h
theorem modifying {g : State → State} {f : PUnit → Op Unit} (h : Ends P (f ⟨⟩ (g s))) : Ends P ((modify g >>= f) s) := h
theorem ite {p : Prop} [Decidable p] {m n : Op Unit} (hm : p → Ends P (m s)) (hn : ¬p → Ends P (n s)) : Ends P ((if p then m else n) s) := by
  split_ifs with holds
  · exact hm holds
  · exact hn holds
theorem requiring {b : Bool} (h : b = true) {cause : BitVec 8} {v : Word} {f : Unit → Op Unit} (e : Ends P (f () s)) :
    Ends P ((Op.require b cause v >>= f) s) := by rwa [Op.bind_ok (Op.require_of h cause v)]

end Op.Ends

section
variable {dests : List OpRef} {stores : Nat → Prop} {but : Nat → Nat → Prop} {s u t : State} {c : Chain} {x y : RegNum}

theorem Keeps.ends_retire (h : Keeps dests stores but s u) (c : Chain) : Op.Ends (Keeps dests stores but s) (Op.retire c u) := h.trans (.fell u c)

theorem Keeps.ends_written (h : Keeps dests stores but s u) (dest : .g x ∈ dests) (v : Word) (c : Chain) :
    Op.Ends (Keeps dests stores but s) ((do Op.writeG x v; Op.retire c : Op Unit) u) := h.trans (.written_fell u dest v c)

theorem Keeps.ends_claim (h : Keeps dests stores but s u) (c : Chain) (p : Park) (x : RegNum) :
    Op.Ends (Keeps dests stores but s) (parkClaim c p x id u) := h.trans ((Keeps.parkMe u c p).trans (.modMe _ fun _ => ⟨rfl, rfl⟩))

theorem execGwait_keeps (h : s.admits gangAt c = true) (hr : s.atHand [.g x] [.g x] = true) (dest : .g x ∈ dests) (run : execGwait c x s = .next t) :
    Keeps dests stores but s t := by
  refine Op.Ends.issue h ?_ run
  have read : Keeps dests stores but s (s.src x).2 := .src s x
  rw [Op.need_readG x hr]
  refine .getting (.ite (fun _ => read.ends_written dest _ c) fun _ => .ite (fun _ => ?_) fun _ => ?_)
  · exact .modifying (.ite (fun _ => (read.trans (.drawn ..)).ends_written dest _ c) fun _ => (read.trans (.drawn ..)).ends_claim ..)
  · generalize (s.src x).2.lookupGrid _ _ = found
    cases found with
    | none => exact read.ends_written dest _ c
    | some g => exact .ite (fun _ => read.ends_written dest _ c) fun _ => read.ends_claim ..

theorem execCancel_keeps (h : s.admits gangAt c = true) (hr : s.atHand [.g x] [.g x] = true) (dest : .g x ∈ dests) (run : execCancel c x s = .next t) :
    Keeps dests stores but s t := by
  refine Op.Ends.issue h ?_ run
  have read : Keeps dests stores but s (s.src x).2 := .src s x
  rw [Op.need_readG x hr]
  exact .getting (.ite (fun _ => .modifying ((read.trans (.drawn ..)).ends_written dest _ c)) fun _ => read.ends_claim ..)

theorem execGqry_keeps (h : s.admits gangAt c = true) (hr : s.atHand [.g y] [.g x] = true) (dest : .g x ∈ dests) (run : execGqry c x y s = .next t) :
    Keeps dests stores but s t := by
  refine Op.Ends.issue h ?_ run
  have read : Keeps dests stores but s (s.src y).2 := .src s y
  rw [Op.need_readG y hr]
  refine .getting (.ite (fun _ => read.ends_written dest _ c) fun _ => .setting ((read.trans (.drawn ..)).ends_written dest _ c))

theorem execLaunch_keeps (h : s.admits { held := true, drained := true } c = true) (hr : s.atHand [.g x] [.g x] = true) (room : s.outboundFree s.cur.1 = true)
    (named : (State.tagOf (s.src x).1 == 4 && s.addressOk s.cur.1 s.cur.2 (s.src x).1 8 Use.load) = true) (even : aligned (s.src x).1 128 = true)
    (dest : .g x ∈ dests) (run : execLaunch c x s = .next t) : Keeps dests stores but s t := by
  refine Op.Ends.issue h ?_ run
  have read : Keeps dests stores but s (s.src x).2 := .src s x
  have free : outbound s = .ok ((), s) := by
    show Op.await (s.outboundFree s.cur.1) .outbound s = _
    rw [room]
    rfl
  rw [Op.bind_ok (Op.need_ok hr), Op.bind_ok free, Op.bind_ok (Op.readG_ok x (State.atHand_held hr))]
  refine .requiring named (.requiring even (.getting (.ite (fun _ => read.ends_written dest _ c) fun _ => .setting (.modifying ?_))))
  have awaited (v : State) (l) : Keeps dests stores but v (v.modMe fun t => { t with launching := t.launching ++ l }) := .modMe v fun _ => ⟨rfl, rfl⟩
  exact ((read.trans (.postMsg ..)).trans (awaited ..)).ends_retire c

theorem execVote_keeps (h : s.admits manageAt c = true) (hr : s.atHand [.g x] [.g x] = true) (dest : .g x ∈ dests) (run : execVote c x s = .next t) :
    Keeps dests stores but s t := by
  refine Op.Ends.issue h ?_ run
  have read : Keeps dests stores but s (s.src x).2 := .src s x
  have voted (l) : Keeps dests stores but (s.src x).2 { (s.src x).2 with votes := l } := .of_threads rfl (fun _ _ => rfl) rfl
  rw [Op.need_readG x hr]
  exact .getting (.setting ((read.trans (voted _)).ends_written dest _ c))

theorem execCrstat_keeps (h : s.admits privilegedAt c = true) (hr : s.atHand [.g y] [.g x] = true) (site : siteOk s (s.src y).1 = true) (dest : .g x ∈ dests)
    (run : execCrstat c x y s = .next t) : Keeps dests stores but s t := by
  refine Op.Ends.issue h ?_ run
  have read : Keeps dests stores but s (s.src y).2 := .src s y
  rw [Op.need_readG y hr]
  exact .requiring site (.getting (read.ends_written dest _ c))

theorem execNop_keeps (h : s.admits { guarded := false } c = true) (run : execNop c s = .next t) : Keeps dests stores but s t :=
  Op.Ends.issue h ((Keeps.refl s).ends_retire c) run

theorem execCron_keeps (h : s.admits gangAt c = true) (run : execCron c s = .next t) : Keeps dests stores but s t :=
  Op.Ends.issue h (.modifying ((Keeps.excluding s false).ends_retire c)) run

theorem execCroff_keeps (h : s.admits gangAt c = true) (run : execCroff c s = .next t) : Keeps dests stores but s t :=
  Op.Ends.issue h (.modifying ((Keeps.excluding s true).ends_retire c)) run

theorem execAlign_keeps {tag : BitVec 8} (h : s.admits { guarded := false } c = true) (run : execAlign c tag s = .next t) : Keeps dests stores but s t := by
  refine Op.Ends.issue h (.ite (fun _ => (Keeps.refl s).ends_retire c) fun _ => .ite (fun _ => .setting ?_) fun _ => ?_) run
  · exact (Keeps.alignSeen ..).ends_retire c
  · exact (Keeps.parkMe ..).trans (.alignSeen ..)

theorem execSleep_keeps (h : s.admits { held := true } c = true) (run : execSleep c s = .next t) : Keeps dests stores but s t := by
  obtain rfl := Host.Outcome.next.inj (((issue_admitted h).trans (Op.run_park rfl)).symm.trans run)
  exact .parkMe ..

theorem execPref_keeps (h : s.admits { guarded := false } c = true) (first : s.me.held = []) (run : execPref c x s = .next t) : Keeps dests stores but s t := by
  refine Op.Ends.issue h ?_ run
  have read : Keeps dests stores but s (s.src x).2 := .src s x
  have asked (u : State) (l) : Keeps dests stores but u { u with fills := l } := .of_threads rfl (fun _ _ => rfl) rfl
  refine .ite (fun _ => ?_) fun _ => (Keeps.refl s).ends_retire c
  rw [Op.bind_ok (Op.readG_ok x first)]
  exact .ite (fun _ => .modifying ((read.trans (asked ..)).ends_retire c)) fun _ => read.ends_retire c

theorem execHalt_keeps (h : s.admits { held := true, drained := true } c = true) (unheld : s.me.sync.heldKey = none) (run : execHalt c s = .next t) :
    Keeps dests stores but s t := by
  have halted : Keeps dests stores but s (s.haltThread s.cur.1 s.cur.2) := .haltThread unheld
  refine Op.Ends.issue h ?_ run
  exact halted

theorem execSpawn_keeps (h : s.admits settled c = true) (hr : s.atHand [.g y, .g x] [.g x] = true) (named : but s.cur.1 ((s.src y).1.toNat % 4))
    (dest : .g x ∈ dests) (run : exec (.spawn c x y) s = .next t) : Keeps dests stores but s t := by
  obtain rfl := Host.Outcome.next.inj ((execSpawn_eq h hr).symm.trans run)
  exact (Keeps.src s y).trans <| (Keeps.src _ x).trans <| (Keeps.spawnOn _ named).trans <| .written_fell _ dest _ c

/-- SEED in replay writes its destination (R345). -/
theorem execSeed_replays (h : s.admits gangAt c = true) (hr : s.atHand [] [.g x] = true) (replay : ¬(s.seedMode s.cur.1 == .normal) = true) {v : Word}
    (found : s.seedReplay s.cur.1 s.cur.2 = some v) (dest : .g x ∈ dests) (run : execSeed c x s = .next t) : Keeps dests stores but s t := by
  refine Op.Ends.issue h ?_ run
  rw [Op.bind_ok (Op.need_ok hr)]
  refine .getting ?_
  dsimp only
  rw [if_neg replay, found]
  exact ((Keeps.dst s dest v).trans (.counted _)).ends_retire c

/-- SEED draws where it is logged (R345). -/
theorem execSeed_draws (h : s.admits gangAt c = true) (hr : s.atHand [] [.g x] = true) (normal : (s.seedMode s.cur.1 == .normal) = true)
    (source : s.entropyFailing.isNone = true) (room : s.seedRoom = true) (dest : .g x ∈ dests)
    (record : ∀ k, at_ (rimKey (s.mcrN 0x1000 8 + 32 * (s.mcrN 0x1018 8 % s.mcrN 0x1008 8))) 32 k → stores k) (tail : ∀ k, at_ (mcrKey 0x1018) 8 k → stores k)
    (run : execSeed c x s = .next t) : Keeps dests stores but s t := by
  have logged (n v) : Keeps dests stores but s ({ s with free := n }.seedAppend s.cur.1 s.cur.2 v) :=
    (Keeps.drawn s n).trans (.seedAppend { s with free := n } _ _ v record tail)
  have awaited {b : Bool} (holds : b = true) (p : Park) : Op.await b p s = .ok ((), s) := by rw [holds]; rfl
  refine Op.Ends.issue h ?_ run
  rw [Op.bind_ok (Op.need_ok hr)]
  refine .getting ?_
  dsimp only
  rw [if_pos normal, Op.bind_ok (awaited source _), Op.bind_ok (awaited room _)]
  exact .setting ((((logged _ _).trans (.dst _ dest _)).trans (.counted _)).ends_retire c)

end
end Sys2Proof.Machine
end

section
/-! The frame of the hints and gang instructions. -/

namespace Sys2Proof.Machine

open Sys2Proof.Claims

/-! ### The sites that an issuer may name -/

namespace State

theorem vd_modTile (s : State) (a b : Nat) {f : Tile → Tile} (hf : ∀ x, (f x).vd = x.vd) : ((s.modTile a f).tile b).vd = (s.tile b).vd := by
  by_cases same : a = b
  · rw [← same, tile_modTile, hf]
  · rw [tile_modTile_ne _ _ same]

theorem tile_linkPush (s : State) (a b : Nat) (d : Dir) (w : Word) : (s.linkPush a d w).tile b = s.tile b := by
  unfold linkPush
  cases s.linkPeer a d <;> rfl

theorem popUp_vd (s : State) (a b : Nat) (forward : Bool) : ((s.popUp a forward).2.tile b).vd = (s.tile b).vd := by
  unfold popUp
  dsimp only
  split
  · rw [tile_linkPush, vd_modTile]
    exact fun _ => rfl
  · exact vd_modTile s a b fun _ => rfl

theorem popDown_vd (s : State) (a b : Nat) (forward : Bool) : ((s.popDown a forward).2.tile b).vd = (s.tile b).vd := by
  unfold popDown
  dsimp only
  split
  · rw [tile_linkPush, vd_modTile]
    exact fun _ => rfl
  · exact vd_modTile s a b fun _ => rfl

theorem readG_vd (s : State) (a th : Nat) (n : RegNum) (b : Nat) : ((s.readG a th n).2.tile b).vd = (s.tile b).vd := by
  unfold readG
  cases regClass n with
  | ln | lnf => exact popUp_vd ..
  | lp | lpf => exact popDown_vd ..
  | inbox => exact vd_modTile s a b fun _ => rfl
  | stream h => exact vd_modTile s a b fun _ => rfl
  | zero | general | shared | tid | vtn | rank | gsize | gidx | none => rfl

theorem src_vd (s : State) (n : RegNum) (b : Nat) : ((s.src n).2.tile b).vd = (s.tile b).vd := by
  by_cases pops : Op.pops n = true
  · rw [s.src_popping n pops, modMe, modThread_eq, vd_modTile, readG_vd]
    exact fun _ => rfl
  · rw [s.src_plain n pops]

theorem src_mcrN (s : State) (n : RegNum) (off size : Nat) : (s.src n).2.mcrN off size = s.mcrN off size := by
  rw [mcrN, readN, s.src_mem, ← readN, ← mcrN]

theorem src_vdOf (s : State) (n : RegNum) (a : Nat) : (s.src n).2.vdOf a = s.vdOf a := by
  rw [vdOf, coreVd, s.src_mcrN, s.src_vd, ← coreVd, ← vdOf]

theorem src_pbaseOf (s : State) (n : RegNum) (a : Nat) : (s.src n).2.pbaseOf a = s.pbaseOf a := by
  rw [pbaseOf, vdPbase, vdN, s.src_mcrN, s.src_vdOf, ← vdN, ← vdPbase, ← pbaseOf]

theorem src_plenOf (s : State) (n : RegNum) (a : Nat) : (s.src n).2.plenOf a = s.plenOf a := by
  rw [plenOf, vdPlen, vdN, s.src_mcrN, s.src_vdOf, ← vdN, ← vdPlen, ← plenOf]

end State

theorem siteOk_src (s : State) (n : RegNum) (w : Word) : siteOk (s.src n).2 w = siteOk s w := by
  rw [siteOk, s.src_cur, s.src_pbaseOf, s.src_plenOf, ← siteOk]

theorem siteOk_of_namesSite {s : State} {w : Word} (h : namesSite s w = true) : siteOk s w = true := by
  simp only [namesSite, Bool.and_eq_true, decide_eq_true_eq] at h
  obtain ⟨small, own⟩ := h
  have high : w.extractLsb' 16 48 = 0#48 := by
    apply BitVec.eq_of_toNat_eq
    rw [BitVec.extractLsb'_toNat, Nat.shiftRight_eq_div_pow, Nat.div_eq_of_lt small]
    rfl
  simp only [siteOk, high, beq_self_eq_true, Bool.true_and]
  exact own

/-! ### Every form -/

theorem when_holds {b : Bool} {t : State} (h : (Claims.when b t).isSome = true) : b = true := by
  cases b with
  | true => rfl
  | false => exact absurd h Bool.false_ne_true

theorem gangForm_keeps {i : Instr} {ds : List OpRef} {s t : State} {stores : Nat → Prop} {but : Nat → Nat → Prop} (form : gangForm i = some ds)
    (effect : (gangEffect i s).isSome ∨ (systemEffect i s).isSome) (run : exec i s = .next t) : Keeps ds stores but s t := by
  unfold gangForm at form
  split at form <;> cases form
  case h_1 c => exact execNop_keeps (when_holds (effect.resolve_left Bool.false_ne_true)) run
  case h_2 c tag =>
    have ok := when_holds (effect.resolve_left Bool.false_ne_true)
    exact execAlign_keeps (Bool.and_eq_true_iff.1 ok).1 run
  case h_3 c x =>
    have ok := when_holds (effect.resolve_left Bool.false_ne_true)
    simp only [firstIssue, Bool.and_eq_true, List.isEmpty_iff] at ok
    obtain ⟨admitted, -, first⟩ := ok
    exact execPref_keeps admitted first run
  case h_4 c =>
    have ok := when_holds (effect.resolve_left Bool.false_ne_true)
    exact execSleep_keeps (Bool.and_eq_true_iff.1 ok).1 run
  case h_5 c => exact execCron_keeps (when_holds (effect.resolve_right Bool.false_ne_true)) run
  case h_6 c => exact execCroff_keeps (when_holds (effect.resolve_right Bool.false_ne_true)) run
  case h_7 c x =>
    obtain ⟨admitted, ready⟩ := Bool.and_eq_true_iff.1 (when_holds (effect.resolve_left Bool.false_ne_true))
    exact execVote_keeps admitted ready (List.mem_singleton_self _) run
  case h_8 c x =>
    have ok := when_holds (effect.resolve_right Bool.false_ne_true)
    simp only [Bool.and_eq_true, decide_eq_true_eq] at ok
    obtain ⟨⟨⟨⟨⟨admitted, ready⟩, room⟩, rim⟩, legal⟩, even⟩ := ok
    exact execLaunch_keeps admitted ready (decide_eq_true room) (by rw [rim, legal]; rfl) even (List.mem_singleton_self _) run
  case h_9 c x =>
    obtain ⟨admitted, ready⟩ := Bool.and_eq_true_iff.1 (when_holds (effect.resolve_right Bool.false_ne_true))
    exact execCancel_keeps admitted ready (List.mem_singleton_self _) run
  case h_10 c x =>
    obtain ⟨admitted, ready⟩ := Bool.and_eq_true_iff.1 (when_holds (effect.resolve_right Bool.false_ne_true))
    exact execGwait_keeps admitted ready (List.mem_singleton_self _) run
  case h_11 c x y =>
    obtain ⟨admitted, ready⟩ := Bool.and_eq_true_iff.1 (when_holds (effect.resolve_right Bool.false_ne_true))
    exact execGqry_keeps admitted ready (List.mem_singleton_self _) run
  case h_12 c x y =>
    have ok := when_holds (effect.resolve_right Bool.false_ne_true)
    simp only [Bool.and_eq_true] at ok
    obtain ⟨⟨admitted, ready⟩, site⟩ := ok
    exact execCrstat_keeps admitted ready (by rw [← siteOk_src s y]; exact siteOk_of_namesSite site) (List.mem_singleton_self _) run

/-- SEED keeps all but its destination, the record that it logs and TAIL. -/
theorem seed_keeps {c : Chain} {x : RegNum} {s t : State} {but : Nat → Nat → Prop} (effect : (gangEffect (.seed c x) s).isSome)
    (run : exec (.seed c x) s = .next t) :
    Keeps [.g x] (fun k => s.seedMode s.cur.1 = .normal ∧
      (at_ (rimKey (s.mcrN 0x1000 8 + 32 * (s.mcrN 0x1018 8 % s.mcrN 0x1008 8))) 32 k ∨ at_ (mcrKey 0x1018) 8 k)) but s t := by
  simp only [gangEffect] at effect
  split at effect
  case isTrue normal =>
    have ok := when_holds effect
    simp only [Bool.and_eq_true] at ok
    obtain ⟨⟨⟨admitted, ready⟩, source⟩, room⟩ := ok
    exact execSeed_draws admitted ready normal source room (List.mem_singleton_self _) (fun k own => ⟨beq_iff_eq.1 normal, .inl own⟩)
      (fun k own => ⟨beq_iff_eq.1 normal, .inr own⟩) run
  case isFalse replay =>
    split at effect
    next v found =>
      obtain ⟨admitted, ready⟩ := Bool.and_eq_true_iff.1 (when_holds effect)
      exact execSeed_replays admitted ready replay found (List.mem_singleton_self _) run
    next => exact absurd effect Bool.false_ne_true

/-- Settles O50: every form keeps what the frame lists. -/
theorem gangFrame : Obligations.GangFrame := by
  refine ⟨fun i ds s t form effect run => ?_, fun c x s t effect run => ?_, fun c x y s t effect other run => ?_, fun c s t effect none run => ?_⟩
  · exact (gangForm_keeps form effect run).quiet fun no => no
  · exact (seed_keeps effect run).quiet fun no => no
  · obtain ⟨admitted, ready⟩ := Bool.and_eq_true_iff.1 (when_holds effect)
    have spawned : Keeps [.g x] (fun _ => False) (fun b u => b = s.cur.1 ∧ u = (s.src y).1.toNat % 4) s t :=
      execSpawn_keeps admitted ready ⟨rfl, rfl⟩ (List.mem_singleton_self _) run
    exact spawned.quiet fun me => other me.2.symm
  · have halted : Keeps [] (fun _ => False) (fun _ _ => False) s t := execHalt_keeps (when_holds effect) none run
    exact halted.quiet fun no => no

end Sys2Proof.Machine
end

section
/-! What a store at its home, or in a cruise re-run's overlay, can change (R161, R168, R231, R368). -/

namespace Sys2Proof.Machine
namespace State

/-- The fields beside the tiles that a store reaches. -/
def patched (s : State) (mem : List Host.Cell) (poison : List Nat) (overlays : List Overlay) (swap : List SwapBlock) (count : Nat) : State :=
  { s with mem := mem, poison := poison, overlays := overlays, swap := swap, swapCount := count }

/-- From a state to a later one: nothing but those fields has changed, no page of an agent's overlay has moved, and no byte of memory but those that the
overlay keeps for some keys. -/
structure Overlaid (a : Nat) (keys : Nat → Prop) (s t : State) : Prop where
  patch : ∃ mem poison overlays swap count, t = s.patched mem poison overlays swap count
  homes : ∀ j k, overlayHome (s.overlayOf a) j = some k → overlayHome (t.overlayOf a) j = some k
  bytes : ∀ k, (¬∃ j, keys j ∧ overlayHome (t.overlayOf a) j = some k) → Mem.read t.mem k = Mem.read s.mem k

namespace Overlaid
variable {a : Nat} {keys : Nat → Prop} {s t u : State}

theorem refl (s : State) : Overlaid a keys s s := ⟨⟨s.mem, s.poison, s.overlays, s.swap, s.swapCount, rfl⟩, fun _ _ h => h, fun _ _ => rfl⟩

theorem trans (h : Overlaid a keys s t) (k : Overlaid a keys t u) : Overlaid a keys s u where
  patch := by
    obtain ⟨_, _, _, _, _, rfl⟩ := h.patch
    obtain ⟨m, p, o, w, n, rfl⟩ := k.patch
    exact ⟨m, p, o, w, n, rfl⟩
  homes j b home := k.homes j b (h.homes j b home)
  bytes b out := (k.bytes b out).trans (h.bytes b fun ⟨j, own, home⟩ => out ⟨j, own, k.homes j b home⟩)

theorem foldl {α : Type} {f : State → α → State} :
    ∀ (l : List α) (s : State), (∀ s, ∀ x ∈ l, Overlaid a keys s (f s x)) → Overlaid a keys s (l.foldl f s)
  | [], s, _ => refl s
  | x :: l, s, h => (h s x (List.mem_cons_self ..)).trans (foldl l _ fun s y own => h s y (List.mem_cons_of_mem x own))

end Overlaid

/-- An overlay names the run of its agent's tile. -/
theorem overlayOf_names (s : State) (a : Nat) :
    (s.overlayOf a).handle = (s.tile a).handle ∧ (s.overlayOf a).gang = gangOf (s.tile a).vtn ∧ (s.overlayOf a).mark = (s.tile a).mark := by
  unfold overlayOf
  dsimp only
  cases found : s.overlays.find? _ with
  | none => exact ⟨rfl, rfl, rfl⟩
  | some o =>
    have named := List.find?_some found
    simp only [Bool.and_eq_true, beq_iff_eq] at named
    exact ⟨named.1.1, named.1.2, named.2⟩

/-- An overlay of an agent's run that is put in place is the agent's from then on. -/
theorem overlayOf_setOverlay {s : State} {a : Nat} {o : Overlay} (handle : o.handle = (s.tile a).handle) (gang : o.gang = gangOf (s.tile a).vtn)
    (mark : o.mark = (s.tile a).mark) : (s.setOverlay o).overlayOf a = o := by
  unfold overlayOf setOverlay
  dsimp only
  have here : s.tile a = State.tile
      { s with overlays := o :: s.overlays.filter fun p => !(p.handle == o.handle && p.gang == o.gang && p.mark == o.mark) } a := rfl
  rw [← here, List.find?_cons_of_pos (by simp [handle, gang, mark])]
  rfl

/-- The overlay with the page of an address: the pages that it had stand where they stood. -/
theorem overlayPage_cases (s : State) (vd : Nat) (o : Overlay) (key : Nat) :
    (∃ swap count, (s.overlayPage vd o key).2 = { s with swap := swap, swapCount := count }) ∧
    (s.overlayPage vd o key).1.handle = o.handle ∧ (s.overlayPage vd o key).1.gang = o.gang ∧ (s.overlayPage vd o key).1.mark = o.mark ∧
    ∀ j k, overlayHome o j = some k → overlayHome (s.overlayPage vd o key).1 j = some k := by
  unfold overlayPage
  split
  next => exact ⟨⟨s.swap, s.swapCount, rfl⟩, rfl, rfl, rfl, fun _ _ h => h⟩
  next absent =>
    split
    next b s' found =>
      split at found
      next =>
        unfold allocSwap at found
        dsimp only at found
        split at found
        next =>
          cases found
          refine ⟨⟨_, _, rfl⟩, rfl, rfl, rfl, fun j k home => ?_⟩
          unfold overlayHome at home ⊢
          have other : key / 65536 ≠ j / 65536 := by
            intro same
            rw [← same] at home
            cases page : Tab.get? o.pages (key / 65536) with
            | none => rw [page] at home; cases home
            | some b => rw [page] at absent; exact absent rfl
          rw [Tab.get?_set_ne _ _ other]
          exact home
        next => cases found
      next => cases found
    next => exact ⟨⟨s.swap, s.swapCount, rfl⟩, rfl, rfl, rfl, fun _ _ h => h⟩

theorem Overlaid.write (s : State) {a key : Nat} {keys : Nat → Prop} (own : keys key) (b : Byte) : Overlaid a keys s (s.overlayWrite a key b) := by
  obtain ⟨handle, gang, mark⟩ := s.overlayOf_names a
  obtain ⟨⟨swap, count, paged⟩, sameHandle, sameGang, sameMark, homes⟩ := s.overlayPage_cases (s.tile a).vd (s.overlayOf a) key
  unfold overlayWrite
  dsimp only
  generalize s.overlayPage (s.tile a).vd (s.overlayOf a) key = r at *
  obtain ⟨o, s'⟩ := r
  subst paged
  dsimp only at *
  cases home : overlayHome o key with
  | some k =>
    have mine : State.overlayOf (setOverlay { s with swap := swap, swapCount := count, mem := Mem.write s.mem k b } { o with held := NSet.insert o.held key }) a
        = { o with held := NSet.insert o.held key } :=
      overlayOf_setOverlay (sameHandle.trans handle) (sameGang.trans gang) (sameMark.trans mark)
    dsimp only
    refine ⟨⟨_, _, _, _, _, rfl⟩, ?_, ?_⟩
    · rw [mine]; exact homes
    · rw [mine]
      intro j out
      have apart : k ≠ j := fun same => out ⟨key, own, same ▸ home⟩
      exact Mem.read_write_ne _ _ apart
  | none =>
    have mine : State.overlayOf (setOverlay { s with swap := swap, swapCount := count } o) a = o :=
      overlayOf_setOverlay (sameHandle.trans handle) (sameGang.trans gang) (sameMark.trans mark)
    dsimp only
    refine ⟨⟨_, _, _, _, _, rfl⟩, ?_, fun _ _ => rfl⟩
    rw [mine]; exact homes

theorem Overlaid.poison (s : State) (a : Nat) (keys : Nat → Prop) (l : List Nat) : Overlaid a keys s { s with poison := l } :=
  ⟨⟨s.mem, l, s.overlays, s.swap, s.swapCount, rfl⟩, fun _ _ h => h, fun _ _ => rfl⟩

theorem Overlaid.overlayPoison (s : State) (a d : Nat) (keys : Nat → Prop) (b : Bool) : Overlaid a keys s (s.overlayPoison a d b) := by
  unfold State.overlayPoison
  split
  · exact .poison s a keys _
  · exact refl s

/-- A store of an agent: what it patches, and then the rollbacks that it sends. In its own memory it writes the bytes at their keys, in an overlay at the
homes of their keys. -/
theorem storeAs_cases (s : State) (a key n v : Nat) : ∃ t p, s.storeAs a key n v = t.rollWhere p ∧
    (∃ mem poison overlays swap count, t = s.patched mem poison overlays swap count) ∧
    (s.shadows a key = true → Overlaid a (Claims.at_ key n) s t) ∧
    (s.shadows a key = false → t.mem = Mem.writeN s.mem key n v ∧ t.overlays = s.overlays) := by
  unfold storeAs
  split
  next shadowed =>
    have written : Overlaid a (Claims.at_ key n) s ((List.range n).foldl (fun s i => s.overlayWrite a (key + i) (BitVec.ofNat 8 (v / 256 ^ i))) s) :=
      .foldl _ s fun s i own => .write s ⟨by omega, by have := List.mem_range.1 own; omega⟩ _
    have marked (bad : Nat → Bool) :=
      written.trans (.foldl (f := fun s d => s.overlayPoison a d (bad d)) (dwordsOf key n) _ fun s d _ => .overlayPoison s a d _ _)
    exact ⟨_, _, rfl, (marked _).patch, fun _ => marked _, fun plain => absurd shadowed (by rw [plain]; exact Bool.false_ne_true)⟩
  next plain => exact ⟨_, _, rfl, ⟨_, _, _, _, _, rfl⟩, fun shadowed => absurd shadowed plain, fun _ => ⟨rfl, rfl⟩⟩

/-- Rollbacks mark threads, and nothing else. -/
theorem rollWhere_eq (s : State) (p : Watch → Bool) : ∃ tiles, s.rollWhere p = { s with tiles := tiles } := by
  unfold rollWhere
  generalize s.watches.filter p = ws
  induction ws generalizing s with
  | nil => exact ⟨s.tiles, rfl⟩
  | cons w ws ih =>
    obtain ⟨tiles, e⟩ := ih (s.modThread w.agent w.thread fun t => { t with rollback := true })
    exact ⟨tiles, e⟩

/-- A part of a tile that the threads' marks do not reach. -/
theorem rollWhere_tile {α : Type} {part : Tile → α} (outside : ∀ (x : Tile) l, part { x with threads := l } = part x) (s : State) (p : Watch → Bool)
    (b : Nat) : part ((s.rollWhere p).tile b) = part (s.tile b) := by
  unfold rollWhere
  generalize s.watches.filter p = ws
  induction ws generalizing s with
  | nil => rfl
  | cons w ws ih =>
    rw [List.foldl_cons, ih, modThread_eq]
    by_cases same : w.agent = b
    · rw [same, tile_modTile, outside]
    · rw [tile_modTile_ne _ _ same]

theorem usePage_eq (s : State) (a : Nat) (addr : Word) : ∃ trees, s.usePage a addr = { s with tlbPlru := trees } := by
  have leaf (st vd space va : Nat) : ∃ trees, s.useLeaf st vd space va = { s with tlbPlru := trees } := by
    unfold useLeaf
    split
    · exact ⟨_, rfl⟩
    · exact ⟨s.tlbPlru, rfl⟩
  unfold usePage
  split
  · exact leaf ..
  · split
    · split
      · exact leaf ..
      · exact ⟨s.tlbPlru, rfl⟩
    · exact ⟨s.tlbPlru, rfl⟩
  · exact ⟨s.tlbPlru, rfl⟩

/-- What counts of a store is kept in the digest of its agent's tile. -/
theorem digest_eq (s : State) (a : Nat) (cx : Bool) (addr : Word) (n v : Nat) : ∃ f : Tile → Tile, (∀ x, ∃ d, f x = { x with digest := d }) ∧
    (s.digest a cx addr n v = s ∨ s.digest a cx addr n v = s.modTile a f) := by
  unfold digest
  split
  · exact ⟨id, fun x => ⟨x.digest, rfl⟩, .inl rfl⟩
  · exact ⟨_, fun x => ⟨_, rfl⟩, .inr rfl⟩

section
variable (s : State) (a key n v : Nat) (cx : Bool) (addr : Word)

theorem usePage_cur : (s.usePage a addr).cur = s.cur := by obtain ⟨_, e⟩ := s.usePage_eq a addr; rw [e]
theorem usePage_split : (s.usePage a addr).split = s.split := by obtain ⟨_, e⟩ := s.usePage_eq a addr; rw [e]
theorem usePage_tile (b : Nat) : (s.usePage a addr).tile b = s.tile b := by obtain ⟨_, e⟩ := s.usePage_eq a addr; rw [e]; rfl
theorem usePage_me : (s.usePage a addr).me = s.me := by obtain ⟨_, e⟩ := s.usePage_eq a addr; rw [e]; rfl

theorem digest_cur : (s.digest a cx addr n v).cur = s.cur := by obtain ⟨_, -, e | e⟩ := s.digest_eq a cx addr n v <;> rw [e]; rfl
theorem digest_split : (s.digest a cx addr n v).split = s.split := by obtain ⟨_, -, e | e⟩ := s.digest_eq a cx addr n v <;> rw [e]; rfl
theorem digest_thread (b u : Nat) : (s.digest a cx addr n v).thread b u = s.thread b u := by
  obtain ⟨f, counts, e | e⟩ := s.digest_eq a cx addr n v
  · rw [e]
  · rw [e, thread_modTile]
    intro x
    obtain ⟨d, c⟩ := counts x
    rw [c]

theorem storeAs_cur : (s.storeAs a key n v).cur = s.cur := by
  obtain ⟨_, p, e, ⟨_, _, _, _, _, rfl⟩, -⟩ := s.storeAs_cases a key n v
  rw [e, cur_rollWhere]
  rfl

theorem storeAs_split : (s.storeAs a key n v).split = s.split := by
  obtain ⟨t, p, e, ⟨_, _, _, _, _, rfl⟩, -⟩ := s.storeAs_cases a key n v
  obtain ⟨tiles, r⟩ := rollWhere_eq _ p
  rw [e, r]
  rfl

theorem storeAs_part {α : Type} {part : Thread → α} (rolled : ∀ t : Thread, part { t with rollback := true } = part t) (b u : Nat) :
    part ((s.storeAs a key n v).thread b u) = part (s.thread b u) := by
  obtain ⟨t, p, e, ⟨_, _, _, _, _, rfl⟩, -⟩ := s.storeAs_cases a key n v
  rw [e, rollWhere_part _ rolled]
  rfl

end

end State

open Sys2Proof.Claims

/-! ### A counted store of the issuing thread -/

section
variable (s : State) (addr : Word) (key n v : Nat)

theorem stored_cur : (stored s addr key n v).cur = s.cur := (State.storeAs_cur ..).trans (State.digest_cur ..)
theorem stored_split : (stored s addr key n v).split = s.split := (State.storeAs_split ..).trans (State.digest_split ..)

theorem stored_me {α : Type} {part : Thread → α} (rolled : ∀ t : Thread, part { t with rollback := true } = part t) :
    part (stored s addr key n v).me = part s.me := by
  rw [State.me, stored_cur, stored, State.storeAs_part _ _ _ _ _ rolled, State.digest_thread]
  rfl

theorem used_cur : (used s addr).cur = s.cur := s.usePage_cur ..
theorem used_split : (used s addr).split = s.split := s.usePage_split ..
theorem used_me : (used s addr).me = s.me := s.usePage_me ..

end

end Sys2Proof.Machine
end

section
/-! Loads and stores (R136, R137, R160 to R172): the steps of an access, one rule each, and what an access whose home is on this module comes to. -/

namespace Sys2Proof.Machine

open Sys2Proof.Claims

/-! ### What a read of an operand leaves of the issuing thread -/

namespace State

/-- A change of the issuing thread is one of its present record. -/
theorem modMe_congr {s : State} {f g : Thread → Thread} (h : f s.me = g s.me) : s.modMe f = s.modMe g :=
  congrArg (fun t => s.setTile s.cur.1 { s.tile s.cur.1 with threads := vset (s.tile s.cur.1).threads s.cur.2 t }) h

variable (s : State) (n : RegNum) (h4 : s.cur.2 < 4)
include h4

theorem src_spec : (s.src n).2.me.spec = s.me.spec := by obtain ⟨l, h⟩ := s.src_me n h4; rw [h]; rfl
theorem src_relaxed : (s.src n).2.me.relaxed = s.me.relaxed := by obtain ⟨l, h⟩ := s.src_me n h4; rw [h]; rfl
theorem src_cx : (s.src n).2.me.cx = s.me.cx := by obtain ⟨l, h⟩ := s.src_me n h4; rw [h]; rfl
theorem srcV_spec : (s.srcV n).2.me.spec = s.me.spec := by obtain ⟨l, h⟩ := s.srcV_me n h4; rw [h]; rfl
theorem srcV_cx : (s.srcV n).2.me.cx = s.me.cx := by obtain ⟨l, h⟩ := s.srcV_me n h4; rw [h]; rfl
omit h4

theorem linkPush_split (a : Nat) (d : Dir) (w : Word) : (s.linkPush a d w).split = s.split := by
  unfold linkPush
  cases s.linkPeer a d <;> rfl

theorem popUp_split (a : Nat) (forward : Bool) : (s.popUp a forward).2.split = s.split := by
  unfold popUp
  dsimp only
  split
  · exact linkPush_split ..
  · rfl

theorem popDown_split (a : Nat) (forward : Bool) : (s.popDown a forward).2.split = s.split := by
  unfold popDown
  dsimp only
  split
  · exact linkPush_split ..
  · rfl

theorem src_split : (s.src n).2.split = s.split := by
  by_cases pops : Op.pops n = true
  · rw [s.src_popping n pops]
    show (s.readG s.cur.1 s.cur.2 n).2.split = s.split
    unfold readG
    cases regClass n with
    | ln | lnf => exact popUp_split ..
    | lp | lpf => exact popDown_split ..
    | _ => rfl
  · rw [s.src_plain n pops]

theorem srcV_split : (s.srcV n).2.split = s.split := by
  by_cases pops : isHandle n = true
  · rw [s.srcV_popping n pops]
    show (s.readV s.cur.1 s.cur.2 n).2.split = s.split
    unfold readV
    split_ifs <;> rfl
  · rw [s.srcV_plain n pops]

end State

/-! ### Where an access leads -/

section
variable {s : State} {addr : Word} {u : Use} {key : Nat}

theorem leadsTo_iff {t : Target} : leadsTo s addr u = some t ↔ s.resolve s.cur.1 s.cur.2 addr u = .ok t := by
  unfold leadsTo
  cases s.resolve s.cur.1 s.cur.2 addr u <;> simp

theorem goesTo_iff : goesTo s addr u key = true ↔ s.resolve s.cur.1 s.cur.2 addr u = .ok (.mem key) := by
  unfold goesTo
  split
  next k found => simp [found]
  next other => exact ⟨fun h => absurd h Bool.false_ne_true, fun h => absurd h (other _)⟩

/-- An access that leads to a place of this module is handed to no other one. -/
theorem State.isFar_of_resolve {a th : Nat} {t : Target} (found : s.resolve a th addr u = .ok t) (here : t ≠ .pod) : s.isFar a addr = false := by
  unfold isFar
  split
  next tag =>
    rw [beq_eq_false_iff_ne]
    intro away
    simp only [resolve, tag, away] at found
    exact here (Except.ok.inj found).symm
  next tag =>
    rw [bne_eq_false_iff_eq]
    by_contra other
    simp only [resolve, tag, other, if_false] at found
    exact here (Except.ok.inj found).symm
  next => rfl

theorem addressed_iff {n : Nat} : addressed s addr n u = true ↔ s.checkAddress s.cur.1 s.cur.2 addr n u = none := Option.isNone_iff_eq_none

end

/-! ### The steps of an access -/

namespace Op
variable {s t : State} {x y : RegNum} {c : Chain} {addr name : Word} {n v lat : Nat} {α : Type}

theorem address_ok (off : Word) (n : Nat) (h : s.me.held = []) : address y off n s = .ok ((s.src y).1 + off * BitVec.ofNat 64 n, (s.src y).2) := by
  unfold address
  rw [bind_ok (readG_ok y h)]
  rfl

theorem checkAddress_ok {u : Use} (h : s.checkAddress s.cur.1 s.cur.2 addr n u = none) : checkAddress addr n u s = .ok ((), s) := by
  show (match s.checkAddress s.cur.1 s.cur.2 addr n u with
    | some f => trap f.1 f.2
    | none => pure () : Op Unit) s = _
  rw [h]
  rfl

theorem checkAddress_trap {u : Use} {cause : BitVec 8} {w : Word} (h : s.checkAddress s.cur.1 s.cur.2 addr n u = some (cause, w)) :
    checkAddress addr n u s = .error (.trap cause w) := by
  show (match s.checkAddress s.cur.1 s.cur.2 addr n u with
    | some f => trap f.1 f.2
    | none => pure () : Op Unit) s = _
  rw [h]
  rfl

theorem isRelaxed_of_clear (s : State) (h : c.relaxed = false) : isRelaxed s c = false := by rw [isRelaxed, h, Bool.false_and]

/-- A plain access of a thread with nothing outstanding, and every relaxed one, goes on at once (R161). -/
theorem memOrder_ok (h : (isRelaxed s c || s.me.relaxed.isEmpty) = true) : memOrder c s = .ok ((), s) := by
  show await (isRelaxed s c || s.me.relaxed.isEmpty) .drained s = _
  rw [h]
  rfl

/-- What a load's claim leaves alone: everything but a wait in a state of its own (R160). -/
theorem claiming_ok {m : Op Unit} (h : m s = .ok ((), t)) : claiming x m s = .ok ((), t) := by unfold claiming; rw [h]
theorem claiming_trap {m : Op Unit} {cause : BitVec 8} {w : Word} (h : m s = .error (.trap cause w)) : claiming x m s = .error (.trap cause w) := by
  unfold claiming; rw [h]
theorem claiming_park {m : Op Unit} {p : Park} (h : m s = .error (.park p)) : claiming x m s = .error (.park p) := by unfold claiming; rw [h]
theorem claiming_congr {m k : Op Unit} (h : m s = k t) : claiming x m s = claiming x k t := by unfold claiming; rw [h]
theorem claiming_half {m : Op Unit} (h : m s = .error (.parkIn (.half addr) t)) : claiming x m s = .error (.parkIn (.half addr) t) := by
  unfold claiming; rw [h]
theorem claiming_done {m : Op Unit} (h : m s = .error (.done t)) : claiming x m s = .error (.done t) := by unfold claiming; rw [h]

theorem run_trap {m : Op Unit} {cause : BitVec 8} {w : Word} (h : m s = .error (.trap cause w)) : run s c m = .next (s.trapHere cause w) := by
  simp [run, h]
theorem run_parkIn {m : Op Unit} {p : Park} (h : m s = .error (.parkIn p t)) : run s c m = .next (t.parkMe c p) := by simp [run, h]
theorem run_done {m : Op Unit} (h : m s = .error (.done t)) : run s c m = .next t := by simp [run, h]

/-- Operands at hand, in their order, give an access its address. -/
theorem addresses {o : Word} {reads dests : List OpRef} {f : Word → Op Unit} (hr : s.atHand reads dests = true) (order : memOrder c s = .ok ((), s)) :
    (do need reads dests; memOrder c; let addr ← address y o n; f addr : Op Unit) s = f ((s.src y).1 + o * BitVec.ofNat 64 n) (s.src y).2 := by
  rw [bind_ok (need_ok hr), bind_ok order, bind_ok (address_ok o n (State.atHand_held hr))]

theorem bind_get {β : Type} (f : State → Op β) : (get >>= f) s = f s s := rfl

theorem bind_error {β : Type} {m : Op α} {f : α → Op β} {e : Stop} (h : m s = .error e) : (m >>= f) s = .error e := by
  show (do let p ← m s; f p.1 p.2) = _
  rw [h]
  rfl

theorem bind_congr {β : Type} {m k : Op α} {f : α → Op β} (h : m s = k s) : (m >>= f) s = (k >>= f) s := by
  show (do let p ← m s; f p.1 p.2) = _
  rw [h]
  rfl

theorem plain_near {r : Relaxed} {now : Op Unit} (near : s.isFar s.cur.1 r.addr = false) : plain r now s = now s := by
  show (if s.isFar s.cur.1 r.addr && !buffered s r then sendPod r else now) s = _
  rw [near]
  rfl

theorem loadBytes_ok (speculates : s.me.spec = none) (done : s.performLoad s.cur.1 s.cur.2 addr n = .ok (v, lat)) :
    loadBytes name addr n s = .ok ((v, lat), used s addr) := by
  have steps : loadBytes name addr n s = (match s.me.spec with
      | none => do
        let v ← lift ((s.performLoad s.cur.1 s.cur.2 addr n).mapError (State.underName name))
        set (s.usePage s.cur.1 addr)
        pure v
      | some sp => _ : Op (Nat × Nat)) s := rfl
  rw [steps, speculates, done]
  rfl

theorem storeBytes_ok (speculates : s.me.spec = none) (done : s.performStore s.cur.1 s.cur.2 s.me.cx addr n v = .ok t) :
    storeBytes addr n v s = .ok ((), t) := by
  have steps : storeBytes addr n v s = (match s.me.spec with
      | none => do
        let s' ← lift (s.performStore s.cur.1 s.cur.2 s.me.cx addr n v)
        set s'
      | some sp => _ : Op Unit) s := rfl
  rw [steps, speculates, done]
  rfl

/-- A load at its home of this module hands what it has read to its destination. -/
theorem plain_load {r : Relaxed} {write : Nat → Nat → Op Unit} (near : s.isFar s.cur.1 r.addr = false) (speculates : s.me.spec = none)
    (done : s.performLoad s.cur.1 s.cur.2 r.addr r.size = .ok (v, lat)) (written : write v lat (used s r.addr) = .ok ((), t)) :
    plain r (loadInto r write) s = .ok ((), t) := by
  rw [plain_near near, loadInto, bind_ok (loadBytes_ok speculates done), written]

/-- A store at its home of this module is performed. -/
theorem plain_store {r : Relaxed} (near : s.isFar s.cur.1 r.addr = false) (speculates : s.me.spec = none)
    (done : s.performStore s.cur.1 s.cur.2 s.me.cx addr n v = .ok t) : plain r (storeBytes addr n v) s = .ok ((), t) := by
  rw [plain_near near, storeBytes_ok speculates done]

end Op

namespace State
variable {s : State} {addr : Word} {n key off : Nat}

theorem performLoad_mem (home : goesTo s addr Use.load key = true) (clean : s.poisonedAs s.cur.1 key n = false) :
    s.performLoad s.cur.1 s.cur.2 addr n = .ok (s.viewN s.cur.1 key n, s.homeTurns s.cur.1 key) := by
  rw [performLoad, goesTo_iff.1 home]
  simp only [clean, Bool.false_eq_true, if_false]

theorem performLoad_window (home : leadsTo s addr Use.load = some (.window off)) :
    s.performLoad s.cur.1 s.cur.2 addr n = .ok (s.windowRead s.cur.1 off n, 1) := by
  rw [performLoad, leadsTo_iff.1 home]

theorem performLoad_mcr (home : leadsTo s addr Use.load = some (.mcr off)) :
    s.performLoad s.cur.1 s.cur.2 addr n = .ok ((s.mcrRead off).toNat, s.homeTurns s.cur.1 (mcrKey off)) := by
  rw [performLoad, leadsTo_iff.1 home]

theorem performStore_mem (v : Nat) (home : goesTo s addr Use.store key = true) :
    s.performStore s.cur.1 s.cur.2 s.me.cx addr n v = .ok (used (stored s addr key n v) addr) := by
  rw [performStore, goesTo_iff.1 home, used, stored_cur]
  rfl

theorem performStore_mcr (v : Nat) (home : leadsTo s addr Use.store = some (.mcr off)) :
    s.performStore s.cur.1 s.cur.2 s.me.cx addr n v = .ok (s.mcrWrite off (BitVec.ofNat 64 v)) := by
  rw [performStore, leadsTo_iff.1 home]

end State

/-! ### The forms -/

section
variable {i : Instr} {c : Chain} {x y : RegNum} {o : Word} {n : Nat} {b : Bool} {s : State}

theorem exec_loadOf (form : loadOf i = some (c, x, y, o, n, b)) : exec i s = issue {} c s (loadG c x y o n b) := by
  unfold loadOf at form
  split at form <;> cases form <;> rfl

theorem exec_storeOf (form : storeOf i = some (c, x, y, o, n)) : exec i s = issue {} c s (storeG c x y o n) := by
  unfold storeOf at form
  split at form <;> cases form <;> rfl

theorem exec_feLoadOf (form : feLoadOf i = some (c, x, y, o, n, b)) : exec i s = issue settled c s (feLoad c x y o n b) := by
  unfold feLoadOf at form
  split at form <;> cases form <;> rfl

theorem exec_feStoreOf (form : feStoreOf i = some (c, x, y, o, n, b)) :
    exec i s = issue settled c s (if b then feStoreWait c x y o n else feStoreNow c x y o n) := by
  unfold feStoreOf at form
  split at form <;> cases form <;> rfl

theorem loadOf_small (form : loadOf i = some (c, x, y, o, n, b)) : n ≤ 8 := by
  unfold loadOf at form
  split at form <;> cases form <;> decide

theorem feLoadOf_size (form : feLoadOf i = some (c, x, y, o, n, b)) : n = 4 ∨ n = 8 := by
  unfold feLoadOf at form
  split at form <;> cases form <;> decide

theorem feStoreOf_size (form : feStoreOf i = some (c, x, y, o, n, b)) : n = 4 ∨ n = 8 := by
  unfold feStoreOf at form
  split at form <;> cases form <;> decide

end

/-- The extension of a loaded number (R164). -/
theorem extendLoad_eq_loaded {n : Nat} (small : n ≤ 8) (signed : Bool) (v : Nat) : extendLoad signed n v = loaded signed n v := by
  cases signed with
  | false => rfl
  | true =>
    show BitVec.ofInt 64 ((BitVec.ofNat 64 v).setWidth (8 * n)).toInt = BitVec.ofInt 64 ((v : Int).bmod (2 ^ (8 * n)))
    have narrow : v % 2 ^ 64 % 2 ^ (8 * n) = v % 2 ^ (8 * n) := Nat.mod_mod_of_dvd v (Nat.pow_dvd_pow 2 (by omega))
    rw [BitVec.toInt_eq_toNat_bmod, BitVec.toNat_setWidth, BitVec.toNat_ofNat, narrow, Int.natCast_mod, Int.emod_bmod]

/-! ### An access performed at its home -/

section
variable {i : Instr} {c : Chain} {x y : RegNum} {o : Word} {n v lat : Nat} {b : Bool} {s t : State}

theorem plainly_iff : plainly s c = true ↔ s.me.spec = none ∧ s.me.relaxed = [] ∧ c.relaxed = false := by
  simp [plainly, and_assoc]

/-- A plain load whose access leads to a place of this module writes what it finds there. -/
theorem load_performed (form : loadOf i = some (c, x, y, o, n, b)) (h : s.admits {} c = true) (hr : s.atHand [.g y] [.g x] = true)
    (unhurried : plainly s c = true) (ok : addressed (s.src y).2 ((s.src y).1 + o * BitVec.ofNat 64 n) n Use.load = true)
    (near : (s.src y).2.isFar (s.src y).2.cur.1 ((s.src y).1 + o * BitVec.ofNat 64 n) = false)
    (done : (s.src y).2.performLoad (s.src y).2.cur.1 (s.src y).2.cur.2 ((s.src y).1 + o * BitVec.ofNat 64 n) n = .ok (v, lat)) :
    exec i s = .next (((used (s.src y).2 ((s.src y).1 + o * BitVec.ofNat 64 n)).dst x (loaded b n v) lat).fell c) := by
  obtain ⟨speculates, outstanding, strict⟩ := plainly_iff.1 unhurried
  have order : Op.memOrder c s = .ok ((), s) := Op.memOrder_ok (by rw [outstanding, List.isEmpty_nil, Bool.or_true])
  have checked : Op.checkAddress ((s.src y).1 + o * BitVec.ofNat 64 n) n Use.load (s.src y).2 = .ok ((), (s.src y).2) :=
    Op.checkAddress_ok (addressed_iff.1 ok)
  rw [exec_loadOf form, issue_admitted h]
  unfold loadG
  refine Op.run_ok (Op.claiming_ok ?_)
  rw [Op.addresses hr order, Op.bind_get, Op.isRelaxed_of_clear _ strict]
  refine (Op.bind_ok checked).trans ?_
  dsimp only
  rw [if_neg Bool.false_ne_true, ← extendLoad_eq_loaded (loadOf_small form)]
  exact Op.bind_ok (Op.plain_load near ((s.src_spec y (State.admits_lt h)).trans speculates) done (Op.writeG_ok ..))

/-- Settles O6: the home of the access says what it reads and when. -/
theorem loadResult : Obligations.LoadResult := by
  intro i c x y o n signed s key form h hr unhurried u addr ok
  have cur : u.cur = s.cur := s.src_cur y
  rw [← cur]
  refine ⟨fun home clean => ?_, fun off home => ?_, fun off home => ?_⟩
  · exact load_performed form h hr unhurried ok (State.isFar_of_resolve (goesTo_iff.1 home) nofun) (State.performLoad_mem home clean)
  · exact load_performed form h hr unhurried ok (State.isFar_of_resolve (leadsTo_iff.1 home) nofun) (State.performLoad_window home)
  · exact load_performed form h hr unhurried ok (State.isFar_of_resolve (leadsTo_iff.1 home) nofun) (State.performLoad_mcr home)

/-- A plain store whose access leads to a place of this module is performed there. -/
theorem store_performed (form : storeOf i = some (c, x, y, o, n)) (h : s.admits {} c = true) (hr : s.atHand [.g y, .g x] [] = true)
    (unhurried : plainly s c = true) {u : State} {addr : Word} (read : ((s.src y).2.src x).2 = u) (at_ : (s.src y).1 + o * BitVec.ofNat 64 n = addr)
    (ok : addressed u addr n Use.store = true) (near : u.isFar u.cur.1 addr = false)
    (done : u.performStore u.cur.1 u.cur.2 u.me.cx addr n (((s.src y).2.src x).1.toNat % 256 ^ n) = .ok t) : exec i s = .next (t.fell c) := by
  subst read at_
  obtain ⟨speculates, outstanding, strict⟩ := plainly_iff.1 unhurried
  have h4 := State.admits_lt h
  have order : Op.memOrder c s = .ok ((), s) := Op.memOrder_ok (by rw [outstanding, List.isEmpty_nil, Bool.or_true])
  have checked := Op.checkAddress_ok (addressed_iff.1 ok)
  have calm : ((s.src y).2.src x).2.me.spec = none := (State.src_spec _ x (by rwa [s.src_cur])).trans ((s.src_spec y h4).trans speculates)
  rw [exec_storeOf form, issue_admitted h]
  unfold storeG
  refine Op.run_ok ?_
  rw [Op.addresses hr order, Op.bind_ok (Op.readG_ok x ((s.src_held y h4).trans (State.atHand_held hr))), Op.bind_get, Op.isRelaxed_of_clear _ strict]
  refine (Op.bind_ok checked).trans ?_
  dsimp only
  rw [if_neg Bool.false_ne_true]
  exact Op.bind_ok (Op.plain_store near calm done)

/-- Settles O7: the operands are read base first, and the access is performed at its home. -/
theorem storeResult : Obligations.StoreResult := by
  intro i c x y o n s key form h hr unhurried u addr v ok
  refine ⟨fun home => ?_, fun off home => ?_⟩
  · have near := State.isFar_of_resolve (goesTo_iff.1 home) nofun
    exact store_performed form h hr unhurried rfl rfl ok near (State.performStore_mem v home)
  · have near := State.isFar_of_resolve (leadsTo_iff.1 home) nofun
    exact store_performed form h hr unhurried rfl rfl ok near (State.performStore_mcr v home)
end

/-! ### Relaxed accesses (R161) -/

section
variable {i : Instr} {c : Chain} {x y : RegNum} {o : Word} {n : Nat} {b : Bool} {s : State}

theorem Op.isRelaxed_of_set (calm : s.me.spec = none) (h : c.relaxed = true) : Op.isRelaxed s c = true := by rw [Op.isRelaxed, h, calm]; rfl

/-- With fewer than eight outstanding, a relaxed access joins them. -/
theorem Op.relax_ok (r : Relaxed) (room : s.me.relaxed.length < 8) :
    Op.relax r s = .ok ((), s.modMe fun t => { t with relaxed := t.relaxed ++ [{ r with at_ := s.cyc s.cur.1 }] }) := by
  have free : Op.await (decide (s.me.relaxed.length < 8)) .relaxedSlot s = .ok ((), s) := by rw [decide_eq_true room]; rfl
  exact (Op.bind_get _).trans (Op.bind_ok free)

theorem Op.relax_waits (r : Relaxed) (full : ¬s.me.relaxed.length < 8) : Op.relax r s = .error (.park .relaxedSlot) := by
  have wait : Op.await (decide (s.me.relaxed.length < 8)) .relaxedSlot s = .error (.park .relaxedSlot) := by rw [decide_eq_false full]; rfl
  exact (Op.bind_get _).trans (Op.bind_error wait)

/-- A relaxed load, up to its place among the outstanding accesses. -/
theorem loadG_relaxed (hr : s.atHand [.g y] [.g x] = true) (relaxed : c.relaxed = true) (h4 : s.cur.2 < 4) (calm : s.me.spec = none) {u : State} {addr : Word}
    (read : (s.src y).2 = u) (at_ : (s.src y).1 + o * BitVec.ofNat 64 n = addr) (ok : addressed u addr n { Use.load with relaxed := true } = true) :
    loadG c x y o n b s = Op.claiming x (do
      Op.relax { addr := addr, size := n, store := false, signed := b, dest := x, cx := u.me.cx, window := windowNow u addr n }
      Op.retire c) u := by
  subst read at_
  have order : Op.memOrder c s = .ok ((), s) := Op.memOrder_ok (by rw [Op.isRelaxed_of_set calm relaxed, Bool.true_or])
  have checked := Op.checkAddress_ok (addressed_iff.1 ok)
  unfold loadG
  refine Op.claiming_congr ?_
  rw [Op.addresses hr order, Op.bind_get, Op.isRelaxed_of_set ((s.src_spec y h4).trans calm) relaxed]
  refine (Op.bind_ok checked).trans ?_
  dsimp only
  rw [if_pos rfl]

/-- A relaxed store, up to its place among the outstanding accesses. -/
theorem storeG_relaxed (hr : s.atHand [.g y, .g x] [] = true) (relaxed : c.relaxed = true) (h4 : s.cur.2 < 4) (calm : s.me.spec = none) {u : State}
    {addr : Word} (read : ((s.src y).2.src x).2 = u) (at_ : (s.src y).1 + o * BitVec.ofNat 64 n = addr)
    (ok : addressed u addr n { Use.store with relaxed := true } = true) :
    storeG c x y o n s = (do
      Op.relax { addr := addr, size := n, store := true, data := BitVec.ofNat 128 (((s.src y).2.src x).1.toNat % 256 ^ n), cx := u.me.cx }
      Op.retire c : Op Unit) u := by
  subst read at_
  have order : Op.memOrder c s = .ok ((), s) := Op.memOrder_ok (by rw [Op.isRelaxed_of_set calm relaxed, Bool.true_or])
  have checked := Op.checkAddress_ok (addressed_iff.1 ok)
  have calm' : ((s.src y).2.src x).2.me.spec = none := (State.src_spec _ x (by rwa [s.src_cur])).trans ((s.src_spec y h4).trans calm)
  unfold storeG
  rw [Op.addresses hr order, Op.bind_ok (Op.readG_ok x ((s.src_held y h4).trans (State.atHand_held hr))), Op.bind_get, Op.isRelaxed_of_set calm' relaxed]
  refine (Op.bind_ok checked).trans ?_
  dsimp only
  rw [if_pos rfl]

/-- Settles O9: nothing waits for what is outstanding, and there is room for one more. -/
theorem relaxedAccessIssues : Obligations.RelaxedAccessIssues := by
  refine ⟨fun i c x y o n signed s form h hr relaxed calm room => ?_, fun i c x y o n s form h hr relaxed calm room => ?_⟩
  · intro u addr ok
    have h4 := State.admits_lt h
    have cur : u.cur = s.cur := s.src_cur y
    rw [exec_loadOf form, issue_admitted h, ← cur]
    refine Op.run_ok ((loadG_relaxed hr relaxed h4 calm rfl rfl ok).trans (Op.claiming_ok ?_))
    exact Op.bind_ok ((Op.relax_ok _ (by rwa [s.src_relaxed y h4])).trans (congrArg (fun t => Except.ok ((), t)) (State.modMe_congr rfl)))
  · intro u addr ok
    have h4 := State.admits_lt h
    have cur : u.cur = s.cur := (State.src_cur ..).trans (s.src_cur y)
    have outstanding : u.me.relaxed.length < 8 := by
      rwa [(s.src y).2.src_relaxed x (by rwa [s.src_cur y]), s.src_relaxed y h4]
    rw [exec_storeOf form, issue_admitted h, ← cur]
    refine Op.run_ok ((storeG_relaxed hr relaxed h4 calm rfl rfl ok).trans ?_)
    exact Op.bind_ok ((Op.relax_ok _ outstanding).trans (congrArg (fun t => Except.ok ((), t)) (State.modMe_congr rfl)))

end

/-! ### Accesses of sixteen bytes (R167, R172) -/

namespace Op
variable {s w t : State} {r : Relaxed} {write : Nat → Nat → Op Unit} {x : RegNum} {v₁ v₂ lat₁ lat₂ : Nat}

theorem apart_eq (calm : s.me.spec = none) : apart s = s.split := by rw [apart, calm]; exact Bool.and_true _

/-- The state in which the first doubleword of a vector access has been performed. -/
def halved (s : State) (r : Relaxed) (lo : Nat) : State :=
  s.modMe fun t => { t with relaxed := t.relaxed ++ [{ r with first := some (BitVec.ofNat 64 lo), hold := none }] }

theorem halfDone_eq (r : Relaxed) (lo : Nat) (s : State) : halfDone r lo none s = .error (.parkIn (.half r.addr) (halved s r lo)) := rfl

/-- The first doubleword is performed, and the thread kept. -/
theorem loadWide_half (calm : s.me.spec = none) (low : s.performLoad s.cur.1 s.cur.2 r.addr 8 = .ok (v₁, lat₁)) (split : s.split = true) :
    loadWide r write s = .error (.parkIn (.half r.addr) (halved (used s r.addr) r v₁)) := by
  have apart_ : apart (used s r.addr) = true := by rw [apart_eq (by rwa [used_me]), used_split, split]
  rw [loadWide, bind_ok (loadBytes_ok calm low), bind_get, apart_, if_pos rfl, halfDone_eq]

theorem loadWide_whole (calm : s.me.spec = none) (low : s.performLoad s.cur.1 s.cur.2 r.addr 8 = .ok (v₁, lat₁)) (whole : s.split = false)
    (next : used s r.addr = w) (high : w.performLoad w.cur.1 w.cur.2 (r.addr + 8) 8 = .ok (v₂, lat₂))
    (written : write (v₁ + v₂ * 2 ^ 64) (max lat₁ lat₂) (used w (r.addr + 8)) = .ok ((), t)) : loadWide r write s = .ok ((), t) := by
  subst next
  have calm' : (used s r.addr).me.spec = none := by rwa [used_me]
  have joined : apart (used s r.addr) = false := by rw [apart_eq calm', used_split, whole]
  rw [loadWide, bind_ok (loadBytes_ok calm low), bind_get, joined, if_neg Bool.false_ne_true, bind_ok (loadBytes_ok calm' high), written]

theorem storeWide_half (calm : s.me.spec = none) (low : s.performStore s.cur.1 s.cur.2 s.me.cx r.addr 8 (r.data.toNat % 2 ^ 64) = .ok w)
    (calm' : w.me.spec = none) (split : w.split = true) : storeWide r s = .error (.parkIn (.half r.addr) (halved w r 0)) := by
  have apart_ : apart w = true := by rw [apart_eq calm', split]
  exact (bind_ok (storeBytes_ok calm low)).trans ((bind_get _).trans ((congrFun (if_pos apart_) w).trans (halfDone_eq r 0 w)))

theorem storeWide_whole (calm : s.me.spec = none) (low : s.performStore s.cur.1 s.cur.2 s.me.cx r.addr 8 (r.data.toNat % 2 ^ 64) = .ok w)
    (calm' : w.me.spec = none) (whole : w.split = false)
    (high : w.performStore w.cur.1 w.cur.2 w.me.cx (r.addr + 8) 8 (r.data.toNat / 2 ^ 64) = .ok t) : storeWide r s = .ok ((), t) := by
  rw [storeWide, bind_ok (storeBytes_ok calm low), bind_get, apart_eq calm', whole]
  rw [if_neg Bool.false_ne_true, calm']
  dsimp only
  rw [high]
  rfl

end Op

section
variable {c : Chain} {x y : RegNum} {o : Word} {s : State}

/-- VLD, up to its access. -/
theorem loadV_plain (hr : s.atHand [.g y] [.v x] = true) (unhurried : plainly s c = true) {u : State} {addr : Word} (read : (s.src y).2 = u)
    (at_ : (s.src y).1 + o * 16 = addr) (ok : addressed u addr 16 Use.load = true) (near : u.isFar u.cur.1 addr = false) :
    loadV c x y o s = Op.claiming x (do
      Op.loadWide { addr := addr, size := 16, store := false, dest := x, vector := true } fun v lat => Op.writeV x (BitVec.ofNat 128 v) lat
      Op.retire c) u := by
  subst read at_
  obtain ⟨-, outstanding, strict⟩ := plainly_iff.1 unhurried
  have order : Op.memOrder c s = .ok ((), s) := Op.memOrder_ok (by rw [outstanding, List.isEmpty_nil, Bool.or_true])
  have checked := Op.checkAddress_ok (addressed_iff.1 ok)
  unfold loadV
  refine Op.claiming_congr ?_
  rw [Op.addresses hr order, Op.bind_get, Op.isRelaxed_of_clear _ strict]
  refine (Op.bind_ok checked).trans ?_
  dsimp only
  rw [if_neg Bool.false_ne_true]
  exact Op.bind_congr (Op.plain_near near)

/-- VST, up to its access. -/
theorem storeV_plain (hr : s.atHand [.g y, .v x] [] = true) (h4 : s.cur.2 < 4) (unhurried : plainly s c = true) {u : State} {addr : Word}
    (read : ((s.src y).2.srcV x).2 = u) (at_ : (s.src y).1 + o * 16 = addr) (ok : addressed u addr 16 Use.store = true)
    (near : u.isFar u.cur.1 addr = false) :
    storeV c x y o s = (do
      Op.storeWide { addr := addr, size := 16, store := true, data := ((s.src y).2.srcV x).1, cx := u.me.cx }
      Op.retire c : Op Unit) u := by
  subst read at_
  obtain ⟨-, outstanding, strict⟩ := plainly_iff.1 unhurried
  have order : Op.memOrder c s = .ok ((), s) := Op.memOrder_ok (by rw [outstanding, List.isEmpty_nil, Bool.or_true])
  have checked := Op.checkAddress_ok (addressed_iff.1 ok)
  unfold storeV
  rw [Op.addresses hr order, Op.bind_ok (Op.readV_ok x ((s.src_held y h4).trans (State.atHand_held hr))), Op.bind_get, Op.isRelaxed_of_clear _ strict]
  refine (Op.bind_ok checked).trans ?_
  dsimp only
  rw [if_neg Bool.false_ne_true]
  exact Op.bind_congr (Op.plain_near near)

/-- Settles O8: the doublewords are performed low one first, and a move that is set apart stops between them. -/
theorem vectorMoveResult : Obligations.VectorMoveResult := by
  intro c x y o s k1 h unhurried addr
  have h4 := State.admits_lt h
  have calm := (plainly_iff.1 unhurried).1
  refine ⟨?_, ?_⟩
  · intro hr u
    have cur : u.cur = s.cur := s.src_cur y
    rw [← cur]
    intro lo w ok home clean
    have calmU : u.me.spec = none := (s.src_spec y h4).trans calm
    have near := State.isFar_of_resolve (goesTo_iff.1 home) nofun
    have splits : u.split = s.split := s.src_split y
    have low := State.performLoad_mem home clean
    refine ⟨fun split => ?_, fun k2 whole home2 clean2 => ?_⟩
    · refine (issue_admitted h).trans (Op.run_parkIn ((loadV_plain hr unhurried rfl rfl ok near).trans (Op.claiming_half ?_)))
      exact Op.bind_error (Op.loadWide_half calmU low (splits.trans split))
    · have high := State.performLoad_mem home2 (by rwa [used_cur])
      refine (issue_admitted h).trans (Op.run_ok ((loadV_plain hr unhurried rfl rfl ok near).trans (Op.claiming_ok ?_)))
      refine Op.bind_ok (Op.loadWide_whole calmU low (splits.trans whole) rfl high ?_)
      rw [Nat.mul_comm, used_cur]
      rfl
  · intro hr u
    have cur : u.cur = s.cur := (State.srcV_cur ..).trans (s.src_cur y)
    have h4' : (s.src y).2.cur.2 < 4 := by rwa [s.src_cur]
    intro d w ok home
    have calmU : u.me.spec = none := (State.srcV_spec _ x h4').trans ((s.src_spec y h4).trans calm)
    have near := State.isFar_of_resolve (goesTo_iff.1 home) nofun
    have low := State.performStore_mem (n := 8) (d.toNat % 2 ^ 64) home
    have calmW : w.me.spec = none := by rwa [used_me, stored_me (part := Thread.spec) _ _ _ _ _ fun _ => rfl]
    have splits : w.split = s.split := by rw [used_split, stored_split, State.srcV_split, s.src_split]
    have excluded : u.me.cx = s.me.cx := (State.srcV_cx _ x h4').trans (s.src_cx y h4)
    refine ⟨fun split => ?_, fun k2 whole home2 => ?_⟩
    · refine (issue_admitted h).trans (Op.run_parkIn ((storeV_plain hr h4 unhurried rfl rfl ok near).trans ?_))
      rw [← excluded]
      exact Op.bind_error (Op.storeWide_half calmU low calmW (splits.trans split))
    · have high := State.performStore_mem (n := 8) (d.toNat / 2 ^ 64) home2
      refine (issue_admitted h).trans (Op.run_ok ((storeV_plain hr h4 unhurried rfl rfl ok near).trans ?_))
      exact Op.bind_ok (Op.storeWide_whole calmU low calmW (splits.trans whole) high)

end

end Sys2Proof.Machine
end

section
/-! Speculative accesses do not hold as stated: a load of a space that speculation does not reach parks its thread with the places it has reserved (R160),
while the statement has them given up. -/

namespace Sys2Proof.Machine

open Sys2Proof.Claims

theorem Op.isRelaxed_of_spec {s : State} {sp : Spec} (speculates : s.me.spec = some sp) (c : Chain) : Op.isRelaxed s c = false := by
  rw [Op.isRelaxed, speculates]
  exact Bool.and_false _

theorem Op.loadBytes_unreached {s : State} {sp : Spec} {name addr : Word} {n : Nat} (speculates : s.me.spec = some sp)
    (outside : State.specSpace addr = false) : Op.loadBytes name addr n s = .error (.park .speculating) := by
  have steps : Op.loadBytes name addr n s = (match s.me.spec with
      | none => _
      | some sp => do
        Op.await (State.specSpace addr) .speculating
        let s' := s.specWatch s.cur.1 s.cur.2 sp addr n
        match s.specLoad s.cur.1 s.cur.2 sp addr n with
        | .error (.trap cause _) => throw (.done (s'.trapHere cause name))
        | .error e => throw e
        | .ok v => do
          set s'
          pure (v, 1) : Op (Nat × Nat)) s := rfl
  rw [steps, speculates]
  exact Op.bind_error (by rw [outside]; rfl)

theorem Op.plain_error {s : State} {r : Relaxed} {now : Op Unit} {e : Stop} (near : s.isFar s.cur.1 r.addr = false) (h : now s = .error e) :
    plain r now s = .error e := (Op.plain_near near).trans h

section
variable {i : Instr} {c : Chain} {x y : RegNum} {o : Word} {n : Nat} {b : Bool} {s : State} {sp : Spec}

/-- A speculating thread's load of a space that it may not reach parks it as it stands. -/
theorem load_unreached (form : loadOf i = some (c, x, y, o, n, b)) (h : s.admits {} c = true) (hr : s.atHand [.g y] [.g x] = true)
    (speculates : s.me.spec = some sp) (outstanding : s.me.relaxed = [])
    (ok : addressed (s.src y).2 ((s.src y).1 + o * BitVec.ofNat 64 n) n Use.load = true)
    (near : (s.src y).2.isFar (s.src y).2.cur.1 ((s.src y).1 + o * BitVec.ofNat 64 n) = false)
    (outside : State.specSpace ((s.src y).1 + o * BitVec.ofNat 64 n) = false) : exec i s = .next (s.parkMe c .speculating) := by
  have order : Op.memOrder c s = .ok ((), s) := Op.memOrder_ok (by rw [outstanding, List.isEmpty_nil, Bool.or_true])
  have checked := Op.checkAddress_ok (addressed_iff.1 ok)
  have same := (s.src_spec y (State.admits_lt h)).trans speculates
  rw [exec_loadOf form, issue_admitted h]
  unfold loadG
  refine Op.run_park (Op.claiming_park ?_)
  rw [Op.addresses hr order, Op.bind_get, Op.isRelaxed_of_spec same]
  refine (Op.bind_ok checked).trans ?_
  dsimp only
  rw [if_neg Bool.false_ne_true]
  exact Op.bind_error (Op.plain_error near (Op.bind_error (Op.loadBytes_unreached same outside)))

end

/-- The chain of the load. -/
def loadsWindow : Chain := ⟨0, 2, 0⟩

/-- A thread that speculates from its reset on, and holds a place on its up link. -/
def Thread.claiming (t : Thread) : Thread :=
  { t with
    claims := [40]
    spec := some { bar := 0, barsPc := t.pc, pc := t.pc, g := t.g, v := t.v, q := t.q, fst := t.fst, srcnt := t.srcnt, loop0 := t.loop0, loop1 := t.loop1
                   ldepth := t.ldepth } }

/-- It is thread 1 of tile 0, and issues. -/
def claimer : State := { State.reset with cur := (0, 1) }.modThread 0 1 Thread.claiming

/-- Refutes O54: a load of the control window. The model parks the thread with its place reserved; the statement has it claim nothing. -/
theorem not_speculativeAccess : ¬ Obligations.SpeculativeAccess := by
  unfold Obligations.SpeculativeAccess
  rintro ⟨-, loads⟩
  have admitted : claimer.admits {} loadsWindow = true := by decide +kernel
  have ready : claimer.atHand [.g 0] [.g 9] = true := by decide +kernel
  have outstanding : claimer.me.relaxed = [] := by decide +kernel
  obtain ⟨sp, speculates⟩ : ∃ sp, claimer.me.spec = some sp := Option.isSome_iff_exists.1 (by decide +kernel)
  obtain ⟨parks, -⟩ := loads (.ldd loadsWindow 9 0 0xE00) loadsWindow 9 0 0xE00 8 false claimer sp 0 rfl admitted ready speculates outstanding
    (by decide +kernel)
  have parked := parks (by decide +kernel)
  rw [load_unreached rfl admitted ready speculates outstanding (by decide +kernel) (by decide +kernel) (by decide +kernel)] at parked
  have claims := congrArg (fun t : State => t.me.claims) (Host.Outcome.next.inj parked)
  exact absurd claims (by decide +kernel)

end Sys2Proof.Machine
end

section
/-! The later conditions do not hold as stated: under the trap policy every access that waits for a failed walk takes its trap in turn (R156), and a double trap
of one of them ends the gang of all (R386), while the statement has each waiting thread at its handler. -/

namespace Sys2Proof.Machine

open Sys2Proof.Claims

/-- Thread 1 of a tile of gang 0 of grid 5 waits for the walk of the second table of space 0. -/
def walkWaiter : Tile :=
  { handle := 5
    threads := vset (Vector.replicate 4 {}) 1 { live := true, park := some (.walk 52 0 0 0x4000400000000000 0x4000400000000000) } }

/-- The walk that it waits for. -/
def failedWalk : Walk := { station := 52, vd := 0, space := 0, addr := 0x4000400000000000, kind := .load, vtn := 0, thread := 1 }

/-- Two tiles of the gang, the second of which the list of tiles names twice. Space 0 of VD 0 has the trap policy, and its tables are empty. -/
def walkers : State := { State.reset with
  tiles := [(70, walkWaiter), (71, walkWaiter), (71, walkWaiter)]
  gangs := [{ handle := 5, index := 0, vd := 0, sites := [70, 71] }]
  walks := [failedWalk]
  mem := [(rimKey 0, 3), (mcrKey (State.vdOff 0 16), 1), (mcrKey (State.vdOff 0 24), 1)] }

theorem walkers_tile (b : Nat) : walkers.tile b = walkWaiter ∨ walkers.tile b = {} := by
  have tiles : walkers.tiles = [(70, walkWaiter), (71, walkWaiter), (71, walkWaiter)] := rfl
  rw [State.tile, tiles, Tab.get?, Tab.get?, Tab.get?, Tab.get?]
  split_ifs
  · exact .inl rfl
  · exact .inl rfl
  · exact .inr rfl

theorem walkers_untrapped (b u : Nat) (h : u < 4) : (walkers.thread b u).tst.getLsbD 2 = false := by
  rw [State.thread]
  obtain waits | empty := walkers_tile b
  · rw [waits]
    interval_cases u <;> decide
  · rw [empty]
    interval_cases u <;> decide

theorem walkers_parked : parkedOn walkers 70 1 (.walk 52 0 0 0x4000400000000000 0x4000400000000000) :=
  ⟨by decide +kernel, by decide, by decide +kernel, by decide +kernel, by decide +kernel, by decide +kernel, by decide +kernel, walkers_untrapped,
    by decide +kernel, by decide +kernel⟩

theorem walkers_walking : walkers.walking 52 = [failedWalk] := by decide +kernel

/-- The walk's end ends the gang. -/
theorem walkers_ended : (((walkers.finishWalk failedWalk).retryOutside).thread 70 1).live = false := by decide +kernel

theorem walkers_finish : exec (.translationWalkDone 52 0) walkers = .next (walkers.finishWalk failedWalk).retryOutside := by
  show execTranslationWalkDone 52 0 walkers = _
  rw [execTranslationWalkDone, walkers_walking]
  rfl

/-- Refutes O55: the thread of tile 71 takes its trap twice. The model stops thread 1 of tile 70 with its gang; the statement has it at its handler. -/
theorem not_laterConditions : ¬ Obligations.LaterConditions := by
  unfold Obligations.LaterConditions
  rintro ⟨-, -, walks, -⟩
  obtain ⟨t, ran, trapped, -⟩ := walks walkers failedWalk [] 70 1 0x4000400000000000 0x4000400000000000 walkers_walking rfl (by decide +kernel)
    walkers_parked (by decide)
  obtain rfl := Host.Outcome.next.inj (walkers_finish.symm.trans ran)
  have live := congrArg Thread.live (trapped (by decide +kernel))
  rw [walkers_ended] at live
  exact absurd live (by decide +kernel)

end Sys2Proof.Machine
end

section
/-! Conditions 1 to 3 of R137: what the model checks is what the table of spaces says, and an access that fails one traps. -/

namespace Sys2Proof.Machine

open Sys2Proof.Claims

namespace State

/-! ### Fields of an address (R136) -/

/-- An address without its tag. -/
def untagged (addr : Word) : Nat := addr.toNat % 2 ^ 60

theorem tagOf_eq (addr : Word) : tagOf addr = addr.toNat / 2 ^ 60 := by
  have small := addr.isLt
  rw [tagOf, BitVec.extractLsb'_toNat, Nat.shiftRight_eq_div_pow]
  omega

theorem fieldOf_eq (addr : Word) {lo n : Nat} (h : lo + n ≤ 60) : fieldOf addr lo n = untagged addr / 2 ^ lo % 2 ^ n := by
  rw [fieldOf, BitVec.extractLsb'_toNat, Nat.shiftRight_eq_div_pow, untagged, ← Nat.mod_mul_right_div_self, ← Nat.mod_mul_right_div_self, ← pow_add,
    Nat.mod_mod_of_dvd _ (Nat.pow_dvd_pow 2 h)]

/-- The bits above a field are zero. -/
theorem fieldOf_top (addr : Word) {lo n : Nat} (h : lo + n = 60) : (fieldOf addr lo n == 0) = decide (untagged addr < 2 ^ lo) := by
  have small : untagged addr / 2 ^ lo < 2 ^ n := Nat.div_lt_of_lt_mul (by rw [← pow_add, h]; exact Nat.mod_lt _ (by decide))
  rw [fieldOf_eq addr h.le, Nat.mod_eq_of_lt small, Bool.eq_iff_iff, beq_iff_eq, decide_eq_true_iff, Nat.div_eq_zero_iff_lt (Nat.two_pow_pos lo)]

theorem rankOf_extract (addr : Word) : rankOf (addr.extractLsb' 16 32) = untagged addr / 2 ^ 16 % 2 ^ 16 := by
  rw [rankOf, BitVec.extractLsb'_toNat, BitVec.extractLsb'_toNat, untagged]
  simp only [Nat.shiftRight_eq_div_pow]
  omega

theorem gangOf_extract (addr : Word) : gangOf (addr.extractLsb' 16 32) = untagged addr / 2 ^ 32 % 2 ^ 16 := by
  rw [gangOf, BitVec.extractLsb'_toNat, BitVec.extractLsb'_toNat, untagged]
  simp only [Nat.shiftRight_eq_div_pow]
  omega

theorem plenOf_le (s : State) (a : Nat) : s.plenOf a ≤ 65536 := by
  unfold plenOf
  split
  · exact le_rfl
  · exact Mem.readN_lt s.mem 2 _

/-! The conditions on the address alone, space by space. -/

section
variable (low : Nat) (b : Bool)

theorem padRange : (decide (low < 2 ^ 16) && (decide (low / 2 ^ 0 % 2 ^ 16 < 0x6000) || (decide (0x7000 ≤ low / 2 ^ 0 % 2 ^ 16)
      && decide (low / 2 ^ 0 % 2 ^ 16 < 0x8000) && b))) = (decide (low < 0x6000) || (decide (0x7000 ≤ low) && decide (low < 0x8000) && b)) := by
  cases b with
  | false =>
    simp only [Bool.and_false, Bool.or_false, ← Bool.decide_and, decide_eq_decide]
    omega
  | true =>
    simp only [Bool.and_true, ← Bool.decide_and, ← Bool.decide_or, decide_eq_decide]
    omega

theorem vaultRange {mibs : Nat} (h : mibs ≤ 65536) : (decide (low < 2 ^ 36) && decide (low / 2 ^ 20 % 2 ^ 16 < mibs)) = decide (low < mibs * 2 ^ 20) := by
  rw [← Bool.decide_and, decide_eq_decide]
  omega

end

/-- What is asked beside a range may use the range. -/
theorem decide_and_congr {p : Prop} [Decidable p] {a b : Bool} (h : p → a = b) : (decide p && a) = (decide p && b) := by
  by_cases hp : p
  · rw [h hp]
  · rw [decide_eq_false hp, Bool.false_and, Bool.false_and]

theorem inGrid_eq (s : State) (a : Nat) {addr : Word} (small : untagged addr < 2 ^ 48) :
    s.inGrid a (addr.extractLsb' 16 32) = (!isCore a && (s.grid? (s.tile a).handle).any fun g =>
      decide (untagged addr / 2 ^ 32 < g.desc.gcnt) && decide (untagged addr / 2 ^ 16 % 2 ^ 16 < g.desc.gsz)) := by
  have gang : untagged addr / 2 ^ 32 % 2 ^ 16 = untagged addr / 2 ^ 32 := by omega
  rw [inGrid, rankOf_extract, gangOf_extract, gang]
  cases s.grid? (s.tile a).handle <;> rfl

theorem podSpace_eq (s : State) (vd : Nat) {module : Nat} (small : module < 2 ^ 6) :
    (match s.podPartner vd (module % 2 ^ 6) with
      | some p => module % 2 ^ 6 != s.moduleNo || s.spaceValid p.1 p.2
      | none => false) =
    (s.mcrN (0x10000 + 512 * vd + 128 + 4 * module) 4 / 256 % 2 == 1 && (module != s.moduleNo ||
      s.spaceValid (s.mcrN (0x10000 + 512 * vd + 128 + 4 * module) 4 % 256) (s.mcrN (0x10000 + 512 * vd + 128 + 4 * module) 4 / 65536))) := by
  have entry : s.vdN vd (128 + 4 * module) 4 = s.mcrN (0x10000 + 512 * vd + 128 + 4 * module) 4 :=
    congrArg (s.mcrN · 4) (Nat.add_assoc ..).symm
  rw [Nat.mod_eq_of_lt small, podPartner, entry]
  by_cases partner : s.mcrN (0x10000 + 512 * vd + 128 + 4 * module) 4 / 256 % 2 = 1
  · simp only [if_pos partner, beq_iff_eq.2 partner, Bool.true_and]
  · simp only [if_neg partner, beq_eq_false_iff_ne.2 partner, Bool.false_and]

/-- Condition 1 of R137, space by space. -/
theorem addressOk_eq_order1 (s : State) (a th : Nat) (addr : Word) (n : Nat) (u : Use) : s.addressOk a th addr n u = order1 s a th addr n u := by
  unfold addressOk
  rw [tagOf_eq, order1, ← untagged]
  split
  next at_ =>
    simp only [at_, fieldOf_top addr (lo := 16) (n := 44) rfl, fieldOf_eq addr (lo := 0) (n := 16) (by decide), Nat.reduceBEq,
      Bool.true_and, Bool.false_and, Bool.or_false]
    have h := padRange (untagged addr) (u.read && ((n == 4 || n == 8) && (u.fe || (u.plain && !u.write))))
    simpa only [Bool.and_assoc] using h
  next at_ =>
    simp only [at_, fieldOf_top addr (lo := 48) (n := 12) rfl, fieldOf_eq addr (lo := 0) (n := 16) (by decide), Nat.reduceBEq, Bool.true_and,
      Bool.false_and, Bool.or_false, Bool.false_or, Bool.and_assoc]
    exact decide_and_congr fun small => by rw [inGrid_eq s a small, pow_zero, Nat.div_one]
  next at_ =>
    simp only [at_, fieldOf_top addr (lo := 36) (n := 24) rfl, fieldOf_eq addr (lo := 20) (n := 16) (by decide), Nat.reduceBEq,
      Bool.true_and, Bool.false_and, Bool.or_false, Bool.false_or]
    exact vaultRange _ (s.plenOf_le a)
  next at_ =>
    simp only [at_, fieldOf_top addr (lo := 56) (n := 4) rfl, Nat.reduceBEq, Bool.true_and, Bool.false_and, Bool.or_false, Bool.false_or]
    rfl
  next at_ =>
    simp only [at_, fieldOf_top addr (lo := 56) (n := 4) rfl, fieldOf_eq addr (lo := 50) (n := 6) (by decide), Nat.reduceBEq, Bool.true_and,
      Bool.false_and, Bool.or_false, Bool.false_or, Bool.and_assoc]
    exact decide_and_congr fun small => podSpace_eq s (s.vdOf a) (by omega)
  next at_ =>
    simp only [at_, fieldOf_top addr (lo := 24) (n := 36) rfl, Nat.reduceBEq, Bool.true_and, Bool.false_and, Bool.false_or]
    rfl
  next n0 n1 n2 n4 n5 n12 =>
    simp only [beq_eq_false_iff_ne.2 n0, beq_eq_false_iff_ne.2 n1, beq_eq_false_iff_ne.2 n2, beq_eq_false_iff_ne.2 n4, beq_eq_false_iff_ne.2 n5,
      beq_eq_false_iff_ne.2 n12, Bool.false_and, Bool.or_false]

/-- At an address that condition 1 lets pass, the spaces without full/empty bits are those outside the pads and the vaults. -/
theorem hasFe_eq {s : State} {a th : Nat} {addr : Word} {n : Nat} {u : Use} (ok : order1 s a th addr n u = true) :
    (!hasFe addr) = decide (0x7000 ≤ addr.toNat ∧ ¬(2 ^ 60 ≤ addr.toNat ∧ addr.toNat < 3 * 2 ^ 60)) := by
  unfold hasFe
  rw [tagOf_eq]
  split
  next at_ =>
    have low : untagged addr = addr.toNat := by rw [untagged]; omega
    simp only [order1, at_, Nat.reduceBEq, Bool.true_and, Bool.false_and, Bool.or_false, Bool.or_eq_true, Bool.and_eq_true, decide_eq_true_iff] at ok
    rw [fieldOf_eq addr (by decide), low, ← decide_not, decide_eq_decide]
    rw [← untagged, low] at ok
    omega
  next at_ => rw [Bool.not_true, eq_comm, decide_eq_false_iff_not]; omega
  next at_ => rw [Bool.not_true, eq_comm, decide_eq_false_iff_not]; omega
  next n0 n1 n2 =>
    rw [Bool.not_false, eq_comm, decide_eq_true_iff]
    simp only [← ne_eq, imp_false] at n0 n1 n2
    omega

/-- Conditions 1 to 3 of R137 in their order. -/
theorem checkAddress_eq (s : State) (addr : Word) (n : Nat) (u : Use) :
    s.checkAddress s.cur.1 s.cur.2 addr n u = (orderFault s addr n u).map fun cause => (cause, addr) := by
  unfold checkAddress orderFault
  rw [addressOk_eq_order1]
  by_cases ok : order1 s s.cur.1 s.cur.2 addr n u = true
  · have marked : (u.fe && !hasFe addr) = decide (u.fe = true ∧ 0x7000 ≤ addr.toNat ∧ ¬(2 ^ 60 ≤ addr.toNat ∧ addr.toNat < 3 * 2 ^ 60)) := by
      rw [hasFe_eq ok, Bool.decide_and (u.fe = true), Bool.decide_eq_true]
    simp only [ok, marked, bne_iff_ne, Bool.not_true, Bool.false_eq_true, if_false, decide_eq_true_iff,
      apply_ite (Option.map _), Option.map_some, Option.map_none]
  · simp only [ok, Bool.not_false, if_true, Option.map_some]

end State

/-! ### An access that fails one of them -/

section
variable {s : State} {addr : Word} {n : Nat} {u : Use}

theorem Op.checkAddress_fault {cause : BitVec 8} (h : orderFault s addr n u = some cause) : Op.checkAddress addr n u s = .error (.trap cause addr) :=
  Op.checkAddress_trap (by rw [State.checkAddress_eq, h]; rfl)

/-- WAITF and CLRF ask for condition 1 to 3 alone. -/
theorem Op.syncAddress_fe (ordered : Bool) (fe : u.fe = true) : Op.syncAddress ordered addr n u s = Op.checkAddress addr n u s := by
  have allowed : Op.require (State.syncSpace ordered addr || u.fe) 0x03 addr s = .ok ((), s) := by rw [fe, Bool.or_true]; rfl
  exact Op.bind_ok allowed

end

section
variable {i : Instr} {c : Chain} {x y : RegNum} {o : Word} {n : Nat} {b : Bool} {s : State} {cause : BitVec 8}

theorem load_faults (form : loadOf i = some (c, x, y, o, n, b)) (h : s.admits {} c = true) (hr : s.atHand [.g y] [.g x] = true)
    (unhurried : plainly s c = true) {addr : Word} (at_ : (s.src y).1 + o * BitVec.ofNat 64 n = addr)
    (fault : orderFault (s.src y).2 addr n Use.load = some cause) : exec i s = .next (s.trapHere cause addr) := by
  subst at_
  obtain ⟨-, outstanding, strict⟩ := plainly_iff.1 unhurried
  have order : Op.memOrder c s = .ok ((), s) := Op.memOrder_ok (by rw [outstanding, List.isEmpty_nil, Bool.or_true])
  rw [exec_loadOf form, issue_admitted h]
  unfold loadG
  refine Op.run_trap (Op.claiming_trap ?_)
  rw [Op.addresses hr order, Op.bind_get, Op.isRelaxed_of_clear _ strict]
  exact Op.bind_error (Op.checkAddress_fault fault)

theorem store_faults (form : storeOf i = some (c, x, y, o, n)) (h : s.admits {} c = true) (hr : s.atHand [.g y, .g x] [] = true)
    (unhurried : plainly s c = true) {addr : Word} (at_ : (s.src y).1 + o * BitVec.ofNat 64 n = addr)
    (fault : orderFault ((s.src y).2.src x).2 addr n Use.store = some cause) : exec i s = .next (s.trapHere cause addr) := by
  subst at_
  obtain ⟨-, outstanding, strict⟩ := plainly_iff.1 unhurried
  have order : Op.memOrder c s = .ok ((), s) := Op.memOrder_ok (by rw [outstanding, List.isEmpty_nil, Bool.or_true])
  rw [exec_storeOf form, issue_admitted h]
  unfold storeG
  refine Op.run_trap ?_
  rw [Op.addresses hr order, Op.bind_ok (Op.readG_ok x ((s.src_held y (State.admits_lt h)).trans (State.atHand_held hr))), Op.bind_get,
    Op.isRelaxed_of_clear _ strict]
  exact Op.bind_error (Op.checkAddress_fault fault)

end

/-- Settles O32: the model's conditions are those of the table, and each form checks them before its access goes anywhere. -/
theorem addressTraps : Obligations.AddressTraps := by
  refine ⟨?_, ?_, ?_, ?_, ?_, State.addressOk_eq_order1⟩
  · intro i c x y o n signed s cause form h hr unhurried addr fault
    exact load_faults form h hr unhurried rfl fault
  · intro i c x y o n s cause form h hr unhurried addr fault
    exact store_faults form h hr unhurried rfl fault
  · intro i c x y o n clear s cause form h hr addr fault
    rw [exec_feLoadOf form, issue_admitted h]
    unfold feLoad
    refine Op.run_trap (Op.claiming_trap ?_)
    rw [Op.bind_ok (Op.need_ok hr), Op.bind_ok (Op.address_ok o n (State.atHand_held hr))]
    exact Op.bind_error (Op.checkAddress_fault fault)
  · intro i c x y o n waits s cause form h hr addr fault
    have second := Op.readG_ok x ((s.src_held y (State.admits_lt h)).trans (State.atHand_held hr))
    rw [exec_feStoreOf form, issue_admitted h]
    refine Op.run_trap ?_
    cases waits with
    | true =>
      rw [if_pos rfl, feStoreWait, Op.bind_ok (Op.need_ok hr), Op.bind_ok (Op.address_ok o n (State.atHand_held hr)), Op.bind_ok second]
      exact Op.bind_error (Op.checkAddress_fault fault)
    | false =>
      rw [if_neg Bool.false_ne_true, feStoreNow, Op.bind_ok (Op.need_ok hr), Op.bind_ok (Op.address_ok o n (State.atHand_held hr)), Op.bind_ok second]
      exact Op.bind_error (Op.checkAddress_fault fault)
  · intro c y s cause h hr addr
    have read := Op.readG_ok y (State.atHand_held hr)
    refine ⟨fun fault => ?_, fun fault => ?_⟩
    · refine (issue_admitted h).trans (Op.run_trap ?_)
      rw [Op.bind_ok (Op.need_ok hr), Op.bind_ok read]
      exact Op.bind_error ((Op.syncAddress_fe false rfl).trans (Op.checkAddress_fault fault))
    · refine (issue_admitted h).trans (Op.run_trap ?_)
      rw [Op.bind_ok (Op.need_ok hr), Op.bind_ok read]
      exact Op.bind_error ((Op.syncAddress_fe false rfl).trans (Op.checkAddress_fault fault))

end Sys2Proof.Machine
end

section
/-! Full/empty accesses (R165, R166). Such an access parks its thread and stands in its doubleword's list, and the bank serves it in the same step. What the
bank does commutes with the parking, and the completion of the instruction undoes that. -/

namespace Sys2Proof.Machine

open Sys2Proof.Claims

/-! ### Changes of different tiles and threads -/

theorem Tab.set_comm {α : Type} (l : List (Nat × α)) {m n : Nat} (ne : m ≠ n) (v w : α) :
    Tab.set (Tab.set l m v) n w = Tab.set (Tab.set l n w) m v := by
  induction l with
  | nil =>
    obtain lt | gt := Nat.lt_or_gt_of_ne ne
    · simp only [Tab.set, lt, lt.not_gt, ne.symm, if_true, if_false]
    · simp only [Tab.set, gt, gt.not_gt, ne, if_true, if_false]
  | cons p t ih =>
    obtain ⟨k, u⟩ := p
    grind [Tab.set]

theorem vset_comm {α : Type} {n : Nat} (v : Vector α n) {i j : Nat} (ne : i ≠ j) (a b : α) : vset (vset v i a) j b = vset (vset v j b) i a := by
  ext k
  simp only [vset, Vector.getElem_setIfInBounds]
  grind

namespace State

theorem modTile_comm (s : State) {a b : Nat} (ne : a ≠ b) (f g : Tile → Tile) : (s.modTile a f).modTile b g = (s.modTile b g).modTile a f := by
  simp only [modTile, setTile, tile, Tab.get?_set_ne _ _ ne, Tab.get?_set_ne _ _ ne.symm, Tab.set_comm _ ne]

end State

/-! ### A thread that waits -/

/-- What a thread keeps while its instruction waits. -/
structure Waits where
  park : Option Park
  next : Word
  popped : List (RegNum × VReg)
  held : List (RegNum × VReg)
  claims : List RegNum

namespace Waits

def onThread (w : Waits) (t : Thread) : Thread :=
  { t with park := w.park, parkNext := w.next, popped := w.popped, held := w.held, claims := w.claims }

def onTile (w : Waits) (th : Nat) (x : Tile) : Tile := { x with threads := vset x.threads th (w.onThread (vget x.threads th {})) }

theorem loopStep0 (w : Waits) (t : Thread) (next : Word) (taken : Bool) :
    (w.onThread t).loopStep0 next taken = (w.onThread (t.loopStep0 next taken).1, (t.loopStep0 next taken).2) := by
  have entry : (w.onThread t).loop0 = t.loop0 := rfl
  have depth : (w.onThread t).ldepth = t.ldepth := rfl
  unfold Thread.loopStep0
  rw [entry, depth]
  split
  · rfl
  · split <;> rfl

theorem loopStep (w : Waits) (t : Thread) (next : Word) (taken : Bool) :
    (w.onThread t).loopStep next taken = (w.onThread (t.loopStep next taken).1, (t.loopStep next taken).2) := by
  have entry : (w.onThread t).loop1 = t.loop1 := rfl
  have depth : (w.onThread t).ldepth = t.ldepth := rfl
  unfold Thread.loopStep
  rw [entry, depth]
  split
  · exact w.loopStep0 t next taken
  · split
    · rfl
    · rfl
    · exact w.loopStep0 (t.setLoop1 { t.loop1 with valid := false }) next taken

/-- Completion forgets it. -/
theorem complete (w : Waits) (t : Thread) (next : Word) (taken : Bool) : (w.onThread t).complete next taken = t.complete next taken := by
  rw [Thread.complete, loopStep]
  rfl

end Waits

namespace State

/-- A thread of a state waits. -/
def waits (s : State) (a th : Nat) (w : Waits) : State := s.modThread a th w.onThread

section
variable (s : State) (a th : Nat) (w : Waits)

theorem waits_eq : s.waits a th w = s.modTile a (w.onTile th) := rfl

/-- A part of a tile that is not of its threads. -/
theorem tile_modThread_part {α : Type} {part : Tile → α} (outside : ∀ (x : Tile) l, part { x with threads := l } = part x) (b : Nat)
    (f : Thread → Thread) : part ((s.modThread a th f).tile b) = part (s.tile b) := by
  by_cases same : a = b
  · rw [same, modThread_eq, tile_modTile, outside]
  · rw [modThread_eq, tile_modTile_ne _ _ same]

theorem tile_waits {α : Type} {part : Tile → α} (outside : ∀ (x : Tile) l, part { x with threads := l } = part x) (b : Nat) :
    part ((s.waits a th w).tile b) = part (s.tile b) := s.tile_modThread_part a th outside b w.onThread

theorem shadows_waits (b key : Nat) : (s.waits a th w).shadows b key = s.shadows b key := by
  rw [shadows, tile_waits (part := Tile.mark) s a th w (fun _ _ => rfl), shadows]

theorem overlayOf_waits (b : Nat) : (s.waits a th w).overlayOf b = s.overlayOf b := by
  have mark := s.tile_waits a th w (part := Tile.mark) (fun _ _ => rfl) b
  have handle := s.tile_waits a th w (part := Tile.handle) (fun _ _ => rfl) b
  have vtn := s.tile_waits a th w (part := Tile.vtn) (fun _ _ => rfl) b
  unfold overlayOf
  dsimp only
  rw [mark, handle, vtn]
  rfl

theorem poisonedAs_waits (b key n : Nat) : (s.waits a th w).poisonedAs b key n = s.poisonedAs b key n := by
  have each (d : Nat) : (s.waits a th w).poisonedDword b d = s.poisonedDword b d := by
    unfold poisonedDword
    rw [overlayOf_waits, shadows_waits]
    rfl
  rw [poisonedAs, funext each, poisonedAs]

theorem modTile_waits {f : Tile → Tile} (keeps : ∀ x, f (w.onTile th x) = w.onTile th (f x)) (b : Nat) :
    (s.waits a th w).modTile b f = (s.modTile b f).waits a th w := by
  by_cases same : a = b
  · rw [same, waits_eq, waits_eq, modTile_modTile, modTile_modTile, funext keeps]
  · exact s.modTile_comm same _ _

theorem modThread_waits (h4 : th < 4) {f : Thread → Thread} (keeps : ∀ t, f (w.onThread t) = w.onThread (f t)) (b u : Nat) :
    (s.waits a th w).modThread b u f = (s.modThread b u f).waits a th w := by
  refine modTile_waits s a th w (fun x => ?_) b
  by_cases same : th = u
  · subst same
    simp only [Waits.onTile, vget_vset_self _ _ _ _ h4, vset_vset, keeps]
  · simp only [Waits.onTile, vget_vset_ne _ _ _ same, vget_vset_ne _ _ _ (Ne.symm same), vset_comm _ same]

theorem markWords_waits (key n : Nat) (b : Bool) : (s.waits a th w).markWords key n b = (s.markWords key n b).waits a th w := by
  unfold markWords wordsOf
  split <;> rfl

theorem digest_waits (cx : Bool) (addr : Word) (n v : Nat) (b : Nat) :
    (s.waits a th w).digest b cx addr n v = (s.digest b cx addr n v).waits a th w := by
  have own : (s.waits a th w).ownPad b addr = s.ownPad b addr := by rw [ownPad, tile_waits (part := Tile.vtn) s a th w (fun _ _ => rfl), ownPad]
  unfold digest
  rw [own]
  split
  · rfl
  · exact modTile_waits s a th w (f := fun t => { t with
      digest := (digestWords addr.toNat n v).foldl (fun d w => addTerm d w.1 w.2.1 w.2.2) t.digest }) (fun _ => rfl) b

theorem rollWhere_waits (h4 : th < 4) (p : Watch → Bool) : (s.waits a th w).rollWhere p = (s.rollWhere p).waits a th w := by
  unfold rollWhere
  show (s.watches.filter p).foldl _ _ = _
  generalize s.watches.filter p = ws
  induction ws generalizing s with
  | nil => rfl
  | cons x ws ih => rw [List.foldl_cons, modThread_waits s a th w h4 (f := fun t => { t with rollback := true }) (fun _ => rfl), ih, List.foldl_cons]

theorem storeAs_waits (h4 : th < 4) {b key : Nat} (plain : s.shadows b key = false) (n v : Nat) :
    (s.waits a th w).storeAs b key n v = (s.storeAs b key n v).waits a th w := by
  rw [storeAs, shadows_waits, plain, if_neg Bool.false_ne_true, storeAs, plain, if_neg Bool.false_ne_true]
  exact rollWhere_waits ((s.pokeN key n v).unpoison key n) a th w h4 _

/-- A push that is not on its way at once is one of the tile. -/
theorem writeG_waits (h4 : th < 4) (b u : Nat) (x : RegNum) (v : Word) {lat : Nat} (later : lat ≠ 0) :
    (s.waits a th w).writeG b u x v lat = (s.writeG b u x v lat).waits a th w := by
  have pushed (to_ : PushTo) (v : VReg) : (s.waits a th w).pushLater b u to_ v lat = (s.pushLater b u to_ v lat).waits a th w := by
    unfold pushLater
    dsimp only
    rw [if_neg later, if_neg later]
    exact modTile_waits s a th w (f := fun t => t.addPush _) (fun _ => rfl) b
  unfold writeG
  cases regClass x with
  | general k => exact modThread_waits s a th w h4 (f := fun t => t.setG k v) (fun _ => rfl) b u
  | shared r => exact modTile_waits s a th w (f := fun t => t.addChange _) (fun _ => rfl) b
  | ln | lnf | lp | lpf | stream => exact pushed _ _
  | zero | inbox | tid | vtn | rank | gsize | gidx | none => rfl

theorem finishThread_waits (h4 : th < 4) : (s.waits a th w).finishThread a th = s.modThread a th fun t => t.complete w.next false := by
  rw [waits, finishThread, modThread_modThread _ _ _ _ _ h4]
  exact congrArg (s.modThread a th) (funext fun t => w.complete t _ _)

end

/-- A thread parked on its instruction. -/
theorem parkMe_eq (s : State) (c : Chain) (p : Park) :
    s.parkMe c p = s.waits s.cur.1 s.cur.2 ⟨some p, s.after c, s.me.popped ++ s.me.held, [], s.me.claims⟩ := modMe_congr rfl

theorem parkClaim_eq (s : State) (c : Chain) (p : Park) (x : RegNum) (h4 : s.cur.2 < 4) :
    (s.parkMe c p).modMe (Op.claim x) = s.waits s.cur.1 s.cur.2 ⟨some p, s.after c, s.me.popped ++ s.me.held, [], (Op.claim x s.me).claims⟩ :=
  (modThread_modThread _ _ _ _ _ h4).trans (modMe_congr rfl)

end State

/-! ### The list of a doubleword -/

theorem splitFirst_none {α : Type} {p : α → Bool} {l : List α} (h : ∀ x ∈ l, p x = false) : splitFirst p l = none := by
  induction l with
  | nil => rfl
  | cons x l ih =>
    obtain ⟨hx, hl⟩ := List.forall_mem_cons.1 h
    rw [splitFirst, hx, if_neg Bool.false_ne_true, ih hl]
    rfl

theorem splitFirst_last {α : Type} {p : α → Bool} {l : List α} {x : α} (h : ∀ y ∈ l, p y = false) (hx : p x = true) :
    splitFirst p (l ++ [x]) = some (l, x, []) := by
  induction l with
  | nil => simp [splitFirst, hx]
  | cons y l ih =>
    obtain ⟨hy, hl⟩ := List.forall_mem_cons.1 h
    rw [List.cons_append, splitFirst, hy, if_neg Bool.false_ne_true, ih hl]
    rfl

namespace State

section
variable {s : State} {key : Nat}

/-- A request that waits somewhere else is passed over. -/
theorem passes_of_noFe (alone : noFe s key = true) (ready : FeReq → Bool) :
    ∀ q ∈ s.fe, (dwordOf q.key == dwordOf key && ready q) = false := by
  intro q own
  simp only [noFe, Bool.not_eq_true', List.any_eq_false] at alone
  rw [Bool.eq_false_iff.2 (alone q own), Bool.false_and]

theorem feScan_alone (alone : noFe s key = true) (fuel : Nat) : s.feScan key fuel = s := by
  cases fuel with
  | zero => rfl
  | succ n => rw [feScan, splitFirst_none (passes_of_noFe alone _)]

theorem feRescan_alone (alone : noFe s key = true) : s.feRescan key = s := feScan_alone alone _

/-- The only request of a doubleword is served as it comes, where the words are as it asks. -/
theorem feRequest_served {r : FeReq} (alone : noFe s r.key = true) (ready : s.feReady r.key r.size r.kind = true) (left : (s.feServe r).fe = s.fe) :
    s.feRequest r = s.feServe r := by
  have found : splitFirst (fun q => dwordOf q.key == dwordOf r.key && feReady { s with fe := s.fe ++ [r] } q.key q.size q.kind) (s.fe ++ [r])
      = some (s.fe, r, []) := splitFirst_last (passes_of_noFe alone _) (by rw [beq_self_eq_true, Bool.true_and]; exact ready)
  have rest : noFe (s.feServe r) r.key = true := by rw [noFe, left]; exact alone
  unfold feRequest feRescan
  rw [feScan]
  dsimp only
  rw [found]
  dsimp only
  rw [List.append_nil]
  exact feScan_alone rest _

end

section
variable (s : State)

theorem fe_digest (a : Nat) (cx : Bool) (addr : Word) (n v : Nat) : (s.digest a cx addr n v).fe = s.fe := by
  obtain ⟨_, -, e | e⟩ := s.digest_eq a cx addr n v <;> rw [e]
  rfl

theorem fe_storeAs (a key n v : Nat) : (s.storeAs a key n v).fe = s.fe := by
  obtain ⟨_, p, e, ⟨_, _, _, _, _, rfl⟩, -⟩ := s.storeAs_cases a key n v
  obtain ⟨tiles, r⟩ := rollWhere_eq _ p
  rw [e, r]
  rfl

theorem fe_writeG (a th : Nat) (x : RegNum) (v : Word) {lat : Nat} (later : lat ≠ 0) : (s.writeG a th x v lat).fe = s.fe := by
  unfold writeG pushLater
  dsimp only
  simp only [if_neg later]
  cases regClass x <;> rfl

/-- Marking words changes full bits alone. -/
theorem mark_eq (key n : Nat) (b : Bool) : mark s key n b = { s with full := (mark s key n b).full } := by
  unfold mark
  dsimp only
  split <;> rfl

theorem markWords_eq_mark {n : Nat} (words : n = 4 ∨ n = 8) (key : Nat) (b : Bool) : s.markWords key n b = mark s key n b := by
  obtain rfl | rfl := words <;> rfl

theorem homeTurns_congr {t : State} {a : Nat} (key : Nat) (h : t.cyc a = s.cyc a) : t.homeTurns a key = s.homeTurns a key := by
  unfold homeTurns
  rw [h]

theorem homeTurns_ne_zero (a key : Nat) : s.homeTurns a key ≠ 0 := by
  unfold homeTurns
  dsimp only
  cases regionOf key with
  | tile b =>
    dsimp only
    split_ifs <;> omega
  | _ => dsimp only; omega

end

/-- What a bank does for a load whose words are full. -/
theorem feServe_load {s : State} {a th : Nat} {w : Waits} {key n : Nat} {clear : Bool} {addr : Word} {x : RegNum} (words : n = 4 ∨ n = 8) (h4 : th < 4)
    (clean : s.poisonedAs a key n = false) (plain : s.shadows a key = false) :
    (s.waits a th w).feServe { key := key, size := n, kind := .load clear, addr := addr, dest := x, agent := a, thread := th } =
      ((if clear then mark s key n false else s).writeG a th x (BitVec.ofNat 64 (s.readN key n)) (s.homeTurns a key)).modThread a th fun t =>
        t.complete w.next false := by
  have marked : (if clear && !(s.waits a th w).shadows a key then (s.waits a th w).markWords key n false else s.waits a th w)
      = (if clear then mark s key n false else s).waits a th w := by
    rw [shadows_waits, plain, Bool.not_false, Bool.and_true]
    split
    · rw [markWords_waits, markWords_eq_mark _ words]
    · rfl
  have turns (t : State) : t.homeTurns a key ≠ 0 := t.homeTurns_ne_zero a key
  have same : (if clear then mark s key n false else s).homeTurns a key = s.homeTurns a key := by
    split
    · exact homeTurns_congr _ key (by rw [mark_eq]; rfl)
    · rfl
  unfold feServe
  dsimp only
  rw [poisonedAs_waits, clean, if_neg Bool.false_ne_true, marked, writeG_waits _ _ _ _ h4 _ _ _ _ (turns _), finishThread_waits _ _ _ _ h4, viewN,
    shadows_waits, plain, if_neg Bool.false_ne_true, ← same]
  rfl

theorem usePage_modTile (s : State) (a : Nat) (addr : Word) {f : Tile → Tile} (vd : (f (s.tile a)).vd = (s.tile a).vd)
    (handle : (f (s.tile a)).handle = (s.tile a).handle) : (s.modTile a f).usePage a addr = (s.usePage a addr).modTile a f := by
  have sameVd : (s.modTile a f).vdOf a = s.vdOf a := by
    unfold vdOf
    rw [tile_modTile, vd]
    rfl
  have sameSpace : (s.modTile a f).dataSpace a = s.dataSpace a := by
    unfold dataSpace
    rw [tile_modTile, handle]
    rfl
  have leaf (st vd space va : Nat) : (s.modTile a f).useLeaf st vd space va = (s.useLeaf st vd space va).modTile a f := by
    have found : (s.modTile a f).tlbFind st vd space va = s.tlbFind st vd space va := rfl
    unfold useLeaf
    rw [found]
    cases s.tlbFind st vd space va <;> rfl
  have module : (s.modTile a f).moduleNo = s.moduleNo := rfl
  have partner (vd m : Nat) : (s.modTile a f).podPartner vd m = s.podPartner vd m := rfl
  unfold usePage
  rw [sameVd, sameSpace, module, partner]
  split
  · exact leaf ..
  · split
    · cases s.podPartner (s.vdOf a) (fieldOf addr 50 6) with
      | some p => exact leaf ..
      | none => rfl
    · rfl
  · rfl

theorem digest_usePage (s : State) (a : Nat) (cx : Bool) (addr : Word) (n v : Nat) :
    (s.digest a cx addr n v).usePage a addr = (s.usePage a addr).digest a cx addr n v := by
  unfold digest ownPad
  rw [usePage_tile]
  split
  · rfl
  · exact usePage_modTile s a addr rfl rfl

theorem shadows_digest (s : State) (a : Nat) (cx : Bool) (addr : Word) (n v key : Nat) : (s.digest a cx addr n v).shadows a key = s.shadows a key := by
  obtain ⟨f, counts, e | e⟩ := s.digest_eq a cx addr n v
  · rw [e]
  · obtain ⟨d, c⟩ := counts (s.tile a)
    rw [e, shadows, tile_modTile, c, shadows]

theorem shadows_storeAs (s : State) (a key n v : Nat) : (s.storeAs a key n v).shadows a key = s.shadows a key := by
  obtain ⟨_, p, e, ⟨_, _, _, _, _, rfl⟩, -⟩ := s.storeAs_cases a key n v
  rw [e, shadows, rollWhere_tile (part := Tile.mark) (fun _ _ => rfl), shadows]
  rfl

/-- What a bank does for a store whose words are empty. -/
theorem feServe_store {s : State} {a th : Nat} {w : Waits} {key n : Nat} {cx : Bool} {addr data : Word} (words : n = 4 ∨ n = 8) (h4 : th < 4)
    (plain : s.shadows a key = false) :
    (s.waits a th w).feServe { key := key, size := n, kind := .store, addr := addr, data := data, cx := cx, agent := a, thread := th } =
      (mark ((s.digest a cx addr n data.toNat).storeAs a key n data.toNat) key n true).modThread a th fun t => t.complete w.next false := by
  have inPlace : (s.digest a cx addr n data.toNat).shadows a key = false := (shadows_digest ..).trans plain
  have after : ((s.digest a cx addr n data.toNat).storeAs a key n data.toNat).shadows a key = false := (shadows_storeAs ..).trans inPlace
  unfold feServe
  dsimp only
  rw [digest_waits, storeAs_waits _ _ _ _ h4 inPlace, shadows_waits, after, if_neg Bool.false_ne_true, markWords_waits, finishThread_waits _ _ _ _ h4,
    markWords_eq_mark _ words]

end State

/-! ### An access at its home -/

theorem homeOf_ok {s : State} {addr : Word} {use : Use} {key : Nat} (home : goesTo s addr use key = true) : homeOf addr use s = .ok (.at key, used s addr) := by
  have found : Op.lift (s.resolve s.cur.1 s.cur.2 addr use) s = .ok (.mem key, s) := by rw [goesTo_iff.1 home]; rfl
  exact (Op.bind_get _).trans (Op.bind_ok found)

theorem State.feReady_load {s : State} {key n : Nat} {clear : Bool} (words : n = 4 ∨ n = 8) (full : wordsAre s key n true = true) :
    s.feReady key n (.load clear) = true := by
  obtain rfl | rfl := words
  · simpa [wordsAre, feReady, wordsOf] using full
  · simpa [wordsAre, feReady, wordsOf] using full

theorem State.feReady_store {s : State} {key n : Nat} (words : n = 4 ∨ n = 8) (empty : wordsAre s key n false = true) : s.feReady key n .store = true := by
  obtain rfl | rfl := words
  · simpa [wordsAre, feReady, wordsOf] using empty
  · simpa [wordsAre, feReady, wordsOf] using empty

/-- The completion that a bank gives a thread is the one that the instruction takes. -/
theorem State.fell_eq {s t : State} {c : Chain} (cur : t.cur = s.cur) (pc : t.me.pc = s.me.pc) :
    t.modThread s.cur.1 s.cur.2 (fun r => r.complete (s.after c) false) = t.fell c := by
  rw [fell, went, modMe, cur, after, after, pc]

namespace State

section
variable {s : State} {a th key n : Nat} {w : Waits} {addr data : Word} {cx clear : Bool} {x : RegNum} (words : n = 4 ∨ n = 8) (h4 : th < 4)
  (plain : s.shadows a key = false) (alone : noFe s key = true)
include words h4 plain alone

/-- A load of full words, alone in its list. -/
theorem feRequest_load (clean : s.poisonedAs a key n = false) (full : wordsAre s key n true = true) :
    (s.waits a th w).feRequest { key := key, size := n, kind := .load clear, addr := addr, dest := x, agent := a, thread := th } =
      ((if clear then mark s key n false else s).writeG a th x (BitVec.ofNat 64 (s.readN key n)) (s.homeTurns a key)).modThread a th fun t =>
        t.complete w.next false := by
  have served := feServe_load (w := w) (addr := addr) (x := x) (clear := clear) words h4 clean plain
  have marked : (if clear then mark s key n false else s).fe = s.fe := by
    split
    · rw [mark_eq]
    · rfl
  have left := (fe_writeG _ a th x (BitVec.ofNat 64 (s.readN key n)) (s.homeTurns_ne_zero a key)).trans marked
  exact (feRequest_served alone (feReady_load (clear := clear) words full) ((congrArg State.fe served).trans left)).trans served

/-- A store to empty words, alone in its list. -/
theorem feRequest_store (empty : wordsAre s key n false = true) :
    (s.waits a th w).feRequest { key := key, size := n, kind := .store, addr := addr, data := data, cx := cx, agent := a, thread := th } =
      (mark ((s.digest a cx addr n data.toNat).storeAs a key n data.toNat) key n true).modThread a th fun t => t.complete w.next false := by
  have served := feServe_store (w := w) (addr := addr) (cx := cx) (data := data) words h4 plain
  have left : (mark ((s.digest a cx addr n data.toNat).storeAs a key n data.toNat) key n true).fe = s.fe := by
    rw [mark_eq]
    exact (fe_storeAs ..).trans (fe_digest ..)
  exact (feRequest_served alone (feReady_store words empty) ((congrArg State.fe served).trans left)).trans served

end

end State

section
variable {i : Instr} {c : Chain} {x y : RegNum} {o : Word} {n : Nat} {b : Bool} {s : State} {key : Nat}

/-- A load of full words: the request that it parks with is served in its step. -/
theorem feLoad_served (form : feLoadOf i = some (c, x, y, o, n, b)) (h : s.admits settled c = true) (hr : s.atHand [.g y] [.g x] = true) {u : State}
    {addr : Word} (read : (s.src y).2 = u) (at_ : (s.src y).1 + o * BitVec.ofNat 64 n = addr)
    (ok : addressed u addr n { read := true, write := b, fe := true, plain := false } = true)
    (home : goesTo u addr { read := true, write := b, fe := true, plain := false } key = true) :
    exec i s = .next (((used u addr).parkMe c (.fullEmpty addr) |>.modMe (Op.claim x)).feRequest
      { key := key, size := n, kind := .load b, addr := addr, dest := x, agent := (used u addr).cur.1, thread := (used u addr).cur.2 }) := by
  subst read at_
  have checked := Op.checkAddress_ok (addressed_iff.1 ok)
  rw [exec_feLoadOf form, issue_admitted h]
  unfold feLoad
  refine Op.run_done (Op.claiming_done ?_)
  rw [Op.bind_ok (Op.need_ok hr), Op.bind_ok (Op.address_ok o n (State.atHand_held hr))]
  refine (Op.bind_ok checked).trans ((Op.bind_get _).trans ((Op.bind_ok (homeOf_ok home)).trans ?_))
  rfl

/-- A part of a state that is not of the replacement trees. -/
theorem used_part {α : Type} {part : State → α} (outside : ∀ (t : State) trees, part { t with tlbPlru := trees } = part t) (u : State) (addr : Word) :
    part (used u addr) = part u := by
  obtain ⟨trees, e⟩ : ∃ trees, used u addr = { u with tlbPlru := trees } := u.usePage_eq u.cur.1 addr
  rw [e, outside]

theorem mark_cur (t : State) (key n : Nat) (b : Bool) : (mark t key n b).cur = t.cur := by rw [State.mark_eq]
theorem mark_me (t : State) (key n : Nat) (b : Bool) : (mark t key n b).me = t.me := by rw [State.mark_eq]; rfl

theorem State.dst_part {α : Type} {part : Thread → α} (rolled : ∀ t : Thread, part { t with rollback := true } = part t)
    (written : ∀ (t : Thread) k w, part (t.setG k w) = part t) (t : State) (x : RegNum) (v : Word) (lat : Nat) : part (t.dst x v lat).me = part t.me := by
  rw [State.me, State.dst_cur]
  exact State.writeG_part _ _ _ _ _ rolled _ _ written x

/-- What the bank leaves of a load of full words is its completion. -/
theorem feLoad_completes {u : State} {addr : Word} (words : n = 4 ∨ n = 8) (h4 : u.cur.2 < 4) (plain : u.shadows u.cur.1 key = false)
    (alone : noFe u key = true) (clean : u.poisonedAs u.cur.1 key n = false) (full : wordsAre u key n true = true) :
    ((u.parkMe c (.fullEmpty addr)).modMe (Op.claim x)).feRequest
        { key := key, size := n, kind := .load b, addr := addr, dest := x, agent := u.cur.1, thread := u.cur.2 } =
      ((if b then mark u key n false else u).dst x (BitVec.ofNat 64 (u.readN key n)) (u.homeTurns u.cur.1 key)).fell c := by
  have cur : (if b then mark u key n false else u).cur = u.cur := by split; exacts [mark_cur .., rfl]
  have me : (if b then mark u key n false else u).me = u.me := by split; exacts [mark_me .., rfl]
  rw [State.parkClaim_eq _ _ _ _ h4, State.feRequest_load words h4 plain alone clean full]
  have dst := congrArg (fun p : Nat × Nat =>
    (if b then mark u key n false else u).writeG p.1 p.2 x (BitVec.ofNat 64 (u.readN key n)) (u.homeTurns u.cur.1 key)) cur
  refine (congrArg (fun t : State => t.modThread _ _ _) dst.symm).trans (State.fell_eq ((State.dst_cur ..).trans cur) ?_)
  exact (State.dst_part (part := Thread.pc) (fun _ => rfl) (fun _ _ _ => rfl) _ _ _ _).trans (congrArg Thread.pc me)

/-- A store to empty words: so is its. -/
theorem feStoreWait_served (form : feStoreOf i = some (c, x, y, o, n, true)) (h : s.admits settled c = true) (hr : s.atHand [.g y, .g x] [] = true) {u : State}
    {addr : Word} (read : ((s.src y).2.src x).2 = u) (at_ : (s.src y).1 + o * BitVec.ofNat 64 n = addr)
    (ok : addressed u addr n { write := true, fe := true, plain := false, kind := .store } = true)
    (home : goesTo u addr { write := true, fe := true, plain := false, kind := .store } key = true) :
    exec i s = .next (((used u addr).parkMe c (.fullEmpty addr)).feRequest
      { key := key, size := n, kind := .store, addr := addr, data := BitVec.ofNat 64 (((s.src y).2.src x).1.toNat % 256 ^ n)
        cx := ((used u addr).parkMe c (.fullEmpty addr)).me.cx, agent := (used u addr).cur.1, thread := (used u addr).cur.2 }) := by
  subst read at_
  have checked := Op.checkAddress_ok (addressed_iff.1 ok)
  rw [exec_feStoreOf form, if_pos rfl, issue_admitted h]
  unfold feStoreWait
  refine Op.run_done ?_
  rw [Op.bind_ok (Op.need_ok hr), Op.bind_ok (Op.address_ok o n (State.atHand_held hr)),
    Op.bind_ok (Op.readG_ok x ((s.src_held y (State.admits_lt h)).trans (State.atHand_held hr)))]
  refine (Op.bind_ok checked).trans ((Op.bind_get _).trans ((Op.bind_ok (homeOf_ok home)).trans ?_))
  rfl

theorem feStore_completes {u : State} {addr : Word} {d : Nat} (words : n = 4 ∨ n = 8) (small : d < 256 ^ n) (h4 : u.cur.2 < 4)
    (plain : u.shadows u.cur.1 key = false) (alone : noFe u key = true) (empty : wordsAre u key n false = true) :
    (u.parkMe c (.fullEmpty addr)).feRequest
        { key := key, size := n, kind := .store, addr := addr, data := BitVec.ofNat 64 d, cx := (u.parkMe c (.fullEmpty addr)).me.cx, agent := u.cur.1
          thread := u.cur.2 } =
      (mark (stored u addr key n d) key n true).fell c := by
  have cx : (u.parkMe c (.fullEmpty addr)).me.cx = u.me.cx := by
    rw [State.parkMe_eq]
    exact (congrArg Thread.cx (State.thread_modThread u u.cur.1 u.cur.2 (Waits.onThread _) h4)).trans rfl
  have number : (BitVec.ofNat 64 d).toNat = d := by
    rw [BitVec.toNat_ofNat]
    obtain rfl | rfl := words <;> omega
  rw [cx, State.parkMe_eq, State.feRequest_store words h4 plain alone empty, number]
  refine State.fell_eq ((mark_cur ..).trans (stored_cur ..)) ?_
  rw [mark_me]
  exact stored_me (part := Thread.pc) _ _ _ _ _ fun _ => rfl

/-- What STF and STFD do to a doubleword without a list. -/
theorem bank_fills {u : State} {addr : Word} {d : Nat} (words : n = 4 ∨ n = 8) (plain : u.shadows u.cur.1 key = false) (alone : noFe u key = true) :
    ((((u.digest u.cur.1 u.me.cx addr n d).usePage u.cur.1 addr).store key n d).markWords key n true).feRescan key =
      mark (stored (used u addr) addr key n d) key n true := by
  have inPlace : ((used u addr).digest (used u addr).cur.1 (used u addr).me.cx addr n d).shadows (used u addr).cur.1 key = false :=
    (State.shadows_digest ..).trans ((used_part (part := fun t => t.shadows t.cur.1 key) (fun _ _ => rfl) u addr).trans plain)
  have store : ((u.digest u.cur.1 u.me.cx addr n d).usePage u.cur.1 addr).store key n d = stored (used u addr) addr key n d := by
    rw [stored, State.storeAs, inPlace, if_neg Bool.false_ne_true, State.digest_usePage, used_cur, used_me, used]
  have left : (mark (stored (used u addr) addr key n d) key n true).fe = u.fe := by
    rw [State.mark_eq]
    exact (State.fe_storeAs ..).trans ((State.fe_digest ..).trans (used_part (part := State.fe) (fun _ _ => rfl) u addr))
  rw [store, State.markWords_eq_mark _ words, State.feRescan_alone (by rw [noFe, left]; exact alone)]

/-- STF and STFD store at once, and nothing waits for the words. -/
theorem feStoreNow_performed (form : feStoreOf i = some (c, x, y, o, n, false)) (h : s.admits settled c = true) (hr : s.atHand [.g y, .g x] [] = true)
    {u : State} {addr : Word} (read : ((s.src y).2.src x).2 = u) (at_ : (s.src y).1 + o * BitVec.ofNat 64 n = addr)
    (ok : addressed u addr n { write := true, fe := true, plain := false, parks := true, kind := .store } = true)
    (home : goesTo u addr { write := true, fe := true, plain := false, parks := true, kind := .store } key = true)
    (plain : u.shadows u.cur.1 key = false) (alone : noFe u key = true) :
    exec i s = .next ((mark (stored (used u addr) addr key n (((s.src y).2.src x).1.toNat % 256 ^ n)) key n true).fell c) := by
  have checked := Op.checkAddress_ok (addressed_iff.1 ok)
  have found : Op.lift (u.resolve u.cur.1 u.cur.2 addr { write := true, fe := true, plain := false, parks := true, kind := .store }) u = .ok (.mem key, u) := by
    rw [goesTo_iff.1 home]
    rfl
  rw [exec_feStoreOf form, if_neg Bool.false_ne_true, issue_admitted h]
  unfold feStoreNow
  refine Op.run_ok ?_
  rw [Op.bind_ok (Op.need_ok hr), Op.bind_ok (Op.address_ok o n (State.atHand_held hr)),
    Op.bind_ok (Op.readG_ok x ((s.src_held y (State.admits_lt h)).trans (State.atHand_held hr))), read, at_]
  refine (Op.bind_ok checked).trans ((Op.bind_get _).trans ((Op.bind_ok found).trans ?_))
  dsimp only
  rw [plain, if_neg Bool.false_ne_true]
  exact Op.bind_ok (congrArg (fun t => Except.ok ((), t)) (bank_fills (feStoreOf_size form) plain alone))

/-- Settles O10: what a bank does for a request does not depend on its thread's being parked, and the completion undoes the parking. -/
theorem fullEmptyResult : Obligations.FullEmptyResult := by
  refine ⟨?_, ?_⟩
  · intro i c x y o n clear s key form h hr u addr use ok home alone full clean plain
    have cur : u.cur = s.cur := s.src_cur y
    have h4 : (used u addr).cur.2 < 4 := by rw [used_cur, cur]; exact State.admits_lt h
    rw [← cur] at clean plain ⊢
    refine (feLoad_served form h hr rfl rfl ok home).trans (congrArg _ ((feLoad_completes (feLoadOf_size form) h4 ?_ ?_ ?_ ?_).trans ?_))
    · exact (used_part (part := fun t => t.shadows t.cur.1 key) (fun _ _ => rfl) u addr).trans plain
    · exact (used_part (part := fun t => noFe t key) (fun _ _ => rfl) u addr).trans alone
    · exact (used_part (part := fun t => t.poisonedAs t.cur.1 key n) (fun _ _ => rfl) u addr).trans clean
    · exact (used_part (part := fun t => wordsAre t key n true) (fun _ _ => rfl) u addr).trans full
    · have value := used_part (part := fun t => t.readN key n) (fun _ _ => rfl) u addr
      have turns := State.homeTurns_congr _ key (used_part (part := fun t => t.cyc u.cur.1) (fun _ _ => rfl) u addr)
      rw [value, used_cur, turns]
  · intro i c x y o n waits s key form h hr u addr use ok home alone empty plain
    have cur : u.cur = s.cur := (State.src_cur ..).trans (s.src_cur y)
    rw [← cur] at plain
    cases waits with
    | true =>
      have h4 : (used u addr).cur.2 < 4 := by rw [used_cur, cur]; exact State.admits_lt h
      have small := Nat.mod_lt ((s.src y).2.src x).1.toNat (show 0 < 256 ^ n by positivity)
      refine (feStoreWait_served form h hr rfl rfl ok home).trans (congrArg _ (feStore_completes (feStoreOf_size form) small h4 ?_ ?_ ?_))
      · exact (used_part (part := fun t => t.shadows t.cur.1 key) (fun _ _ => rfl) u addr).trans plain
      · exact (used_part (part := fun t => noFe t key) (fun _ _ => rfl) u addr).trans alone
      · exact (used_part (part := fun t => wordsAre t key n false) (fun _ _ => rfl) u addr).trans (empty rfl)
    | false => exact feStoreNow_performed form h hr rfl rfl ok home plain alone

end

end Sys2Proof.Machine
end

section
/-! The frame of the accesses (R164, R165, R167): one rule for each operation of the state that they are made of, and what their claims say of the frame
follows. -/

namespace Sys2Proof.Machine

open Sys2Proof.Claims

/-! ### Register numbers by their kind -/

section
variable {n : RegNum}

theorem eq_of_regClass_ln : ∀ n : RegNum, regClass n = .ln → n = 40 := by decide
theorem eq_of_regClass_lp : ∀ n : RegNum, regClass n = .lp → n = 41 := by decide
theorem eq_of_regClass_lnf : ∀ n : RegNum, regClass n = .lnf → n = 42 := by decide
theorem eq_of_regClass_lpf : ∀ n : RegNum, regClass n = .lpf → n = 43 := by decide
theorem eq_of_regClass_inbox : ∀ n : RegNum, regClass n = .inbox → n = 44 := by decide

theorem toNat_of_regClass_general {k : Nat} (h : regClass n = .general k) : n.toNat = k := by
  unfold regClass at h
  grind

theorem toNat_of_regClass_shared {k : Nat} (h : regClass n = .shared k) : n.toNat = 32 + k := by
  unfold regClass at h
  grind

theorem handle_of_regClass_stream {k : Nat} (h : regClass n = .stream k) : isHandle n = true ∧ handleNo n = k := by
  unfold regClass at h
  simp only [isHandle, handleNo, Bool.and_eq_true, decide_eq_true_iff]
  grind

end

/-! ### Threads -/

/-- What of a thread's record no access changes. -/
def Thread.firm (t : Thread) :=
  (t.q, t.tst, t.fctl, t.fst, t.srkey, t.srcnt, t.tcause, t.tepc, t.tval, t.tvec, t.tscratch, t.live, t.cx, t.sync, t.seedSeq, t.mprogAddr, t.spec,
    t.cancelPending, t.dogPending)

/-- A thread but for a rollback that is sent to it. -/
def Thread.unrolled (t : Thread) : Thread := { t with rollback := false }

/-- A thread keeps its record, and its registers but the destinations. -/
structure ThreadFrame (dests : List OpRef) (t u : Thread) : Prop where
  firm : u.firm = t.firm
  general : ∀ n : RegNum, .g n ∈ dests ∨ vget u.g n.toNat 0 = vget t.g n.toNat 0
  vector : ∀ n : RegNum, .v n ∈ dests ∨ vget u.v n.toNat 0 = vget t.v n.toNat 0

namespace ThreadFrame
variable {dests : List OpRef} {t u w : Thread}

theorem of_eq (firm : u.firm = t.firm) (g : u.g = t.g) (v : u.v = t.v) : ThreadFrame dests t u :=
  ⟨firm, fun n => .inr (by rw [g]), fun n => .inr (by rw [v])⟩

theorem refl (t : Thread) : ThreadFrame dests t t := of_eq rfl rfl rfl

theorem trans (h : ThreadFrame dests t u) (k : ThreadFrame dests u w) : ThreadFrame dests t w where
  firm := k.firm.trans h.firm
  general n := (k.general n).elim .inl fun same => (h.general n).imp_right same.trans
  vector n := (k.vector n).elim .inl fun same => (h.vector n).imp_right same.trans

theorem setG {x : RegNum} (dest : .g x ∈ dests) (t : Thread) (w : Word) : ThreadFrame dests t (t.setG x.toNat w) where
  firm := rfl
  general n := by
    by_cases same : n = x
    · exact .inl (same ▸ dest)
    · exact .inr (vget_vset_ne t.g w 0 fun e => same (BitVec.eq_of_toNat_eq e.symm))
  vector _ := .inr rfl

theorem setV {x : RegNum} (dest : .v x ∈ dests) (t : Thread) (w : VReg) : ThreadFrame dests t (t.setV x.toNat w) where
  firm := rfl
  general _ := .inr rfl
  vector n := by
    by_cases same : n = x
    · exact .inl (same ▸ dest)
    · exact .inr (vget_vset_ne t.v w 0 fun e => same (BitVec.eq_of_toNat_eq e.symm))

/-- The loop step of a completion turns the loop entries alone. -/
theorem complete (t : Thread) (next : Word) (taken : Bool) : ThreadFrame dests t (t.complete next taken) := by
  have step0 (t : Thread) : (t.loopStep0 next taken).1.firm = t.firm ∧ (t.loopStep0 next taken).1.g = t.g ∧ (t.loopStep0 next taken).1.v = t.v := by
    unfold Thread.loopStep0
    split
    · exact ⟨rfl, rfl, rfl⟩
    · split <;> exact ⟨rfl, rfl, rfl⟩
  have step : (t.loopStep next taken).1.firm = t.firm ∧ (t.loopStep next taken).1.g = t.g ∧ (t.loopStep next taken).1.v = t.v := by
    unfold Thread.loopStep
    split
    · exact step0 t
    · split
      · exact ⟨rfl, rfl, rfl⟩
      · exact ⟨rfl, rfl, rfl⟩
      · exact step0 (t.setLoop1 _)
  exact of_eq step.1 step.2.1 step.2.2

theorem regs (h : ThreadFrame dests t u) : keepsRegs dests [] t u :=
  have q : u.q = t.q := congrArg Prod.fst h.firm
  ⟨fun n _ => h.general n, fun n _ => h.vector n, fun n _ => .inr (by rw [q])⟩

theorem controls (h : ThreadFrame dests t u) : keepsControls t u ∧ keepsRest t u := by
  have e := h.firm
  simp only [Thread.firm, Prod.mk.injEq] at e
  unfold keepsControls keepsRest
  tauto

end ThreadFrame

/-! ### Tiles -/

/-- What of a tile no access changes. -/
def Tile.firm (x : Tile) : Tile :=
  { x with
    threads := Vector.replicate 4 {}, schange := [], inbox := [], ln := [], lp := [], streams := Vector.replicate 8 {}, pushes := []
    digest := Vector.replicate 4 0 }

/-- A tile with what an access can change taken from another. -/
def Tile.refill (x o : Tile) : Tile :=
  { x with
    threads := o.threads, schange := o.schange, inbox := o.inbox, ln := o.ln, lp := o.lp, streams := o.streams, pushes := o.pushes, digest := o.digest }

theorem Tile.refill_of_firm {n o : Tile} (h : n.firm = o.firm) : n.refill o = o :=
  (congrArg (Tile.refill · o) h : n.firm.refill o = o.firm.refill o)

/-- A tile but for its threads. -/
def Tile.unthreaded (x : Tile) : Tile := { x with threads := Vector.replicate 4 {} }

theorem Tile.threaded_of_unthreaded {n o : Tile} (h : n.unthreaded = o.unthreaded) : { n with threads := o.threads } = o :=
  congrArg (fun x : Tile => { x with threads := o.threads }) h

/-- A tile keeps what its operands do not name, and some pushes have joined those on their way. -/
structure TileFrame (reads dests : List OpRef) (pushed : List Push) (o n : Tile) : Prop where
  firm : n.firm = o.firm
  schange : ∀ k : Nat, k < 8 → (.g (BitVec.ofNat 6 (32 + k)) ∈ dests ∨ n.schange.filter (fun c => c.reg == k) = o.schange.filter fun c => c.reg == k)
  inbox : .g 44 ∈ reads ∨ n.inbox = o.inbox
  ln : .g 40 ∈ reads ∨ .g 42 ∈ reads ∨ n.ln = o.ln
  lp : .g 41 ∈ reads ∨ .g 43 ∈ reads ∨ n.lp = o.lp
  streams : ∀ r : RegNum, isHandle r = true → (.g r ∈ reads ∨ .v r ∈ reads ∨ vget n.streams (handleNo r) {} = vget o.streams (handleNo r) {})
  pushes : n.pushes = o.pushes ++ pushed

namespace TileFrame
variable {reads dests : List OpRef} {p q : List Push} {o m n : Tile}

theorem refl (x : Tile) : TileFrame reads dests [] x x :=
  ⟨rfl, fun _ _ => .inr rfl, .inr rfl, .inr (.inr rfl), .inr (.inr rfl), fun _ _ => .inr (.inr rfl), (List.append_nil _).symm⟩

theorem trans (h : TileFrame reads dests p o m) (k : TileFrame reads dests q m n) : TileFrame reads dests (p ++ q) o n where
  firm := k.firm.trans h.firm
  schange r lt := (k.schange r lt).elim .inl fun same => (h.schange r lt).imp_right same.trans
  inbox := k.inbox.elim .inl fun same => h.inbox.imp_right same.trans
  ln := k.ln.elim .inl fun right => right.elim (.inr ∘ .inl) fun same => h.ln.imp_right (.imp_right same.trans)
  lp := k.lp.elim .inl fun right => right.elim (.inr ∘ .inl) fun same => h.lp.imp_right (.imp_right same.trans)
  streams r handle := (k.streams r handle).elim .inl fun right =>
    right.elim (.inr ∘ .inl) fun same => (h.streams r handle).imp_right (.imp_right same.trans)
  pushes := by rw [k.pushes, h.pushes, List.append_assoc]

/-- A tile of which only threads and digest change. -/
theorem inside (x : Tile) (l : Vector Thread 4) (d : Vector (BitVec 32) 4) : TileFrame reads dests [] x { x with threads := l, digest := d } :=
  ⟨rfl, fun _ _ => .inr rfl, .inr rfl, .inr (.inr rfl), .inr (.inr rfl), fun _ _ => .inr (.inr rfl), (List.append_nil _).symm⟩

theorem popLn (x : Tile) (read : .g 40 ∈ reads ∨ .g 42 ∈ reads) : TileFrame reads dests [] x x.popLn :=
  { refl x with ln := read.imp_right .inl, firm := rfl }

theorem popLp (x : Tile) (read : .g 41 ∈ reads ∨ .g 43 ∈ reads) : TileFrame reads dests [] x x.popLp :=
  { refl x with lp := read.imp_right .inl, firm := rfl }

theorem popInbox (x : Tile) (read : .g 44 ∈ reads) : TileFrame reads dests [] x x.popInbox :=
  { refl x with inbox := .inl read, firm := rfl }

theorem setStream (x : Tile) {r : RegNum} (handle : isHandle r = true) (read : .g r ∈ reads ∨ .v r ∈ reads) (y : Stream) :
    TileFrame reads dests [] x (x.setStream (handleNo r) y) :=
  { refl x with
    firm := rfl
    streams := fun k isK => by
      by_cases same : k = r
      · subst same
        exact read.imp_right .inl
      · refine .inr (.inr (vget_vset_ne x.streams y {} fun e => same (BitVec.eq_of_toNat_eq ?_)))
        simp only [isHandle, handleNo, Bool.and_eq_true, decide_eq_true_iff] at handle isK e
        omega }

theorem addPush (x : Tile) (p : Push) : TileFrame reads dests [p] x (x.addPush p) := { refl x with firm := rfl, pushes := rfl }

theorem addChange (x : Tile) {c : SharedChange} (dest : .g (BitVec.ofNat 6 (32 + c.reg)) ∈ dests) : TileFrame reads dests [] x (x.addChange c) :=
  { refl (dests := dests) x with
    firm := rfl
    schange := fun k _ => by
      by_cases same : c.reg = k
      · exact .inl (same ▸ dest)
      · exact .inr (by simp [Tile.addChange, same]) }

end TileFrame

/-! ### States -/

/-- What lies outside the tiles and memory. -/
def State.machine (s : State) := (s.sites, s.grids, s.gangs, s.net, s.holders, s.orders, s.records, s.audits, s.booted)

/-- From a state to a later one of an access: what its operands and its stores do not name is as it was, and no page of its agent's overlay has moved. -/
structure Framed (reads dests : List OpRef) (stores : Nat → Prop) (pushed : List Push) (s t : State) : Prop where
  cur : t.cur = s.cur
  me : ThreadFrame dests s.me t.me
  others : ∀ b u, (b, u) ≠ s.cur → (t.thread b u).unrolled = (s.thread b u).unrolled
  tile : TileFrame reads dests pushed (s.tile s.cur.1) (t.tile s.cur.1)
  tiles : ∀ b, b ≠ s.cur.1 → (t.tile b).unthreaded = (s.tile b).unthreaded
  machine : t.machine = s.machine
  bytes : keepsBytes s t stores
  homes : ∀ j k, State.overlayHome (s.overlayOf s.cur.1) j = some k → State.overlayHome (t.overlayOf s.cur.1) j = some k

namespace State

/-- A thread after the change of one: changed, or as it was. -/
theorem thread_modThread_cases (s : State) (a th b u : Nat) (f : Thread → Thread) :
    ((a, th) = (b, u) ∧ (s.modThread a th f).thread b u = f (s.thread b u)) ∨ (s.modThread a th f).thread b u = s.thread b u := by
  by_cases same : a = b ∧ th = u
  · obtain ⟨rfl, rfl⟩ := same
    by_cases h4 : th < 4
    · exact .inl ⟨rfl, s.thread_modThread _ _ f h4⟩
    · exact .inr (by simp [thread, modThread_eq, vget, vset, h4])
  · exact .inr (s.thread_modThread_ne f (by omega))

/-- The overlay of an agent goes by its tile's run. -/
theorem overlayOf_congr {s t : State} {a : Nat} (overlays : t.overlays = s.overlays) (run : (t.tile a).firm = (s.tile a).firm) :
    t.overlayOf a = s.overlayOf a := by
  have handle : (t.tile a).handle = (s.tile a).handle := (congrArg Tile.handle run :)
  have vtn : (t.tile a).vtn = (s.tile a).vtn := (congrArg Tile.vtn run :)
  have mark : (t.tile a).mark = (s.tile a).mark := (congrArg Tile.mark run :)
  unfold overlayOf
  dsimp only
  rw [overlays, handle, vtn, mark]

end State

namespace Framed
variable {reads dests : List OpRef} {stores : Nat → Prop} {p q : List Push} {s t u w : State}

theorem trans (h : Framed reads dests stores p s t) (k : Framed reads dests stores q t u) : Framed reads dests stores (p ++ q) s u where
  cur := k.cur.trans h.cur
  me := h.me.trans k.me
  others b th other := (k.others b th (by rwa [h.cur])).trans (h.others b th other)
  tile := h.tile.trans (by rw [← h.cur]; exact k.tile)
  tiles b other := (k.tiles b (by rwa [h.cur])).trans (h.tiles b other)
  machine := k.machine.trans h.machine
  bytes j out := (k.bytes j out).trans (h.bytes j out)
  homes j b home := by
    have moved := h.homes j b home
    rw [← h.cur] at moved ⊢
    exact k.homes j b moved

/-- With the tiles as they are. -/
theorem of_tiles (cur : t.cur = s.cur) (tiles : t.tiles = s.tiles) (machine : t.machine = s.machine) (bytes : keepsBytes s t stores)
    (homes : ∀ j k, State.overlayHome (s.overlayOf s.cur.1) j = some k → State.overlayHome (t.overlayOf s.cur.1) j = some k) :
    Framed reads dests stores [] s t := by
  have tile (b : Nat) : t.tile b = s.tile b := by rw [State.tile, tiles, State.tile]
  have thread (b th : Nat) : t.thread b th = s.thread b th := by rw [State.thread, tile, State.thread]
  have me : t.me = s.me := by rw [State.me, thread, cur, State.me]
  exact ⟨cur, me ▸ .refl _, fun b th _ => by rw [thread], by rw [tile]; exact .refl _, fun b _ => by rw [tile], machine, bytes, homes⟩

/-- With memory as it is as well. -/
theorem of_mem (cur : t.cur = s.cur) (tiles : t.tiles = s.tiles) (machine : t.machine = s.machine) (mem : t.mem = s.mem) (overlays : t.overlays = s.overlays) :
    Framed reads dests stores [] s t :=
  of_tiles cur tiles machine (fun _ _ => by rw [mem]) fun j k home => by
    rwa [State.overlayOf_congr overlays (by rw [State.tile, tiles, State.tile])]

theorem refl (s : State) : Framed reads dests stores [] s s := of_mem rfl rfl rfl rfl rfl

theorem modTile (s : State) {f : Tile → Tile} (threads : ∀ x, (f x).threads = x.threads) (own : ∀ x, TileFrame reads dests p x (f x)) :
    Framed reads dests stores p s (s.modTile s.cur.1 f) where
  cur := rfl
  me := by
    have same : (s.modTile s.cur.1 f).me = s.me := State.thread_modTile _ _ _ _ _ threads
    rw [same]
    exact .refl _
  others b th _ := by rw [State.thread_modTile _ _ _ _ _ threads]
  tile := by
    rw [State.tile_modTile]
    exact own _
  tiles b other := by rw [State.tile_modTile_ne _ _ (Ne.symm other)]
  machine := rfl
  bytes _ _ := rfl
  homes j k home := by
    have same : (s.modTile s.cur.1 f).overlayOf s.cur.1 = s.overlayOf s.cur.1 :=
      State.overlayOf_congr rfl (by rw [State.tile_modTile]; exact (own _).firm)
    rw [same]
    exact home

theorem modThread (s : State) {a th : Nat} {f : Thread → Thread} (own : (a, th) = s.cur → ∀ x, ThreadFrame dests x (f x))
    (other : (a, th) ≠ s.cur → ∀ x, (f x).unrolled = x.unrolled) : Framed reads dests stores [] s (s.modThread a th f) where
  cur := rfl
  me := by
    obtain ⟨mine, e⟩ | e := s.thread_modThread_cases a th s.cur.1 s.cur.2 f
    · exact (e ▸ own mine _ : ThreadFrame dests s.me ((s.modThread a th f).thread s.cur.1 s.cur.2))
    · exact (e ▸ .refl _ : ThreadFrame dests s.me ((s.modThread a th f).thread s.cur.1 s.cur.2))
  others b u far := by
    obtain ⟨mine, e⟩ | e := s.thread_modThread_cases a th b u f
    · rw [e, other (by rw [mine]; exact far)]
    · rw [e]
  tile := by
    by_cases same : a = s.cur.1
    · rw [State.modThread_eq, same, State.tile_modTile]
      exact .inside _ _ _
    · rw [State.modThread_eq, State.tile_modTile_ne _ _ same]
      exact .refl _
  tiles b _ := s.tile_modThread_part a th (part := Tile.unthreaded) (fun _ _ => rfl) b f
  machine := rfl
  bytes _ _ := rfl
  homes j k home := by
    have same : (s.modThread a th f).overlayOf s.cur.1 = s.overlayOf s.cur.1 :=
      State.overlayOf_congr rfl (s.tile_modThread_part a th (part := Tile.firm) (fun _ _ => rfl) _ f)
    rw [same]
    exact home

theorem modMe (s : State) {f : Thread → Thread} (own : ∀ x, ThreadFrame dests x (f x)) : Framed reads dests stores [] s (s.modMe f) :=
  modThread s (fun _ => own) fun other => absurd rfl other

theorem foldl {α : Type} {f : State → α → State} (h : ∀ s x, Framed reads dests stores [] s (f s x)) :
    ∀ (l : List α) (s : State), Framed reads dests stores [] s (l.foldl f s)
  | [], s => .refl s
  | x :: l, s => (h s x).trans (foldl h l (f s x))

theorem rollWhere (s : State) (w : Watch → Bool) : Framed reads dests stores [] s (s.rollWhere w) :=
  foldl (f := fun s (w : Watch) => s.modThread w.agent w.thread fun t => { t with rollback := true })
    (fun s _ => modThread s (fun _ _ => .of_eq rfl rfl rfl) fun _ _ => rfl) (s.watches.filter w) s

theorem fell (s : State) (c : Chain) : Framed reads dests stores [] s (s.fell c) := modMe s fun x => .complete x _ _
theorem parkMe (s : State) (c : Chain) (p : Park) : Framed reads dests stores [] s (s.parkMe c p) := modMe s fun _ => .of_eq rfl rfl rfl

theorem used (s : State) (addr : Word) : Framed reads dests stores [] s (Claims.used s addr) := by
  obtain ⟨trees, e⟩ : ∃ trees, Claims.used s addr = { s with tlbPlru := trees } := s.usePage_eq s.cur.1 addr
  rw [e]
  exact of_mem rfl rfl rfl rfl rfl

theorem mark (s : State) (key n : Nat) (b : Bool) : Framed reads dests stores [] s (Claims.mark s key n b) := by
  rw [State.mark_eq]
  exact of_mem rfl rfl rfl rfl rfl

theorem digest (s : State) (cx : Bool) (addr : Word) (n v : Nat) : Framed reads dests stores [] s (s.digest s.cur.1 cx addr n v) := by
  obtain ⟨f, counts, e | e⟩ := s.digest_eq s.cur.1 cx addr n v
  · rw [e]
    exact refl s
  · rw [e]
    refine modTile s (fun x => ?_) fun x => ?_
    · obtain ⟨d, same⟩ := counts x
      rw [same]
    · obtain ⟨d, same⟩ := counts x
      rw [same]
      exact .inside x _ _

/-- A store of the issuing thread reaches the bytes at its key, or those of the overlay. -/
theorem storeAs (s : State) {key n v : Nat} (own : ∀ k, storedAt s (s.storeAs s.cur.1 key n v) key n k → stores k) :
    Framed reads dests stores [] s (s.storeAs s.cur.1 key n v) := by
  obtain ⟨t, w, e, ⟨mem, poison, overlays, swap, count, patch⟩, shadowed, plain⟩ := s.storeAs_cases s.cur.1 key n v
  have rolled : Framed reads dests stores [] t (t.rollWhere w) := rollWhere t w
  have after : (t.rollWhere w).overlayOf s.cur.1 = t.overlayOf s.cur.1 := by
    refine State.overlayOf_congr ?_ (State.rollWhere_tile (part := Tile.firm) (fun _ _ => rfl) t w s.cur.1)
    obtain ⟨tiles, r⟩ := State.rollWhere_eq t w
    rw [r]
  rw [e] at own
  rw [e]
  simp only [storedAt, after] at own
  refine trans (of_tiles (by rw [patch]; rfl) (by rw [patch]; rfl) (by rw [patch]; rfl) ?_ ?_) rolled
  · intro k out
    by_cases far : s.shadows s.cur.1 key = true
    · exact (shadowed far).bytes k fun own_ => out (own k (by rwa [if_pos far]))
    · have apart : ¬at_ key n k := fun own_ => out (own k (by rwa [if_neg far]))
      rw [(plain (Bool.eq_false_iff.2 far)).1]
      exact Mem.read_writeN_outside n s.mem v (by unfold at_ at apart; omega)
  · intro j k home
    by_cases far : s.shadows s.cur.1 key = true
    · exact (shadowed far).homes j k home
    · have same : t.overlayOf s.cur.1 = s.overlayOf s.cur.1 := State.overlayOf_congr (plain (Bool.eq_false_iff.2 far)).2 (by rw [patch]; rfl)
      rw [same]
      exact home

theorem shadows (h : Framed reads dests stores p s t) (key : Nat) : t.shadows s.cur.1 key = s.shadows s.cur.1 key := by
  have mark : (t.tile s.cur.1).mark = (s.tile s.cur.1).mark := (congrArg Tile.mark h.tile.firm :)
  rw [State.shadows, mark, State.shadows]

/-- Where a store of a later state leaves its bytes, it does from the first one's view. -/
theorem storedAt_of (before : Framed reads dests stores p s t) (after : Framed reads dests stores q u w) (cur : u.cur = t.cur) {key n k : Nat}
    (own : storedAt t u key n k) : storedAt s w key n k := by
  unfold storedAt at own ⊢
  rw [before.cur, before.shadows] at own
  split_ifs at own ⊢ with far
  · obtain ⟨j, at_, home⟩ := own
    refine ⟨j, at_, ?_⟩
    have moved := after.homes j k
    rw [cur, before.cur] at moved
    exact moved home
  · exact own

/-- A counted store. -/
theorem stored (s : State) (addr : Word) {key n v : Nat} (own : ∀ k, storedAt s (Claims.stored s addr key n v) key n k → stores k) :
    Framed reads dests stores [] s (Claims.stored s addr key n v) := by
  have counted : Framed reads dests stores [] s (s.digest s.cur.1 s.me.cx addr n v) := digest s s.me.cx addr n v
  have performed : Claims.stored s addr key n v =
      (s.digest s.cur.1 s.me.cx addr n v).storeAs (s.digest s.cur.1 s.me.cx addr n v).cur.1 key n v := by rw [Claims.stored, counted.cur]
  rw [performed] at own ⊢
  exact counted.trans (storeAs _ fun k stands => own k (storedAt_of counted (refl _) (State.storeAs_cur ..) stands))

/-! The operands. -/

theorem linkPush (s : State) (a : Nat) (d : Dir) (w : Word) : Framed reads dests stores [] s (s.linkPush a d w) := by
  unfold State.linkPush
  cases s.linkPeer a d with
  | none => exact refl s
  | some r => exact of_mem rfl rfl rfl rfl rfl

theorem popUp (s : State) (forward : Bool) (read : .g 40 ∈ reads ∨ .g 42 ∈ reads) : Framed reads dests stores [] s (s.popUp s.cur.1 forward).2 := by
  have popped : Framed reads dests stores [] s (s.modTile s.cur.1 Tile.popLn) := modTile s (fun _ => rfl) fun x => .popLn x read
  unfold State.popUp
  dsimp only
  split
  · exact popped.trans (linkPush ..)
  · exact popped

theorem popDown (s : State) (forward : Bool) (read : .g 41 ∈ reads ∨ .g 43 ∈ reads) : Framed reads dests stores [] s (s.popDown s.cur.1 forward).2 := by
  have popped : Framed reads dests stores [] s (s.modTile s.cur.1 Tile.popLp) := modTile s (fun _ => rfl) fun x => .popLp x read
  unfold State.popDown
  dsimp only
  split
  · exact popped.trans (linkPush ..)
  · exact popped

theorem streamPop (s : State) {r : RegNum} (handle : isHandle r = true) (read : .g r ∈ reads ∨ .v r ∈ reads) :
    Framed reads dests stores [] s (s.streamPop s.cur.1 (handleNo r)).2 :=
  modTile s (f := fun t => t.setStream (handleNo r) _) (fun _ => rfl) fun x => .setStream x handle read _

theorem readG (s : State) {x : RegNum} (read : .g x ∈ reads) : Framed reads dests stores [] s (s.readG s.cur.1 s.cur.2 x).2 := by
  unfold State.readG
  cases class_ : regClass x with
  | ln => exact popUp s _ (.inl (eq_of_regClass_ln x class_ ▸ read))
  | lnf => exact popUp s _ (.inr (eq_of_regClass_lnf x class_ ▸ read))
  | lp => exact popDown s _ (.inl (eq_of_regClass_lp x class_ ▸ read))
  | lpf => exact popDown s _ (.inr (eq_of_regClass_lpf x class_ ▸ read))
  | inbox => exact modTile s (fun _ => rfl) fun t => .popInbox t (eq_of_regClass_inbox x class_ ▸ read)
  | stream h =>
    obtain ⟨handle, rfl⟩ := handle_of_regClass_stream class_
    exact streamPop s handle (.inl read)
  | zero | none | general | shared | tid | vtn | rank | gsize | gidx => exact refl s

theorem src (s : State) {x : RegNum} (read : .g x ∈ reads) : Framed reads dests stores [] s (s.src x).2 := by
  by_cases pops : Op.pops x = true
  · rw [s.src_popping x pops]
    exact (readG s read).trans (modMe _ fun _ => .of_eq rfl rfl rfl)
  · rw [s.src_plain x pops]
    exact refl s

theorem srcV (s : State) {x : RegNum} (read : .v x ∈ reads) : Framed reads dests stores [] s (s.srcV x).2 := by
  by_cases pops : isHandle x = true
  · have vector : ¬x.toNat < 32 := by
      simp only [isHandle, Bool.and_eq_true, decide_eq_true_iff] at pops
      omega
    have popped : Framed reads dests stores [] s (s.readV s.cur.1 s.cur.2 x).2 := by
      rw [State.readV, if_neg vector, if_pos pops]
      exact streamPop s pops (.inr read)
    rw [s.srcV_popping x pops]
    exact popped.trans (modMe _ fun _ => .of_eq rfl rfl rfl)
  · rw [s.srcV_plain x pops]
    exact refl s

/-- The push of a result through a destination, where there is one. -/
def Pushed (s : State) (dests : List OpRef) (pushed : List Push) : Prop :=
  pushed = [] ∨ ∃ p r, pushed = [p] ∧ p.thread = s.cur.2 ∧ (.g r ∈ dests ∨ .v r ∈ dests) ∧ pushTo r = some p.to_

theorem pushLater (s : State) {r : RegNum} (dest : .g r ∈ dests ∨ .v r ∈ dests) {to_ : PushTo} (named : pushTo r = some to_) (v : VReg) {lat : Nat}
    (later : lat ≠ 0) : ∃ pushed, Pushed s dests pushed ∧ Framed reads dests stores pushed s (s.pushLater s.cur.1 s.cur.2 to_ v lat) := by
  unfold State.pushLater
  dsimp only
  rw [if_neg later]
  exact ⟨[_], .inr ⟨_, r, rfl, rfl, dest, named⟩, modTile s (f := fun t => t.addPush _) (fun _ => rfl) fun x => .addPush x _⟩

theorem dst (s : State) {x : RegNum} (dest : .g x ∈ dests) (v : Word) {lat : Nat} (later : lat ≠ 0) :
    ∃ pushed, Pushed s dests pushed ∧ Framed reads dests stores pushed s (s.dst x v lat) := by
  unfold State.dst State.writeG
  cases class_ : regClass x with
  | general k =>
    obtain rfl := toNat_of_regClass_general class_
    exact ⟨[], .inl rfl, modMe s fun t => .setG dest t v⟩
  | shared r =>
    have number : BitVec.ofNat 6 (32 + r) = x := by rw [← toNat_of_regClass_shared class_, BitVec.ofNat_toNat, BitVec.setWidth_eq]
    exact ⟨[], .inl rfl, modTile s (f := fun t => t.addChange _) (fun _ => rfl) fun t => .addChange t (number ▸ dest)⟩
  | ln => exact pushLater s (.inl dest) (by rw [eq_of_regClass_ln x class_]; rfl) _ later
  | lnf => exact pushLater s (.inl dest) (by rw [eq_of_regClass_lnf x class_]; rfl) _ later
  | lp => exact pushLater s (.inl dest) (by rw [eq_of_regClass_lp x class_]; rfl) _ later
  | lpf => exact pushLater s (.inl dest) (by rw [eq_of_regClass_lpf x class_]; rfl) _ later
  | stream h =>
    obtain ⟨handle, rfl⟩ := handle_of_regClass_stream class_
    exact pushLater s (.inl dest) (if_pos handle) _ later
  | zero | inbox | tid | vtn | rank | gsize | gidx | none => exact ⟨[], .inl rfl, refl s⟩

theorem dstV (s : State) {x : RegNum} (dest : .v x ∈ dests) (v : VReg) {lat : Nat} (later : lat ≠ 0) :
    ∃ pushed, Pushed s dests pushed ∧ Framed reads dests stores pushed s (s.dstV x v lat) := by
  unfold State.dstV State.writeV
  split_ifs with low handle
  · exact ⟨[], .inl rfl, modMe s fun t => .setV dest t v⟩
  · exact pushLater s (.inr dest) (if_pos handle) _ later
  · exact ⟨[], .inl rfl, refl s⟩

/-! What follows for the claims. -/

theorem unrolled_eq {t u : Thread} (h : u.unrolled = t.unrolled) : { u with rollback := t.rollback } = t :=
  (congrArg (fun x : Thread => { x with rollback := t.rollback }) h :)

/-- The frame of an access, with the thread's own record and what else there is to say. -/
theorem keeps {more : Prop} (h : Framed reads dests stores p s t) (named : Pushed s dests p) (also : more) :
    frame s t reads dests [] stores ∧ keepsControls s.me t.me ∧ keepsRest s.me t.me ∧ more := by
  obtain ⟨controls, rest⟩ := h.me.controls
  have machine := h.machine
  simp only [State.machine, Prod.mk.injEq] at machine
  have pushes : pushesOnly s t dests := by
    have all := h.tile.pushes
    unfold pushesOnly
    obtain rfl | ⟨q, r, rfl, thread, dest, to_⟩ := named
    · exact .inl (all.trans (List.append_nil _))
    · exact .inr ⟨q, r, all, thread, dest, to_⟩
  refine ⟨⟨h.me.regs, fun b u _ other => unrolled_eq (h.others b u other), ?_, ⟨h.cur, machine⟩, h.bytes⟩, controls, rest, also⟩
  exact ⟨Tile.refill_of_firm h.tile.firm, h.tile.schange, h.tile.inbox, h.tile.ln, h.tile.lp, h.tile.streams, pushes,
    fun b other => Tile.threaded_of_unthreaded (h.tiles b other)⟩

theorem Pushed.of_cur (named : Pushed t dests p) (cur : t.cur = s.cur) : Pushed s dests p := by
  unfold Pushed at named ⊢
  rwa [cur] at named

/-- An access that reads, writes its result and completes. -/
theorem keeps_of_written {more : Prop} (h : Framed reads dests stores [] s u)
    (written : ∃ pushed, Pushed u dests pushed ∧ Framed reads dests stores pushed u t) (c : Chain) (also : more) :
    frame s (t.fell c) reads dests [] stores ∧ keepsControls s.me (t.fell c).me ∧ keepsRest s.me (t.fell c).me ∧ more := by
  obtain ⟨pushed, named, result⟩ := written
  have all := (h.trans result).trans (fell t c)
  rw [List.append_nil, List.nil_append] at all
  exact all.keeps (named.of_cur h.cur) also

end Framed

end Sys2Proof.Machine
end

section
/-! The frame of the accesses, and the full bits, which only full/empty accesses change (R160, R164, R165, R167, R172, R368). -/

namespace Sys2Proof.Machine

open Sys2Proof.Claims

/-! ### Full bits -/

namespace State
variable (s : State)

theorem full_linkPush (a : Nat) (d : Dir) (w : Word) : (s.linkPush a d w).full = s.full := by
  unfold linkPush
  cases s.linkPeer a d <;> rfl

theorem full_readG (a th : Nat) (x : RegNum) : (s.readG a th x).2.full = s.full := by
  unfold readG
  cases regClass x with
  | ln | lnf =>
    unfold popUp
    dsimp only
    split
    · exact full_linkPush ..
    · rfl
  | lp | lpf =>
    unfold popDown
    dsimp only
    split
    · exact full_linkPush ..
    · rfl
  | _ => rfl

theorem full_src (x : RegNum) : (s.src x).2.full = s.full := by
  by_cases pops : Op.pops x = true
  · rw [s.src_popping x pops]
    exact s.full_readG s.cur.1 s.cur.2 x
  · rw [s.src_plain x pops]

theorem full_srcV (x : RegNum) : (s.srcV x).2.full = s.full := by
  by_cases pops : isHandle x = true
  · rw [s.srcV_popping x pops]
    show (s.readV s.cur.1 s.cur.2 x).2.full = s.full
    unfold readV
    split_ifs <;> rfl
  · rw [s.srcV_plain x pops]

theorem full_used (addr : Word) : (used s addr).full = s.full := used_part (part := State.full) (fun _ _ => rfl) s addr

theorem full_stored (addr : Word) (key n v : Nat) : (stored s addr key n v).full = s.full := by
  have counted : (s.digest s.cur.1 s.me.cx addr n v).full = s.full := by
    obtain ⟨_, -, e | e⟩ := s.digest_eq s.cur.1 s.me.cx addr n v <;> rw [e]
    rfl
  obtain ⟨_, w, e, ⟨_, _, _, _, _, rfl⟩, -⟩ := (s.digest s.cur.1 s.me.cx addr n v).storeAs_cases s.cur.1 key n v
  obtain ⟨tiles, r⟩ := rollWhere_eq _ w
  rw [stored, e, r]
  exact counted

theorem full_pushLater (a th : Nat) (to_ : PushTo) (v : VReg) {lat : Nat} (later : lat ≠ 0) : (s.pushLater a th to_ v lat).full = s.full := by
  unfold pushLater
  dsimp only
  rw [if_neg later]
  rfl

theorem full_dst (x : RegNum) (v : Word) {lat : Nat} (later : lat ≠ 0) : (s.dst x v lat).full = s.full := by
  unfold dst writeG
  cases regClass x with
  | ln | lnf | lp | lpf | stream => exact full_pushLater _ _ _ _ _ later
  | _ => rfl

theorem full_dstV (x : RegNum) (v : VReg) {lat : Nat} (later : lat ≠ 0) : (s.dstV x v lat).full = s.full := by
  unfold dstV writeV
  split_ifs
  · rfl
  · exact full_pushLater _ _ _ _ _ later
  · rfl

theorem isFull_setFull_ne {k w : Nat} (other : w ≠ k) (b : Bool) : (s.setFull k b).isFull w = s.isFull w := by
  cases b with
  | true => exact (NSet.mem_insert s.full k w).trans (by rw [decide_eq_false other, Bool.false_or]; rfl)
  | false => exact (NSet.mem_erase s.full k w).trans (by rw [bne_iff_ne.2 other, Bool.true_and]; rfl)

/-- Marking the words of an access leaves every other full bit. -/
theorem isFull_mark {key n w : Nat} (first : w ≠ key) (second : w ≠ key + 4 ∨ n = 4) (b : Bool) : (mark s key n b).isFull w = s.isFull w := by
  unfold mark
  dsimp only
  split
  · rw [isFull_setFull_ne _ (by omega), isFull_setFull_ne _ first]
  · exact isFull_setFull_ne _ first b

theorem isFull_congr {s t : State} (h : t.full = s.full) (w : Nat) : t.isFull w = s.isFull w := by rw [isFull, h, isFull]

end State

/-! ### The accesses -/

namespace Framed
variable {s : State} {x y : RegNum} {dests : List OpRef} {stores : Nat → Prop}

theorem read (s : State) (y : RegNum) : Framed [.g y] dests stores [] s (s.src y).2 := src s (List.mem_singleton_self _)
theorem reads (s : State) (y x : RegNum) : Framed [.g y, .g x] dests stores [] s ((s.src y).2.src x).2 := (src s (by simp)).trans (src _ (by simp))
theorem readsV (s : State) (y x : RegNum) : Framed [.g y, .v x] dests stores [] s ((s.src y).2.srcV x).2 := (src s (by simp)).trans (srcV _ (by simp))

end Framed

section
variable {i : Instr} {c : Chain} {x y : RegNum} {o : Word} {n : Nat} {b : Bool} {s t : State} {key : Nat}

theorem load_frame (form : loadOf i = some (c, x, y, o, n, b)) (h : s.admits {} c = true) (hr : s.atHand [.g y] [.g x] = true)
    (unhurried : plainly s c = true) (ok : addressed (s.src y).2 ((s.src y).1 + o * BitVec.ofNat 64 n) n Use.load = true)
    (home : goesTo (s.src y).2 ((s.src y).1 + o * BitVec.ofNat 64 n) Use.load key = true) (clean : (s.src y).2.poisonedAs s.cur.1 key n = false)
    (run : exec i s = .next t) :
    frame s t [.g y] [.g x] [] (fun _ => False) ∧ keepsControls s.me t.me ∧ keepsRest s.me t.me ∧ t.full = s.full := by
  have result := (loadResult i c x y o n b s key form h hr unhurried ok).1 home clean
  obtain rfl := Host.Outcome.next.inj (run.symm.trans result)
  have later := State.homeTurns_ne_zero (s.src y).2 s.cur.1 key
  refine ((Framed.read s y).trans (.used _ _)).keeps_of_written (Framed.dst _ (List.mem_singleton_self _) _ later) c ?_
  exact (State.full_dst _ x _ later).trans ((State.full_used ..).trans (s.full_src y))

theorem store_frame (form : storeOf i = some (c, x, y, o, n)) (h : s.admits {} c = true) (hr : s.atHand [.g y, .g x] [] = true)
    (unhurried : plainly s c = true) (ok : addressed ((s.src y).2.src x).2 ((s.src y).1 + o * BitVec.ofNat 64 n) n Use.store = true)
    (home : goesTo ((s.src y).2.src x).2 ((s.src y).1 + o * BitVec.ofNat 64 n) Use.store key = true) (run : exec i s = .next t) :
    frame s t [.g y, .g x] [] [] (storedAt s t key n) ∧ keepsControls s.me t.me ∧ keepsRest s.me t.me ∧ t.full = s.full := by
  have result := (storeResult i c x y o n s key form h hr unhurried ok).1 home
  obtain rfl := Host.Outcome.next.inj (run.symm.trans result)
  have after stores (w : State) (addr : Word) : Framed [.g y, .g x] [] stores [] w ((used w addr).fell c) := (Framed.used w addr).trans (.fell _ c)
  refine Framed.keeps ((Framed.reads s y x).trans ((Framed.stored _ _ fun k own => ?_).trans (after _ _ _))) (.inl rfl) ?_
  · exact (Framed.reads s y x (stores := fun _ => False)).storedAt_of (after _ _ _) (stored_cur ..) own
  · exact (State.full_used ..).trans ((State.full_stored ..).trans ((State.full_src ..).trans (s.full_src y)))

theorem feLoad_frame (form : feLoadOf i = some (c, x, y, o, n, b)) (h : s.admits settled c = true) (hr : s.atHand [.g y] [.g x] = true)
    (ok : addressed (s.src y).2 ((s.src y).1 + o * BitVec.ofNat 64 n) n { read := true, write := b, fe := true, plain := false } = true)
    (home : goesTo (s.src y).2 ((s.src y).1 + o * BitVec.ofNat 64 n) { read := true, write := b, fe := true, plain := false } key = true)
    (alone : noFe (s.src y).2 key = true) (full : wordsAre (s.src y).2 key n true = true) (clean : (s.src y).2.poisonedAs s.cur.1 key n = false)
    (plain : (s.src y).2.shadows s.cur.1 key = false) (run : exec i s = .next t) :
    frame s t [.g y] [.g x] [] (fun _ => False) ∧ keepsControls s.me t.me ∧ keepsRest s.me t.me ∧
    (∀ w, w ≠ key → (w ≠ key + 4 ∨ n = 4) → t.isFull w = s.isFull w) ∧ (b = false → t.full = s.full) := by
  have result := fullEmptyResult.1 i c x y o n b s key form h hr ok home alone full clean plain
  obtain rfl := Host.Outcome.next.inj (run.symm.trans result)
  have later := State.homeTurns_ne_zero (s.src y).2 s.cur.1 key
  have read := (State.full_used (s.src y).2 ((s.src y).1 + o * BitVec.ofNat 64 n)).trans (s.full_src y)
  have marked : Framed [.g y] [.g x] (fun _ => False) [] (used (s.src y).2 ((s.src y).1 + o * BitVec.ofNat 64 n))
      (if b then mark (used (s.src y).2 ((s.src y).1 + o * BitVec.ofNat 64 n)) key n false else used (s.src y).2 ((s.src y).1 + o * BitVec.ofNat 64 n)) := by
    split
    · exact .mark ..
    · exact .refl _
  refine (((Framed.read s y).trans (.used _ _)).trans marked).keeps_of_written (Framed.dst _ (List.mem_singleton_self _) _ later) c
    ⟨fun w first second => ?_, fun leaves => ?_⟩
  · refine (State.isFull_congr (State.full_dst _ x _ later) w).trans ?_
    split
    · exact (State.isFull_mark _ first second false).trans (State.isFull_congr read w)
    · exact State.isFull_congr read w
  · refine (State.full_dst _ x _ later).trans ?_
    rw [leaves, if_neg Bool.false_ne_true]
    exact read

theorem feStore_frame (form : feStoreOf i = some (c, x, y, o, n, b)) (h : s.admits settled c = true) (hr : s.atHand [.g y, .g x] [] = true)
    (ok : addressed ((s.src y).2.src x).2 ((s.src y).1 + o * BitVec.ofNat 64 n) n
      { write := true, fe := true, plain := false, parks := !b, kind := .store } = true)
    (home : goesTo ((s.src y).2.src x).2 ((s.src y).1 + o * BitVec.ofNat 64 n)
      { write := true, fe := true, plain := false, parks := !b, kind := .store } key = true)
    (alone : noFe ((s.src y).2.src x).2 key = true) (empty : b = true → wordsAre ((s.src y).2.src x).2 key n false = true)
    (plain : ((s.src y).2.src x).2.shadows s.cur.1 key = false) (run : exec i s = .next t) :
    frame s t [.g y, .g x] [] [] (at_ key n) ∧ keepsControls s.me t.me ∧ keepsRest s.me t.me ∧
    (∀ w, w ≠ key → (w ≠ key + 4 ∨ n = 4) → t.isFull w = s.isFull w) := by
  have result := fullEmptyResult.2 i c x y o n b s key form h hr ok home alone empty plain
  obtain rfl := Host.Outcome.next.inj (run.symm.trans result)
  have before {stores} := (Framed.reads s y x (dests := []) (stores := stores)).trans (.used _ ((s.src y).1 + o * BitVec.ofNat 64 n))
  have stands (w : State) (k : Nat) (own : storedAt (used ((s.src y).2.src x).2 ((s.src y).1 + o * BitVec.ofNat 64 n)) w key n k) : at_ key n k := by
    have away : (used ((s.src y).2.src x).2 ((s.src y).1 + o * BitVec.ofNat 64 n)).shadows s.cur.1 key = false :=
      (used_part (part := fun t => t.shadows s.cur.1 key) (fun _ _ => rfl) _ _).trans plain
    rw [storedAt, (before (stores := fun _ => False)).cur, away, if_neg Bool.false_ne_true] at own
    exact own
  refine Framed.keeps (before.trans ((Framed.stored _ _ (stands _)).trans ((Framed.mark _ key n true).trans (.fell _ c)))) (.inl rfl) fun w first second => ?_
  refine (State.isFull_mark _ first second true).trans (State.isFull_congr ?_ w)
  exact (State.full_stored ..).trans ((State.full_used ..).trans ((State.full_src ..).trans (s.full_src y)))

theorem Framed.outstanding {reads dests : List OpRef} {stores : Nat → Prop} (s : State) (r : Thread → Relaxed) :
    Framed reads dests stores [] s (s.modMe fun t => { t with relaxed := t.relaxed ++ [r t] }) := modMe s fun _ => .of_eq rfl rfl rfl

theorem vld_frame {k1 k2 : Nat} (h : s.admits { compute := true } c = true) (unhurried : plainly s c = true) (hr : s.atHand [.g y] [.v x] = true)
    (ok : addressed (s.src y).2 ((s.src y).1 + o * 16) 16 Use.load = true) (home : goesTo (s.src y).2 ((s.src y).1 + o * 16) Use.load k1 = true)
    (clean : (s.src y).2.poisonedAs s.cur.1 k1 8 = false)
    (high : s.split = false → goesTo (used (s.src y).2 ((s.src y).1 + o * 16)) ((s.src y).1 + o * 16 + 8) Use.load k2 = true ∧
      (s.src y).2.poisonedAs s.cur.1 k2 8 = false)
    (run : exec (.vld c x y o) s = .next t) :
    frame s t [.g y] [.v x] [] (fun _ => False) ∧ keepsControls s.me t.me ∧ keepsRest s.me t.me ∧ t.full = s.full := by
  obtain ⟨apart, whole⟩ := (vectorMoveResult c x y o s k1 h unhurried).1 hr ok home clean
  cases split : s.split with
  | true =>
    obtain rfl := Host.Outcome.next.inj (run.symm.trans (apart split))
    refine Framed.keeps ((Framed.read s y).trans ((Framed.used _ _).trans ((Framed.outstanding ..).trans (.parkMe ..)))) (.inl rfl) ?_
    exact (State.full_used ..).trans (s.full_src y)
  | false =>
    obtain ⟨home2, clean2⟩ := high split
    have clean2' := (used_part (part := fun t => t.poisonedAs s.cur.1 k2 8) (fun _ _ => rfl) (s.src y).2 ((s.src y).1 + o * 16)).trans clean2
    obtain rfl := Host.Outcome.next.inj (run.symm.trans (whole k2 split home2 clean2'))
    have later : max ((s.src y).2.homeTurns s.cur.1 k1) ((used (s.src y).2 ((s.src y).1 + o * 16)).homeTurns s.cur.1 k2) ≠ 0 := by
      have := State.homeTurns_ne_zero (s.src y).2 s.cur.1 k1
      omega
    refine ((Framed.read s y).trans ((Framed.used _ _).trans (.used _ _))).keeps_of_written (Framed.dstV _ (List.mem_singleton_self _) _ later) c ?_
    exact (State.full_dstV _ x _ later).trans ((State.full_used ..).trans ((State.full_used ..).trans (s.full_src y)))

theorem vst_frame {k1 k2 : Nat} (h : s.admits { compute := true } c = true) (unhurried : plainly s c = true) (hr : s.atHand [.g y, .v x] [] = true)
    {u w : State} {d : VReg} {addr : Word} (read : ((s.src y).2.srcV x).2 = u) (data : ((s.src y).2.srcV x).1 = d) (at_ : (s.src y).1 + o * 16 = addr)
    (first : used (stored u addr k1 8 (d.toNat % 2 ^ 64)) addr = w) (ok : addressed u addr 16 Use.store = true) (home : goesTo u addr Use.store k1 = true)
    (high : s.split = false → goesTo w (addr + 8) Use.store k2 = true) (run : exec (.vst c x y o) s = .next t) :
    frame s t [.g y, .v x] [] [] (fun k => storedAt s t k1 8 k ∨ (s.split = false ∧ storedAt s t k2 8 k)) ∧
      keepsControls s.me t.me ∧ keepsRest s.me t.me ∧ t.full = s.full := by
  subst read data at_ first
  obtain ⟨apart, whole⟩ := (vectorMoveResult c x y o s k1 h unhurried).2 hr ok home
  have calm := (State.full_srcV _ x).trans (s.full_src y)
  cases split : s.split with
  | true =>
    obtain rfl := Host.Outcome.next.inj (run.symm.trans (apart split))
    have after stores (w : State) (addr : Word) (r : Relaxed) : Framed [.g y, .v x] [] stores [] w
      (((used w addr).modMe fun t => { t with relaxed := t.relaxed ++ [r] }).parkMe c (.half addr)) :=
      (Framed.used w addr).trans ((Framed.outstanding ..).trans (.parkMe ..))
    refine Framed.keeps ((Framed.readsV s y x).trans ((Framed.stored _ _ fun k own => ?_).trans (after _ _ _ _))) (.inl rfl) ?_
    · exact .inl ((Framed.readsV s y x (stores := fun _ => True)).storedAt_of (after _ _ _ _) (stored_cur ..) own)
    · exact (State.full_used ..).trans ((State.full_stored ..).trans calm)
  | false =>
    obtain rfl := Host.Outcome.next.inj (run.symm.trans (whole k2 split (high split)))
    have after stores (w : State) (addr : Word) : Framed [.g y, .v x] [] stores [] w ((used w addr).fell c) := (Framed.used w addr).trans (.fell _ c)
    have free (w : State) (addr : Word) (key v : Nat) : Framed [.g y, .v x] [] (fun _ => True) [] w (stored w addr key 8 v) := .stored w addr fun _ _ => trivial
    refine Framed.keeps ((Framed.readsV s y x).trans ((Framed.stored _ _ fun k own => ?_).trans ((Framed.used _ _).trans
      ((Framed.stored _ _ fun k own => ?_).trans (after _ _ _))))) (.inl rfl) ?_
    · exact .inl ((Framed.readsV s y x).storedAt_of ((Framed.used _ _).trans ((free ..).trans (after _ _ _))) (stored_cur ..) own)
    · exact .inr ⟨rfl, ((Framed.readsV s y x).trans ((free ..).trans (.used _ _))).storedAt_of (after _ _ _) (stored_cur ..) own⟩
    · exact (State.full_used ..).trans ((State.full_stored ..).trans ((State.full_used ..).trans ((State.full_stored ..).trans calm)))

theorem relaxedLoad_frame (form : loadOf i = some (c, x, y, o, n, b)) (relaxed : c.relaxed = true) (calm : s.me.spec = none) (h : s.admits {} c = true)
    (hr : s.atHand [.g y] [.g x] = true)
    (ok : addressed (s.src y).2 ((s.src y).1 + o * BitVec.ofNat 64 n) n { Use.load with relaxed := true } = true) (run : exec i s = .next t) :
    frame s t [.g y] [] [] (fun _ => False) ∧ keepsControls s.me t.me ∧ keepsRest s.me t.me ∧ t.full = s.full := by
  by_cases room : s.me.relaxed.length < 8
  · have result := relaxedAccessIssues.1 i c x y o n b s form h hr relaxed calm room ok
    obtain rfl := Host.Outcome.next.inj (run.symm.trans result)
    exact Framed.keeps ((Framed.read s y).trans ((Framed.outstanding ..).trans (.fell _ c))) (.inl rfl) (s.full_src y)
  · have waits : loadG c x y o n b s = .error (.park .relaxedSlot) := by
      rw [loadG_relaxed hr relaxed (State.admits_lt h) calm rfl rfl ok]
      exact Op.claiming_park (Op.bind_error (Op.relax_waits _ (by rwa [s.src_relaxed y (State.admits_lt h)])))
    obtain rfl := Host.Outcome.next.inj (run.symm.trans (((exec_loadOf form).trans (issue_admitted h)).trans (Op.run_park waits)))
    exact Framed.keeps (.parkMe s c .relaxedSlot) (.inl rfl) rfl

theorem relaxedStore_frame (form : storeOf i = some (c, x, y, o, n)) (relaxed : c.relaxed = true) (calm : s.me.spec = none) (h : s.admits {} c = true)
    (hr : s.atHand [.g y, .g x] [] = true)
    (ok : addressed ((s.src y).2.src x).2 ((s.src y).1 + o * BitVec.ofNat 64 n) n { Use.store with relaxed := true } = true) (run : exec i s = .next t) :
    frame s t [.g y, .g x] [] [] (fun _ => False) ∧ keepsControls s.me t.me ∧ keepsRest s.me t.me ∧ t.full = s.full := by
  by_cases room : s.me.relaxed.length < 8
  · have result := relaxedAccessIssues.2 i c x y o n s form h hr relaxed calm room ok
    obtain rfl := Host.Outcome.next.inj (run.symm.trans result)
    exact Framed.keeps ((Framed.reads s y x).trans ((Framed.outstanding ..).trans (.fell _ c))) (.inl rfl) ((State.full_src ..).trans (s.full_src y))
  · have h4 := State.admits_lt h
    have full : ¬((s.src y).2.src x).2.me.relaxed.length < 8 := by
      rwa [(s.src y).2.src_relaxed x (by rwa [s.src_cur y]), s.src_relaxed y h4]
    have waits : storeG c x y o n s = .error (.park .relaxedSlot) :=
      (storeG_relaxed hr relaxed h4 calm rfl rfl ok).trans (Op.bind_error (Op.relax_waits _ full))
    obtain rfl := Host.Outcome.next.inj (run.symm.trans (((exec_storeOf form).trans (issue_admitted h)).trans (Op.run_park waits)))
    exact Framed.keeps (.parkMe s c .relaxedSlot) (.inl rfl) rfl

/-- Settles O46: each access is made of operations that keep what their operands and stores do not name. -/
theorem accessFrame : Obligations.AccessFrame := by
  refine ⟨?_, ?_, ?_, ?_, ?_, ?_⟩
  · intro i c x y o n signed s t key form h hr unhurried u addr ok home clean run
    exact load_frame form h hr unhurried ok home clean run
  · intro i c x y o n clear s t key form h hr u addr use ok home alone full clean plain run
    exact feLoad_frame form h hr ok home alone full clean plain run
  · intro i c x y o n s t key form h hr unhurried u addr ok home run
    exact store_frame form h hr unhurried ok home run
  · intro i c x y o n waits s t key form h hr u addr use ok home alone empty plain run
    exact feStore_frame form h hr ok home alone empty plain run
  · intro c x y o s t k1 k2 h unhurried addr
    refine ⟨?_, ?_⟩
    · intro hr u ok home clean high run
      exact vld_frame h unhurried hr ok home clean high run
    · intro hr u d w ok home high run
      exact vst_frame h unhurried hr rfl rfl rfl rfl ok home high run
  · intro i c x y o n signed s t relaxed calm h
    exact ⟨fun form hr ok run => relaxedLoad_frame form relaxed calm h hr ok run, fun form hr ok run => relaxedStore_frame form relaxed calm h hr ok run⟩

end

end Sys2Proof.Machine
end

section
/-! Fences, WAITC, WAITF, CLRF, TAKE and OINIT where nothing holds them (R102, R180, R195, R196, R199, R207). -/

namespace Sys2Proof.Machine

open Sys2Proof.Claims

/-! ### FENCE and WAITC -/

section
variable {s : State} {c : Chain}

/-- No posted operation is in the scope of a thread's own fence (R180). -/
theorem State.fenceClear_thread (s : State) (a th : Nat) : s.fenceClear a th 0 = true := by
  have none_held (m : Msg) : s.fenceHolds a th 0 m = false := Bool.and_false _
  rw [State.fenceClear, List.any_eq_false.2 fun m _ => Bool.eq_false_iff.1 (none_held m), Bool.not_false]

theorem fenceOf_ok {scope : Nat} (clear : s.fenceClear s.cur.1 s.cur.2 scope = true) : fenceOf c scope s = .ok ((), s.fell c) := by
  have passes : Op.await (s.fenceClear s.cur.1 s.cur.2 scope) (.fence scope) s = .ok ((), s) := by rw [clear]; rfl
  exact (Op.bind_get _).trans ((Op.bind_ok passes).trans (Op.retire_ok s c))

/-- A fence with nothing outstanding in its scope goes on. -/
theorem fence_passes {r : Op.Rules} {scope : Nat} (h : s.admits r c = true) (clear : s.fenceClear s.cur.1 s.cur.2 scope = true) :
    issue r c s (fenceOf c scope) = .next (s.fell c) :=
  (issue_admitted h).trans (Op.run_ok (fenceOf_ok clear))

theorem waitc_passes {k : BitVec 4} {y : RegNum} (h : s.admits settled c = true) (hr : s.atHand [.g y] [] = true)
    (reached : (s.src y).1.toNat % 2 ^ 32 ≤ (vget ((s.src y).2.tile s.cur.1).c k.toNat 0).toNat) :
    exec (.waitc c k y) s = .next ((s.src y).2.fell c) := by
  have here : ((s.src y).1.setWidth 32 : BitVec 32).toNat ≤ (vget (s.src y).2.myTile.c k.toNat 0).toNat := by
    rw [BitVec.toNat_setWidth, State.myTile, s.src_cur y]
    exact reached
  refine (issue_admitted h).trans (Op.run_ok ?_)
  rw [Op.bind_ok (Op.need_ok hr), Op.bind_ok (Op.readG_ok y (State.atHand_held hr)), Op.bind_get, if_pos here, Op.retire_ok]

end

/-! ### WAITF and CLRF -/

section
variable {s u : State} {c : Chain} {y : RegNum} {addr : Word} {key : Nat}

/-- A wait for a full word, alone in its list, is over as it comes: the bank completes its thread and changes nothing. -/
theorem State.feRequest_waitf {a th : Nat} {w : Waits} (h4 : th < 4) (alone : noFe s key = true) (full : s.isFull key = true) :
    (s.waits a th w).feRequest { key := key, size := 4, kind := .waitf, addr := addr, agent := a, thread := th } =
      s.modThread a th fun t => t.complete w.next false := by
  have served : (s.waits a th w).feServe { key := key, size := 4, kind := .waitf, addr := addr, agent := a, thread := th } =
      s.modThread a th fun t => t.complete w.next false := s.finishThread_waits a th w h4
  have ready : (s.waits a th w).feReady key 4 .waitf = true := (Bool.and_true _).trans full
  exact (feRequest_served alone ready (congrArg State.fe served :)).trans served

/-- What the bank leaves of WAITF of a full word is its completion. -/
theorem waitf_completes (h4 : u.cur.2 < 4) (alone : noFe u key = true) (full : u.isFull key = true) :
    (u.parkMe c (.waitf addr)).feRequest { key := key, size := 4, kind := .waitf, addr := addr, agent := u.cur.1, thread := u.cur.2 } = u.fell c := by
  rw [State.parkMe_eq, State.feRequest_waitf h4 alone full]
  exact State.fell_eq rfl rfl

theorem waitf_passes (h : s.admits settled c = true) (hr : s.atHand [.g y] [] = true) (read : (s.src y).2 = u) (at_ : (s.src y).1 = addr)
    (ok : addressed u addr 4 { read := true, fe := true, plain := false } = true)
    (home : goesTo u addr { read := true, fe := true, plain := false } key = true) (alone : noFe u key = true) (full : u.isFull key = true) :
    exec (.waitf c y) s = .next ((used u addr).fell c) := by
  have checked := (Op.syncAddress_fe false rfl).trans (Op.checkAddress_ok (addressed_iff.1 ok))
  have h4 : (used u addr).cur.2 < 4 := by rw [used_cur, ← read, s.src_cur y]; exact State.admits_lt h
  refine (issue_admitted h).trans (Op.run_done ?_)
  rw [Op.bind_ok (Op.need_ok hr), Op.bind_ok (Op.readG_ok y (State.atHand_held hr)), read, at_]
  refine (Op.bind_ok checked).trans ((Op.bind_ok (homeOf_ok home)).trans (congrArg (fun t => Except.error (Stop.done t)) (waitf_completes h4 ?_ ?_)))
  · exact (used_part (part := fun t => noFe t key) (fun _ _ => rfl) ..).trans alone
  · exact (used_part (part := fun t => t.isFull key) (fun _ _ => rfl) ..).trans full

/-- CLRF of a word of its thread's own view, for which nothing waits, empties it. -/
theorem clrf_performed (h : s.admits settled c = true) (hr : s.atHand [.g y] [] = true) (read : (s.src y).2 = u) (at_ : (s.src y).1 = addr)
    (ok : addressed u addr 4 { write := true, fe := true, plain := false, parks := true, kind := .store } = true)
    (home : goesTo u addr { write := true, fe := true, plain := false, parks := true, kind := .store } key = true) (alone : noFe u key = true)
    (plain : u.shadows u.cur.1 key = false) : exec (.clrf c y) s = .next (((used u addr).setFull key false).fell c) := by
  have checked := (Op.syncAddress_fe false rfl).trans (Op.checkAddress_ok (addressed_iff.1 ok))
  have found : Op.lift (u.resolve u.cur.1 u.cur.2 addr { write := true, fe := true, plain := false, parks := true, kind := .store }) u = .ok (.mem key, u) := by
    rw [goesTo_iff.1 home]
    rfl
  have unawaited : noFe ((used u addr).setFull key false) key = true := (used_part (part := fun t => noFe t key) (fun _ _ => rfl) ..).trans alone
  refine (issue_admitted h).trans (Op.run_ok ?_)
  rw [Op.bind_ok (Op.need_ok hr), Op.bind_ok (Op.readG_ok y (State.atHand_held hr)), read, at_]
  refine (Op.bind_ok checked).trans ((Op.bind_get _).trans ((Op.bind_ok found).trans ?_))
  dsimp only
  rw [plain, if_neg Bool.false_ne_true]
  exact congrArg (fun t : State => Except.ok ((), t.fell c)) (State.feRescan_alone unawaited)

end

/-! ### TAKE -/

theorem not_pops_of_isShared : ∀ n : RegNum, isShared n = true → ¬Op.pops n = true := by decide

theorem take_performed {s : State} {c : Chain} {x y : RegNum} (h : s.admits { held := true } c = true) (hr : s.atHand [.g y] [.g x] = true)
    (shared : isShared y = true) :
    exec (.take c x y) s = .next ((((s.src y).2.modTile s.cur.1 fun t => t.addChange ⟨y.toNat - 32, s.cyc s.cur.1 + 1, none, s.cur.2⟩).dst x
      (s.src y).1).fell c) := by
  have kept : (s.src y).2 = s := s.src_plain y (not_pops_of_isShared y shared)
  have read : Op.readG y s = .ok ((s.src y).1, s) := (Op.readG_ok y (State.atHand_held hr)).trans (by rw [kept])
  rw [kept]
  refine (issue_admitted h).trans (Op.run_ok ?_)
  rw [Op.bind_ok (Op.need_ok hr), Op.bind_ok read]
  rfl

/-! ### OINIT -/

namespace State

section
variable {s : State} {key : Nat}

/-- Nothing is granted of a doubleword that has a holder (R200). -/
theorem regrant_held (held : (s.holders.any fun h => h.key == dwordOf key) = true) : s.regrant key = s := by
  rw [regrant, grantScan, held, if_pos rfl]

/-- Nor of one for which nothing waits. -/
theorem regrant_unasked (unasked : (s.resv.any fun r => dwordOf r.key == dwordOf key) = false) : s.regrant key = s := by
  have passed : ∀ r ∈ s.resv, (dwordOf r.key == dwordOf key && s.eligible r) = false := fun r own => by
    rw [Bool.eq_false_iff.2 (List.any_eq_false.1 unasked r own), Bool.false_and]
  rw [regrant, grantScan, splitFirst_none passed, ite_self]

/-- The order table with the next ticket of a doubleword set, or freed where the ticket is all ones (R207). -/
def ticketSet (s : State) (key : Nat) (t : Word) : State :=
  { s with orders := if t = BitVec.allOnes 64 then s.orders.filter fun o => o.key != dwordOf key
      else (s.orders.filter fun o => o.key != dwordOf key) ++ [OrderEntry.mk (dwordOf key) t] }

theorem oinitAt_eq_regrant (s : State) (key : Nat) (t : Word) : s.oinitAt key t = (s.ticketSet key t).regrant key := by
  have ones : (t == 0xFFFFFFFFFFFFFFFF#64) = decide (t = BitVec.allOnes 64) := rfl
  unfold oinitAt ticketSet
  rw [ones]
  simp only [decide_eq_true_eq]

/-- OINIT of a doubleword that has a holder, or for which nothing waits, hands nothing on. -/
theorem oinitAt_eq (t : Word) (quiet : (s.holders.any fun h => h.key == dwordOf key) = true ∨
    (s.resv.any fun r => dwordOf r.key == dwordOf key) = false) : s.oinitAt key t = s.ticketSet key t := by
  rw [oinitAt_eq_regrant]
  obtain held | unasked := quiet
  · exact regrant_held held
  · exact regrant_unasked unasked

end

end State

theorem resv_of_bankFree {s : State} {key : Nat} (free : bankFree s key = true) :
    (s.resv.any fun r => State.dwordOf r.key == State.dwordOf key) = false := by
  simp only [bankFree, Bool.and_eq_true, Bool.not_eq_true'] at free
  obtain ⟨⟨⟨-, unasked⟩, -⟩, -⟩ := free
  exact unasked

theorem Op.syncAddress_ok {s : State} {ordered : Bool} {addr : Word} {n : Nat} {use : Use} (space : State.syncSpace ordered addr = true)
    (ok : addressed s addr n use = true) : Op.syncAddress ordered addr n use s = .ok ((), s) := by
  have allowed : Op.require (State.syncSpace ordered addr || use.fe) 0x03 addr s = .ok ((), s) := by rw [space, Bool.true_or]; rfl
  exact (Op.bind_ok allowed).trans (Op.checkAddress_ok (addressed_iff.1 ok))

/-- OINIT at its home, with room in the order table, sets the ticket and goes on. -/
theorem oinit_performed {s u : State} {c : Chain} {x y : RegNum} {addr t : Word} {key : Nat} (h : s.admits settled c = true)
    (hr : s.atHand [.g y, .g x] [] = true) (read : ((s.src y).2.src x).2 = u) (at_ : (s.src y).1 = addr) (value : ((s.src y).2.src x).1 = t)
    (ok : addressed u addr 8 Use.atomic = true) (space : State.syncSpace true addr = true) (home : goesTo u addr Use.atomic key = true)
    (ready : u.oinitReady key t = true) (quiet : (u.holders.any fun h => h.key == State.dwordOf key) = true ∨
      (u.resv.any fun r => State.dwordOf r.key == State.dwordOf key) = false) :
    exec (.oinit c x y) s = .next (((used u addr).ticketSet key t).fell c) := by
  have ready' : (used u addr).oinitReady key t = true := (used_part (part := fun w => w.oinitReady key t) (fun _ _ => rfl) ..).trans ready
  have quiet' : ((used u addr).holders.any fun h => h.key == State.dwordOf key) = true ∨
      ((used u addr).resv.any fun r => State.dwordOf r.key == State.dwordOf key) = false := by
    rwa [used_part (part := State.holders) (fun _ _ => rfl), used_part (part := State.resv) (fun _ _ => rfl)]
  refine (issue_admitted h).trans (Op.run_ok ?_)
  rw [Op.bind_ok (Op.need_ok hr), Op.bind_ok (Op.readG_ok y (State.atHand_held hr)),
    Op.bind_ok (Op.readG_ok x ((s.src_held y (State.admits_lt h)).trans (State.atHand_held hr))), read, at_, value]
  refine (Op.bind_ok (Op.syncAddress_ok space ok)).trans ((Op.bind_ok (homeOf_ok home)).trans ((Op.bind_get _).trans ?_))
  rw [if_pos ready', State.oinitAt_eq t quiet']
  rfl

/-- Settles O14: where nothing holds it, each form completes in its own step, and its bank hands nothing on. -/
theorem fenceWaitTakeOinit : Obligations.FenceWaitTakeOinit := by
  refine ⟨fun c y s key h hr => ?_, fun c s => ⟨fun h => fence_passes h (s.fenceClear_thread ..), fun h => ⟨fence_passes h, fence_passes h,
    fence_passes h, fun k y hr reached => waitc_passes h hr reached, fun x y key hr => ?_⟩, fun h x y hr shared => take_performed h hr shared⟩⟩
  · intro u addr alone
    have cur : u.cur = s.cur := s.src_cur y
    rw [← cur]
    exact ⟨fun ok home full => waitf_passes h hr rfl rfl ok home alone full,
      fun ok home plain => clrf_performed h hr rfl rfl ok home alone plain⟩
  · intro u addr t ok space home rest w ready
    have orders : w = (used u addr).ticketSet key t := by
      have same := used_part (part := State.orders) (fun _ _ => rfl) u addr
      rw [State.ticketSet, same]
    rw [orders]
    exact ⟨fun free => oinit_performed h hr rfl rfl rfl ok space home ready (.inr (resv_of_bankFree free)),
      fun held => oinit_performed h hr rfl rfl rfl ok space home ready (.inl held)⟩

end Sys2Proof.Machine
end

section
/-! What a bank grants as it is asked (R200, R201, R208): a request for a doubleword that is free, from a thread that waits, is granted in the step in which it
comes, and the completion undoes the parking. -/

namespace Sys2Proof.Machine

open Sys2Proof.Claims

/-! ### Operands that some forms read -/

/-- A source that an instruction reads in one of its forms only. -/
def State.srcIf (s : State) (b : Bool) (x : RegNum) : Word × State := if b then s.src x else (0, s)

theorem State.srcIf_cur (s : State) (b : Bool) (x : RegNum) : (s.srcIf b x).2.cur = s.cur := by
  cases b with
  | true => exact s.src_cur x
  | false => rfl

/-- A part of the issuing thread that is not of its pops. -/
theorem State.src_part {α : Type} {part : Thread → α} (outside : ∀ (t : Thread) p l, part (t.setPops p l) = part t) (s : State) (x : RegNum) (h4 : s.cur.2 < 4) :
    part (s.src x).2.me = part s.me := by
  obtain ⟨l, e⟩ := s.src_me x h4
  rw [e, outside]

theorem State.srcIf_part {α : Type} {part : Thread → α} (outside : ∀ (t : Thread) p l, part (t.setPops p l) = part t) (s : State) (b : Bool) (x : RegNum)
    (h4 : s.cur.2 < 4) : part (s.srcIf b x).2.me = part s.me := by
  cases b with
  | true => exact State.src_part outside s x h4
  | false => rfl

theorem Op.readG_if {s u : State} {b : Bool} {x : RegNum} {v : Word} (h : s.me.held = []) (read : s.srcIf b x = (v, u)) (k : Word → Op Unit) :
    (if b then Op.readG x >>= k else pure 0 >>= k) s = k v u := by
  cases b with
  | true => exact Op.bind_ok ((Op.readG_ok x h).trans (congrArg Except.ok read))
  | false => exact Op.bind_ok (congrArg Except.ok read)

/-! ### Parts of the state that stay -/

namespace State

section
variable {α : Type} {part : State → α}

theorem digest_outside (outside : ∀ (t : State) tiles, part { t with tiles := tiles } = part t) (s : State) (a : Nat) (cx : Bool) (addr : Word) (n v : Nat) :
    part (s.digest a cx addr n v) = part s := by
  obtain ⟨_, -, e | e⟩ := s.digest_eq a cx addr n v <;> rw [e]
  exact outside ..

theorem storeAs_outside (outside : ∀ (t : State) tiles, part { t with tiles := tiles } = part t)
    (patch : ∀ (t : State) mem poison overlays swap count, part (t.patched mem poison overlays swap count) = part t) (s : State) (a key n v : Nat) :
    part (s.storeAs a key n v) = part s := by
  obtain ⟨_, w, e, ⟨_, _, _, _, _, rfl⟩, -⟩ := s.storeAs_cases a key n v
  obtain ⟨tiles, r⟩ := rollWhere_eq _ w
  rw [e, r, outside, patch]

theorem writeG_outside (outside : ∀ (t : State) tiles, part { t with tiles := tiles } = part t) (s : State) (a th : Nat) (x : RegNum) (v : Word) {lat : Nat}
    (later : lat ≠ 0) : part (s.writeG a th x v lat) = part s := by
  unfold writeG pushLater
  dsimp only
  simp only [if_neg later]
  cases regClass x with
  | general | shared | ln | lnf | lp | lpf | stream => exact outside ..
  | zero | inbox | tid | vtn | rank | gsize | gidx | none => rfl

end

theorem viewN_waits (s : State) (a th : Nat) (w : Waits) (b key n : Nat) : (s.waits a th w).viewN b key n = s.viewN b key n := by
  unfold viewN
  rw [shadows_waits, overlayOf_waits]
  rfl

/-! ### A request for a free doubleword -/

theorem grantScan_unasked {s : State} {key : Nat} (unasked : (s.resv.any fun r => dwordOf r.key == dwordOf key) = false) (fuel : Nat) :
    s.grantScan key fuel = s := by
  have passed : ∀ r ∈ s.resv, (dwordOf r.key == dwordOf key && s.eligible r) = false := fun r own => by
    rw [Bool.eq_false_iff.2 (List.any_eq_false.1 unasked r own), Bool.false_and]
  cases fuel with
  | zero => rfl
  | succ n => rw [grantScan, splitFirst_none passed, ite_self]

/-- The only request for a doubleword is granted as it comes, and nothing is granted after it. -/
theorem requestGrant_granted {s : State} {r : ResvReq} (free : bankFree s r.key = true) (turn : s.eligible r = true) (left : (s.grantOne r).resv = s.resv) :
    s.requestGrant r = s.grantOne r := by
  have unasked := resv_of_bankFree free
  simp only [bankFree, Bool.and_eq_true, Bool.not_eq_true', decide_eq_true_eq] at free
  obtain ⟨⟨⟨unheld, -⟩, none_rejected⟩, room⟩ := free
  have passed : ∀ q ∈ s.resv, (dwordOf q.key == dwordOf r.key && eligible { s with resv := s.resv ++ [r] } q) = false := fun q own => by
    rw [Bool.eq_false_iff.2 (List.any_eq_false.1 unasked q own), Bool.false_and]
  have found := splitFirst_last (x := r) passed (by rw [beq_self_eq_true, Bool.true_and]; exact turn)
  have calm : ((s.grantOne r).resv.any fun q => dwordOf q.key == dwordOf r.key) = false := by rw [left]; exact unasked
  have admitted : (decide (32 ≤ s.queueLoad (bankOf r.key)) || s.rejected.any fun q => bankOf q.key == bankOf r.key) = false := by
    rw [none_rejected, Bool.or_false, decide_eq_false (by omega)]
  rw [requestGrant, admitted, if_neg Bool.false_ne_true, regrant, grantScan]
  dsimp only
  rw [unheld, if_neg Bool.false_ne_true, found]
  dsimp only
  rw [List.append_nil]
  exact grantScan_unasked calm _

/-- So is that of a thread that waits. -/
theorem requestGrant_waits {s t : State} {a th : Nat} {w : Waits} {r : ResvReq} (free : bankFree s r.key = true) (turn : s.eligible r = true)
    (granted : (s.waits a th w).grantOne r = t) (left : t.resv = s.resv) : (s.waits a th w).requestGrant r = t := by
  have free' : bankFree (s.waits a th w) r.key = bankFree s r.key := rfl
  have turn' : (s.waits a th w).eligible r = s.eligible r := rfl
  rw [requestGrant_granted (free'.trans free) (turn'.trans turn) ((congrArg State.resv granted).trans left), granted]

/-! ### Reservations -/

/-- A change of a thread is one of its present record. -/
theorem modThread_congr {s : State} {a th : Nat} {f g : Thread → Thread} (h : f (s.thread a th) = g (s.thread a th)) : s.modThread a th f = s.modThread a th g :=
  congrArg (fun t => s.setTile a { s.tile a with threads := vset (s.tile a).threads th t }) h

/-- The synchronisation record of a thread that holds a doubleword, by LRW or, ordered, by LRO with its ticket (R201, R208). -/
def holdRecord (key : Nat) (addr : Word) (ordered : Bool) (t : Word) : SyncRec :=
  { heldAddr := addr, heldKind := if ordered then 2 else 1, revoked := false, ticket := t, heldKey := some (dwordOf key) }

/-- A thread holds a doubleword. -/
def withHold (s : State) (a th key : Nat) (r : SyncRec) : State :=
  { s with holders := s.holders ++ [Holder.mk (dwordOf key) a th] }.modThread a th fun t => { t with sync := r }

section
variable {s : State} {a th key : Nat} {w : Waits} {addr t : Word} {x : RegNum} {ordered : Bool} {r : SyncRec}

/-- A thread without a reservation has none to give up. -/
theorem dropHold_waits (h4 : th < 4) (idle : (s.thread a th).sync = {}) : (s.waits a th w).dropHold a th false = s.waits a th w := by
  have thread : (s.waits a th w).thread a th = w.onThread (s.thread a th) := s.thread_modThread a th _ h4
  have none_held : ((s.waits a th w).thread a th).sync.heldKey = none := by rw [thread]; exact congrArg SyncRec.heldKey idle
  have emptied : { w.onThread (s.thread a th) with sync := {} } = w.onThread (s.thread a th) :=
    (congrArg (fun r : SyncRec => { w.onThread (s.thread a th) with sync := r }) idle).symm
  unfold dropHold
  rw [none_held]
  exact (modThread_modThread _ _ _ _ _ h4).trans (modThread_congr emptied)

theorem withHold_waits (h4 : th < 4) : (s.waits a th w).withHold a th key r = (s.withHold a th key r).waits a th w :=
  modThread_waits { s with holders := s.holders ++ [Holder.mk (dwordOf key) a th] } a th w h4 (f := fun t => { t with sync := r }) (fun _ => rfl) a th

theorem withHold_thread (h4 : th < 4) : (s.withHold a th key r).thread a th = { s.thread a th with sync := r } := thread_modThread _ _ _ _ h4

theorem viewN_withHold (b k n : Nat) : (s.withHold a th key r).viewN b k n = s.viewN b k n := by
  have firm := { s with holders := s.holders ++ [Holder.mk (dwordOf key) a th] }.tile_modThread_part a th (part := Tile.firm) (fun _ _ => rfl) b
    fun t => { t with sync := r }
  have overlay : (s.withHold a th key r).overlayOf b = s.overlayOf b := overlayOf_congr rfl firm
  have shadows : (s.withHold a th key r).shadows b k = s.shadows b k := by
    have mark : ((s.withHold a th key r).tile b).mark = (s.tile b).mark := (congrArg Tile.mark firm :)
    rw [State.shadows, mark, State.shadows]
  unfold viewN
  rw [overlay, shadows]
  rfl

theorem grantOne_reservation :
    s.grantOne { key := key, addr := addr, kind := if ordered then .lro t else .lrw, dest := x, agent := a, thread := th } =
      ((s.withHold a th key (holdRecord key addr ordered (if ordered then t else 0))).writeG a th x
        (BitVec.ofNat 64 ((s.withHold a th key (holdRecord key addr ordered (if ordered then t else 0))).viewN a (dwordOf key) 8))
        ((s.withHold a th key (holdRecord key addr ordered (if ordered then t else 0))).homeTurns a key)).finishThread a th := by
  cases ordered with
  | true => rfl
  | false => rfl

/-- What a bank does for LRW or LRO that it grants. -/
theorem grantOne_reservation_waits (h4 : th < 4) :
    (s.waits a th w).grantOne { key := key, addr := addr, kind := if ordered then .lro t else .lrw, dest := x, agent := a, thread := th } =
      ((s.withHold a th key (holdRecord key addr ordered (if ordered then t else 0))).writeG a th x (BitVec.ofNat 64 (s.viewN a (dwordOf key) 8))
        (s.homeTurns a key)).modThread a th fun t => t.complete w.next false := by
  have turns (u : State) (r : SyncRec) : (u.withHold a th key r).homeTurns a key = u.homeTurns a key := homeTurns_congr _ key rfl
  have turns' : (s.waits a th w).homeTurns a key = s.homeTurns a key := homeTurns_congr _ key rfl
  rw [grantOne_reservation, viewN_withHold, viewN_waits, turns, turns', withHold_waits h4, writeG_waits _ _ _ _ h4 _ _ _ _ (s.homeTurns_ne_zero a key),
    finishThread_waits _ _ _ _ h4]

end

end State

/-! ### LRW and LRO -/

section
variable (s : State) (addr : Word) (b key n : Nat)

theorem viewN_used : (used s addr).viewN b key n = s.viewN b key n := used_part (part := fun t => t.viewN b key n) (fun _ _ => rfl) s addr
theorem shadows_used : (used s addr).shadows b key = s.shadows b key := used_part (part := fun t => t.shadows b key) (fun _ _ => rfl) s addr
theorem bankFree_used : bankFree (used s addr) key = bankFree s key := used_part (part := fun t => bankFree t key) (fun _ _ => rfl) s addr
theorem ticketOf_used : (used s addr).ticketOf key = s.ticketOf key := used_part (part := fun t => t.ticketOf key) (fun _ _ => rfl) s addr
theorem homeTurns_used : (used s addr).homeTurns b key = s.homeTurns b key :=
  State.homeTurns_congr s key (used_part (part := fun t => t.cyc b) (fun _ _ => rfl) s addr)

end

section
variable {s u : State} {c : Chain} {x y : RegNum} {ordered : Bool} {addr t : Word} {key : Nat}

/-- LRW and LRO queue their request, parked. -/
theorem reserve_asks (h : s.admits settled c = true) (hr : s.atHand (if ordered then [.g y, .g x] else [.g y]) [.g x] = true)
    (read : (s.src y).2.srcIf ordered x = (t, u)) (at_ : (s.src y).1 = addr) (ok : addressed u addr 8 Use.atomic = true)
    (space : State.syncSpace ordered addr = true) (home : goesTo u addr Use.atomic key = true) :
    issue settled c s (reserve c x y ordered) =
      .next (((((used u addr).parkMe c (if ordered then .ticket addr t else .grant addr)).modMe (Op.claim x)).dropHold (used u addr).cur.1 (used u addr).cur.2
        false).requestGrant { key := key, addr := addr, kind := if ordered then .lro t else .lrw, dest := x, agent := (used u addr).cur.1
                              thread := (used u addr).cur.2 }) := by
  have held := (s.src_held y (State.admits_lt h)).trans (State.atHand_held hr)
  rw [issue_admitted h]
  unfold reserve
  refine Op.run_done (Op.claiming_done ?_)
  rw [Op.bind_ok (Op.need_ok hr), Op.bind_ok (Op.readG_ok y (State.atHand_held hr)), at_]
  refine (Op.readG_if held read _).trans ?_
  exact (Op.bind_ok (Op.syncAddress_ok space ok)).trans ((Op.bind_get _).trans (Op.bind_ok (homeOf_ok home)))

/-- What the bank leaves of LRW or LRO that it grants is its completion. -/
theorem reserve_completes {p : Park} (h4 : u.cur.2 < 4) (idle : u.me.sync = {}) (free : bankFree u key = true) (turn : ordered = true → u.ticketOf key = some t) :
    (((u.parkMe c p).modMe (Op.claim x)).dropHold u.cur.1 u.cur.2 false).requestGrant
        { key := key, addr := addr, kind := if ordered then .lro t else .lrw, dest := x, agent := u.cur.1, thread := u.cur.2 } =
      ((u.withHold u.cur.1 u.cur.2 key (State.holdRecord key addr ordered (if ordered then t else 0))).dst x (BitVec.ofNat 64 (u.viewN u.cur.1 (State.dwordOf key) 8))
        (u.homeTurns u.cur.1 key)).fell c := by
  have left := State.writeG_outside (part := State.resv) (fun _ _ => rfl) (u.withHold u.cur.1 u.cur.2 key (State.holdRecord key addr ordered (if ordered then t else 0)))
    u.cur.1 u.cur.2 x (BitVec.ofNat 64 (u.viewN u.cur.1 (State.dwordOf key) 8)) (u.homeTurns_ne_zero u.cur.1 key)
  have eligible : u.eligible
      { key := key, addr := addr, kind := if ordered then .lro t else .lrw, dest := x, agent := u.cur.1, thread := u.cur.2 } = true := by
    cases ordered with
    | true => exact beq_iff_eq.2 (turn rfl)
    | false => rfl
  rw [State.parkClaim_eq _ _ _ _ h4, State.dropHold_waits h4 idle]
  refine Eq.trans (State.requestGrant_waits free eligible (State.grantOne_reservation_waits h4) left) (State.fell_eq (State.dst_cur ..) ?_)
  have same : (u.withHold u.cur.1 u.cur.2 key (State.holdRecord key addr ordered (if ordered then t else 0))).me.pc = u.me.pc :=
    (congrArg Thread.pc (State.withHold_thread h4) :)
  exact (State.dst_part (part := Thread.pc) (fun _ => rfl) (fun _ _ _ => rfl) _ _ _ _).trans same

/-- LRW, and LRO in its turn, of a free doubleword holds it at once. -/
theorem reserve_granted (h : s.admits settled c = true) (hr : s.atHand (if ordered then [.g y, .g x] else [.g y]) [.g x] = true) (idle : s.me.sync = {})
    (read : (s.src y).2.srcIf ordered x = (t, u)) (at_ : (s.src y).1 = addr) (ok : addressed u addr 8 Use.atomic = true)
    (space : State.syncSpace ordered addr = true) (home : goesTo u addr Use.atomic key = true) (free : bankFree u key = true)
    (turn : ordered = true → u.ticketOf key = some t) :
    issue settled c s (reserve c x y ordered) =
      .next ((((used u addr).withHold (used u addr).cur.1 (used u addr).cur.2 key (State.holdRecord key addr ordered (if ordered then t else 0))).dst x
        (BitVec.ofNat 64 (u.viewN (used u addr).cur.1 (State.dwordOf key) 8)) (u.homeTurns (used u addr).cur.1 key)).fell c) := by
  have h4 := State.admits_lt h
  have h4' : (s.src y).2.cur.2 < 4 := by rwa [s.src_cur y]
  have after : ((s.src y).2.srcIf ordered x).2 = u := congrArg Prod.snd read
  have cur : (used u addr).cur = s.cur := by rw [used_cur, ← after, State.srcIf_cur, s.src_cur y]
  have idle' : (used u addr).me.sync = {} := by
    rw [used_me, ← after, State.srcIf_part (part := Thread.sync) (fun _ _ _ => rfl) _ _ _ h4', s.src_part (part := Thread.sync) (fun _ _ _ => rfl) y h4, idle]
  have next : ordered = true → (used u addr).ticketOf key = some t := fun o => (ticketOf_used u addr key).trans (turn o)
  rw [reserve_asks h hr read at_ ok space home, reserve_completes (by rw [cur]; exact h4) idle' ((bankFree_used ..).trans free) next, viewN_used,
    homeTurns_used]

/-- Settles O11: the request is granted in the step that queues it. -/
theorem reservationGranted : Obligations.ReservationGranted := by
  refine ⟨fun c x y s key h hr idle => ?_, fun c x y s key h hr idle => ?_⟩
  · intro u addr ok space home free
    have cur : (used u addr).cur = s.cur := (used_cur ..).trans (s.src_cur y)
    have holders := used_part (part := State.holders) (fun _ _ => rfl) u addr
    rw [← cur, ← holders]
    exact reserve_granted (ordered := false) (t := 0) h hr idle rfl rfl ok space home free nofun
  · intro u addr t ok space home free turn
    have cur : (used u addr).cur = s.cur := (used_cur ..).trans ((State.src_cur ..).trans (s.src_cur y))
    have holders := used_part (part := State.holders) (fun _ _ => rfl) u addr
    rw [← cur, ← holders]
    exact reserve_granted (ordered := true) h hr idle rfl rfl ok space home free fun _ => turn

end
end Sys2Proof.Machine
end

section
/-! Atomics that a bank performs as they come (R210, R211, R212). -/

namespace Sys2Proof.Machine

open Sys2Proof.Claims

/-! ### What an atomic computes -/

/-- The forms of an atomic: X + 1 is read by compare-and-swap and by the ordered addition. -/
theorem exec_atomicOf {i : Instr} {c : Chain} {x y : RegNum} {n : Nat} {op : AtomOp} {pair : Bool} (form : atomicOf i = some (c, x, y, n, op, pair)) :
    exec i = (fun s => issue settled c s (atomic c x y op n)) ∧ pair = (op == .cas || op == .faddo) ∧ (n = 4 ∨ n = 8) := by
  unfold atomicOf at form
  split at form <;> cases form <;> exact ⟨rfl, rfl, by decide⟩

/-- The signed value of a number that is small enough (R210). -/
theorem signedOf_eq_bmod {n v : Nat} (words : n = 4 ∨ n = 8) (small : v < 2 ^ (8 * n)) : State.signedOf (8 * n) v = (v : Int).bmod (2 ^ (8 * n)) := by
  obtain rfl | rfl := words <;> norm_num [State.signedOf, Int.bmod_def] at small ⊢ <;> omega

/-- What the model computes is what the rules say. -/
theorem atomResult_eq {n old v second : Nat} (words : n = 4 ∨ n = 8) (hold : old < 2 ^ (8 * n)) (hv : v < 2 ^ (8 * n)) (op : AtomOp) :
    State.atomResult op n old v second = (atomicNew op n old v second, atomicFlags op n old v) := by
  cases op with
  | min | max => simp only [State.atomResult, atomicNew, atomicFlags, signedOf_eq_bmod words hold, signedOf_eq_bmod words hv]
  | minu => rfl
  | maxu =>
    have larger : (if v ≤ old then old else v) = Nat.max old v := by
      show _ = max old v
      split <;> omega
    exact congrArg (fun r => (some r, (0 : BitVec 5))) larger
  | add | and | or | xor | swap | cas => rfl
  | fadd | faddo =>
    obtain rfl | rfl := words <;> rfl

theorem State.viewN_lt {s : State} {a key : Nat} (plain : s.shadows a key = false) (n : Nat) : s.viewN a key n < 2 ^ (8 * n) := by
  rw [viewN, plain, if_neg Bool.false_ne_true, pow_mul]
  exact Mem.readN_lt s.mem n key

namespace State

/-- What an atomic leaves of its doubleword: the new value, where there is one, with its digest terms; and where it is ordered the next ticket. -/
def atomStored (s : State) (a : Nat) (cx : Bool) (addr : Word) (key n : Nat) (op : AtomOp) (v : Nat) (new : Option Nat) : State :=
  match new with
  | some new => (s.digest a cx addr n (if op.counts then v else new)).storeAs a key n new
  | none => s.rollWatchers key n

def atomStepped (s : State) (key : Nat) (op : AtomOp) : State := if op = .faddo then s.ticketStep key else s

section
variable {α : Type} (s : State) (a th : Nat) (cx : Bool) (addr : Word) (key n : Nat) (op : AtomOp) (v : Nat) (new : Option Nat) (fl : BitVec 5)

theorem atomStored_outside {part : State → α} (outside : ∀ (t : State) tiles, part { t with tiles := tiles } = part t)
    (patch : ∀ (t : State) mem poison overlays swap count, part (t.patched mem poison overlays swap count) = part t) :
    part (s.atomStored a cx addr key n op v new) = part s := by
  cases new with
  | some new => exact (storeAs_outside outside patch ..).trans (digest_outside outside ..)
  | none =>
    obtain ⟨tiles, e⟩ := s.rollWhere_eq fun w => key / 8 * 8 ≤ w.key && w.key < key + n
    exact (congrArg part e).trans (outside ..)

theorem atomStored_part {part : Thread → α} (rolled : ∀ t : Thread, part { t with rollback := true } = part t) (b u : Nat) :
    part ((s.atomStored a cx addr key n op v new).thread b u) = part (s.thread b u) := by
  cases new with
  | some new => exact (storeAs_part _ _ _ _ _ rolled b u).trans (congrArg part (s.digest_thread ..))
  | none => exact rollWhere_part s rolled ..

theorem atomStepped_eq : s.atomStepped key op = { s with orders := (s.atomStepped key op).orders } := by
  unfold atomStepped
  split <;> rfl

theorem raise_outside {part : State → α} (outside : ∀ (t : State) tiles, part { t with tiles := tiles } = part t) : part (s.raise a th fl) = part s := by
  unfold raise
  split
  · rfl
  · exact outside ..

theorem raise_part {part : Thread → α} (raised : ∀ (t : Thread) f, part { t with fst := f } = part t) (b u : Nat) :
    part ((s.raise a th fl).thread b u) = part (s.thread b u) := by
  unfold raise
  split
  · rfl
  · obtain ⟨-, e⟩ | e := s.thread_modThread_cases a th b u fun t => { t with fst := t.fst ||| fl }
    · rw [e, raised]
    · rw [e]

/-! A thread that waits does so through all of it. -/

variable {s a th key} {w : Waits} (h4 : th < 4) (plain : s.shadows a key = false)
include h4

theorem raise_waits : (s.waits a th w).raise a th fl = (s.raise a th fl).waits a th w := by
  unfold raise
  split
  · rfl
  · exact modThread_waits s a th w h4 (f := fun t => { t with fst := t.fst ||| fl }) (fun _ => rfl) a th

include plain

theorem atomStored_waits : (s.waits a th w).atomStored a cx addr key n op v new = (s.atomStored a cx addr key n op v new).waits a th w := by
  cases new with
  | some new =>
    unfold atomStored
    dsimp only
    rw [digest_waits, storeAs_waits _ _ _ _ h4 ((shadows_digest ..).trans plain)]
  | none => exact rollWhere_waits s a th w h4 _

end

theorem atomStepped_waits (s : State) (a th key : Nat) (w : Waits) (op : AtomOp) :
    (s.waits a th w).atomStepped key op = (s.atomStepped key op).waits a th w := by
  unfold atomStepped
  split <;> rfl

theorem atomTurns_congr {s t : State} {a : Nat} (key : Nat) (op : AtomOp) (h : t.cyc a = s.cyc a) : t.atomTurns a key op = s.atomTurns a key op := by
  unfold atomTurns
  rw [homeTurns_congr _ key h]

theorem atomTurns_ne_zero (s : State) (a key : Nat) (op : AtomOp) : s.atomTurns a key op ≠ 0 := by
  have := s.homeTurns_ne_zero a key
  unfold atomTurns
  omega

/-- A granted atomic, step by step. -/
theorem performAtomic_eq (s : State) (r : ResvReq) (op : AtomOp) (n : Nat) (operand second : Word) {v old new fl} (value : operand.toNat % 2 ^ (8 * n) = v)
    (seen : s.viewN r.agent r.key n = old) (result : atomResult op n old v (second.toNat % 2 ^ (8 * n)) = (new, fl)) :
    s.performAtomic r op n operand second =
      (((((s.atomStored r.agent r.cx r.addr r.key n op v new).atomStepped r.key op).raise r.agent r.thread fl).writeG r.agent r.thread r.dest
        (BitVec.ofNat 64 old) (((s.atomStored r.agent r.cx r.addr r.key n op v new).atomStepped r.key op).atomTurns r.agent r.key op)).finishThread
          r.agent r.thread) := by
  subst value seen
  unfold performAtomic
  dsimp only
  rw [result]
  cases op <;> rfl

/-- What an atomic changes before its result is written. -/
def atomDone (s : State) (a th : Nat) (cx : Bool) (addr : Word) (key n : Nat) (op : AtomOp) (v old : Nat) (new : Option Nat) : State :=
  ((s.atomStored a cx addr key n op v new).atomStepped key op).raise a th (atomicFlags op n old v)

section
variable {s : State} {a th key n v old : Nat} {w : Waits} {cx : Bool} {addr operand second : Word} {op : AtomOp} {x : RegNum} {new : Option Nat}

theorem atomDone_outside {α : Type} {part : State → α} (outside : ∀ (t : State) tiles, part { t with tiles := tiles } = part t)
    (patch : ∀ (t : State) mem poison overlays swap count, part (t.patched mem poison overlays swap count) = part t)
    (orders : ∀ (t : State) l, part { t with orders := l } = part t) : part (s.atomDone a th cx addr key n op v old new) = part s := by
  have stepped : part ((s.atomStored a cx addr key n op v new).atomStepped key op) = part (s.atomStored a cx addr key n op v new) :=
    (congrArg part (atomStepped_eq ..)).trans (orders ..)
  exact (raise_outside _ _ _ _ outside).trans (stepped.trans (atomStored_outside _ _ _ _ _ _ _ _ _ outside patch))

theorem atomDone_part {α : Type} {part : Thread → α} (rolled : ∀ t : Thread, part { t with rollback := true } = part t)
    (raised : ∀ (t : Thread) f, part { t with fst := f } = part t) (b u : Nat) :
    part ((s.atomDone a th cx addr key n op v old new).thread b u) = part (s.thread b u) := by
  have stepped : ((s.atomStored a cx addr key n op v new).atomStepped key op).thread b u = (s.atomStored a cx addr key n op v new).thread b u := by
    rw [atomStepped_eq]
    rfl
  exact (raise_part _ _ _ _ raised ..).trans ((congrArg part stepped).trans (atomStored_part _ _ _ _ _ _ _ _ _ rolled ..))

/-- What a bank does for an atomic that it grants. -/
theorem grantOne_atomic (words : n = 4 ∨ n = 8) (h4 : th < 4) (plain : s.shadows a key = false) (value : operand.toNat % 2 ^ (8 * n) = v)
    (seen : s.viewN a key n = old) (result : atomicNew op n old v (second.toNat % 2 ^ (8 * n)) = new) :
    (s.waits a th w).grantOne
        { key := key, addr := addr, kind := .atomic op n operand second, dest := x, cx := cx, agent := a, thread := th } =
      ((s.atomDone a th cx addr key n op v old new).writeG a th x (BitVec.ofNat 64 old) (s.atomTurns a key op)).modThread a th fun t =>
        t.complete w.next false := by
  have small : old < 2 ^ (8 * n) := seen ▸ viewN_lt plain n
  have low : v < 2 ^ (8 * n) := value ▸ Nat.mod_lt _ (by positivity)
  have computed := (atomResult_eq (second := second.toNat % 2 ^ (8 * n)) words small low op).trans (congrArg (·, _) result)
  have turns : (((s.atomStored a cx addr key n op v new).atomStepped key op).waits a th w).atomTurns a key op = s.atomTurns a key op := by
    refine atomTurns_congr key op ?_
    rw [atomStepped_eq]
    exact atomStored_outside (part := fun t => t.cyc a) _ _ _ _ _ _ _ _ _ (fun _ _ => rfl) fun _ _ _ _ _ _ => rfl
  refine (performAtomic_eq _ _ op n operand second value ((viewN_waits ..).trans seen) computed).trans ?_
  dsimp only
  rw [atomStored_waits _ _ _ _ _ _ h4 plain, atomStepped_waits, turns, raise_waits _ h4, writeG_waits _ _ _ _ h4 _ _ _ _ (s.atomTurns_ne_zero a key op),
    finishThread_waits _ _ _ _ h4]
  rfl

end

end State

/-! ### The instruction -/

section
variable {s u : State} {c : Chain} {x y : RegNum} {n v old : Nat} {op : AtomOp} {pair : Bool} {addr d d2 : Word} {key : Nat} {new : Option Nat}

/-- An atomic queues its request, parked. -/
theorem atomic_asks (h : s.admits settled c = true) (paired : pair = (op == .cas || op == .faddo))
    (hr : s.atHand (if pair then [.g y, .g x, .g (x + 1)] else [.g y, .g x]) [.g x] = true) (at_ : (s.src y).1 = addr)
    (first : ((s.src y).2.src x).1 = d) (read : ((s.src y).2.src x).2.srcIf pair (x + 1) = (d2, u)) (ok : addressed u addr n Use.atomic = true)
    (space : State.syncSpace (op == .faddo) addr = true) (home : goesTo u addr Use.atomic key = true) :
    issue settled c s (atomic c x y op n) =
      .next ((((used u addr).parkMe c (if op == .faddo then .ticket addr d2 else .grant addr)).modMe (Op.claim x)).requestGrant
        { key := key, addr := addr, kind := .atomic op n d d2, dest := x
          cx := (((used u addr).parkMe c (if op == .faddo then .ticket addr d2 else .grant addr)).modMe (Op.claim x)).me.cx
          agent := (used u addr).cur.1, thread := (used u addr).cur.2 }) := by
  have h4 := State.admits_lt h
  have held := (s.src_held y h4).trans (State.atHand_held hr)
  have held' := ((s.src y).2.src_held x (by rwa [s.src_cur y])).trans held
  rw [issue_admitted h]
  unfold atomic
  refine Op.run_done (Op.claiming_done ?_)
  dsimp only
  rw [← paired, Op.bind_ok (Op.need_ok hr), Op.bind_ok (Op.readG_ok y (State.atHand_held hr)), at_, Op.bind_ok (Op.readG_ok x held), first]
  refine (Op.readG_if held' read _).trans ?_
  exact (Op.bind_ok (Op.syncAddress_ok space ok)).trans ((Op.bind_get _).trans (Op.bind_ok (homeOf_ok home)))

theorem State.parkClaim_cx (s : State) (c : Chain) (p : Park) (x : RegNum) (h4 : s.cur.2 < 4) : ((s.parkMe c p).modMe (Op.claim x)).me.cx = s.me.cx := by
  rw [State.parkClaim_eq _ _ _ _ h4]
  exact (congrArg Thread.cx (s.thread_modThread s.cur.1 s.cur.2 (Waits.onThread _) h4) :)

/-- What the bank leaves of an atomic that it performs is its completion. -/
theorem atomic_completes {p : Park} {cx : Bool} (words : n = 4 ∨ n = 8) (h4 : u.cur.2 < 4) (plain : u.shadows u.cur.1 key = false) (free : bankFree u key = true)
    (turn : op = .faddo → u.ticketOf key = some d2) (value : d.toNat % 2 ^ (8 * n) = v) (seen : u.viewN u.cur.1 key n = old)
    (result : atomicNew op n old v (d2.toNat % 2 ^ (8 * n)) = new) :
    ((u.parkMe c p).modMe (Op.claim x)).requestGrant
        { key := key, addr := addr, kind := .atomic op n d d2, dest := x, cx := cx, agent := u.cur.1, thread := u.cur.2 } =
      ((u.atomDone u.cur.1 u.cur.2 cx addr key n op v old new).dst x (BitVec.ofNat 64 old) (u.atomTurns u.cur.1 key op)).fell c := by
  have granted := State.grantOne_atomic (w := ⟨some p, u.after c, u.me.popped ++ u.me.held, [], (Op.claim x u.me).claims⟩) (cx := cx) (addr := addr) (x := x)
    words h4 plain value seen result
  have cur : (u.atomDone u.cur.1 u.cur.2 cx addr key n op v old new).cur = u.cur :=
    State.atomDone_outside (part := State.cur) (fun _ _ => rfl) (fun _ _ _ _ _ _ => rfl) fun _ _ => rfl
  have dst := congrArg (fun p : Nat × Nat => (u.atomDone u.cur.1 u.cur.2 cx addr key n op v old new).writeG p.1 p.2 x (BitVec.ofNat 64 old)
    (u.atomTurns u.cur.1 key op)) cur
  have left := (State.writeG_outside (part := State.resv) (fun _ _ => rfl) (u.atomDone u.cur.1 u.cur.2 cx addr key n op v old new) u.cur.1 u.cur.2 x
    (BitVec.ofNat 64 old) (u.atomTurns_ne_zero u.cur.1 key op)).trans
      (State.atomDone_outside (part := State.resv) (fun _ _ => rfl) (fun _ _ _ _ _ _ => rfl) fun _ _ => rfl)
  have eligible : u.eligible { key := key, addr := addr, kind := .atomic op n d d2, dest := x, cx := cx, agent := u.cur.1, thread := u.cur.2 } = true := by
    cases op with
    | faddo => exact beq_iff_eq.2 (turn rfl)
    | add | and | or | xor | min | max | minu | maxu | swap | cas | fadd => rfl
  rw [State.parkClaim_eq _ _ _ _ h4]
  refine Eq.trans (State.requestGrant_waits free eligible granted left) ?_
  refine (congrArg (fun t : State => t.modThread _ _ _) dst.symm).trans (State.fell_eq ((State.dst_cur ..).trans cur) ?_)
  refine (State.dst_part (part := Thread.pc) (fun _ => rfl) (fun _ _ _ => rfl) _ _ _ _).trans ?_
  rw [State.me, cur]
  exact State.atomDone_part (part := Thread.pc) (fun _ => rfl) (fun _ _ => rfl) _ _

/-- An atomic on a free doubleword, ordered ones in their turn, is performed at once. -/
theorem atomic_performed (h : s.admits settled c = true) (words : n = 4 ∨ n = 8) (paired : pair = (op == .cas || op == .faddo))
    (hr : s.atHand (if pair then [.g y, .g x, .g (x + 1)] else [.g y, .g x]) [.g x] = true) (at_ : (s.src y).1 = addr)
    (first : ((s.src y).2.src x).1 = d) (read : ((s.src y).2.src x).2.srcIf pair (x + 1) = (d2, u)) (ok : addressed u addr n Use.atomic = true)
    (space : State.syncSpace (op == .faddo) addr = true) (home : goesTo u addr Use.atomic key = true) (free : bankFree u key = true)
    (plain : u.shadows s.cur.1 key = false) (turn : op = .faddo → u.ticketOf key = some d2) (value : d.toNat % 2 ^ (8 * n) = v)
    (seen : u.viewN s.cur.1 key n = old) (result : atomicNew op n old v (d2.toNat % 2 ^ (8 * n)) = new) :
    issue settled c s (atomic c x y op n) =
      .next ((((used u addr).atomDone s.cur.1 s.cur.2 s.me.cx addr key n op v old new).dst x (BitVec.ofNat 64 old) (u.atomTurns s.cur.1 key op)).fell c) := by
  have h4 := State.admits_lt h
  have after : (((s.src y).2.src x).2.srcIf pair (x + 1)).2 = u := congrArg Prod.snd read
  have cur1 : ((s.src y).2.src x).2.cur = s.cur := (State.src_cur ..).trans (s.src_cur y)
  have cur : (used u addr).cur = s.cur := by rw [used_cur, ← after, State.srcIf_cur, cur1]
  have cx : (used u addr).me.cx = s.me.cx := by
    rw [used_me, ← after, State.srcIf_part (part := Thread.cx) (fun _ _ _ => rfl) _ _ _ (by rwa [cur1]), State.src_cx _ _ (by rwa [s.src_cur y]), s.src_cx y h4]
  have h4' : (used u addr).cur.2 < 4 := by rwa [cur]
  have next : op = .faddo → (used u addr).ticketOf key = some d2 := fun o => (ticketOf_used u addr key).trans (turn o)
  have turns : (used u addr).atomTurns s.cur.1 key op = u.atomTurns s.cur.1 key op :=
    State.atomTurns_congr key op (used_part (part := fun t => t.cyc s.cur.1) (fun _ _ => rfl) u addr)
  rw [← cur] at plain seen
  rw [atomic_asks h paired hr at_ first read ok space home, State.parkClaim_cx _ _ _ _ h4',
    atomic_completes words h4' ((shadows_used ..).trans plain) ((bankFree_used ..).trans free) next value ((viewN_used ..).trans seen) result, cx, cur, turns]

/-- Where an agent sees its own memory, its store is one at its home. -/
theorem State.atomStored_eq_store {s : State} {a : Nat} (plain : s.shadows a key = false) (cx : Bool) :
    s.atomStored a cx addr key n op v new = (match new with
      | some new => (s.digest a cx addr n (if op.counts then v else new)).store key n new
      | none => s.rollWatchers key n) := by
  cases new with
  | some new =>
    unfold atomStored
    dsimp only
    rw [storeAs, shadows_digest, plain, if_neg Bool.false_ne_true]
  | none => rfl

/-- Settles O13: the request is granted in the step that queues it, and the bank computes as it grants. -/
theorem atomicResult : Obligations.AtomicResult := by
  intro i c x y n op pair s key form h hr u1 u addr v v2 old ok space home free plain turn
  obtain ⟨run, paired, words⟩ := exec_atomicOf form
  have read : u1.srcIf pair (x + 1) = (v2, u) := by
    unfold v2 u
    cases pair <;> rfl
  have performed := atomic_performed h words paired hr rfl rfl read ok space home free plain turn rfl rfl rfl
  refine (congrFun run s).trans (performed.trans ?_)
  unfold State.atomDone State.atomStepped
  rw [State.atomStored_eq_store ((shadows_used ..).trans plain)] <;> rfl

end
end Sys2Proof.Machine
end

section
/-! SCH and SCO (R202, R209): a thread hands on the doubleword that it holds, or reports why it cannot. -/

namespace Sys2Proof.Machine

open Sys2Proof.Claims

section
variable {s u : State} {c : Chain} {x y : RegNum} {kind : BitVec 8} {ordered : Bool} {addr v : Word} {key : Nat}

/-- What SCH and SCO do at a doubleword of this module, and the status that they report. -/
def State.handedOff (s : State) (kind : BitVec 8) (ordered : Bool) (addr v : Word) (key : Nat) : State × Word :=
  if s.me.sync.heldKind == kind && s.me.sync.heldAddr == addr then
    if s.me.sync.revoked then (s.modMe fun t => { t with sync := {} }, 1)
    else (handWord s (.at key) addr v ordered, 0)
  else (s, 2)

/-- A counted store, of which an ordered thread steps the ticket (R209). -/
def State.storedIn (s : State) (ordered : Bool) (addr : Word) (key v : Nat) : State :=
  if ordered then (stored s addr key 8 v).ticketStep key else stored s addr key 8 v

theorem State.storedIn_cur (s : State) (ordered : Bool) (addr : Word) (key v : Nat) : (s.storedIn ordered addr key v).cur = s.cur := by
  cases ordered <;> exact stored_cur s addr key 8 v

section
variable (s : State)

/-- Its own reservation: the store, and the doubleword goes on. -/
theorem State.handedOff_own (hkind : s.me.sync.heldKind = kind) (haddr : s.me.sync.heldAddr = addr) (stands : s.me.sync.revoked = false) :
    s.handedOff kind ordered addr v key = ((s.storedIn ordered addr key v.toNat).dropHold s.cur.1 s.cur.2 false, 0) := by
  have word : handWord s (.at key) addr v ordered = (s.storedIn ordered addr key v.toNat).dropHold s.cur.1 (s.storedIn ordered addr key v.toNat).cur.2 false := rfl
  rw [handedOff, hkind, haddr, beq_self_eq_true, beq_self_eq_true, Bool.and_self, if_pos rfl, stands, if_neg Bool.false_ne_true, word, storedIn_cur]

/-- A revoked one: the record is emptied. -/
theorem State.handedOff_revoked (hkind : s.me.sync.heldKind = kind) (haddr : s.me.sync.heldAddr = addr) (lost : s.me.sync.revoked = true) :
    s.handedOff kind ordered addr v key = (s.modMe fun t => { t with sync := {} }, 1) := by
  rw [handedOff, hkind, haddr, beq_self_eq_true, beq_self_eq_true, Bool.and_self, if_pos rfl, lost, if_pos rfl]

/-- No reservation there. -/
theorem State.handedOff_other (other : s.me.sync.heldKind ≠ kind ∨ s.me.sync.heldAddr ≠ addr) : s.handedOff kind ordered addr v key = (s, 2) := by
  refine if_neg fun mine => ?_
  simp only [Bool.and_eq_true, beq_iff_eq] at mine
  exact other.elim (· mine.1) (· mine.2)

end

theorem handOff_performed (h : s.admits settled c = true) (hr : s.atHand [.g y, .g x] [.g x] = true) (read : ((s.src y).2.src x).2 = u)
    (at_ : (s.src y).1 = addr) (value : ((s.src y).2.src x).1 = v) (ok : addressed u addr 8 Use.atomic = true) (space : State.syncSpace ordered addr = true)
    (home : goesTo u addr Use.atomic key = true) :
    issue settled c s (handOff c x y kind ordered) =
      .next ((((used u addr).handedOff kind ordered addr v key).1.dst x ((used u addr).handedOff kind ordered addr v key).2).fell c) := by
  have held := (s.src_held y (State.admits_lt h)).trans (State.atHand_held hr)
  rw [issue_admitted h]
  unfold handOff
  refine Op.run_ok (Op.claiming_ok ?_)
  rw [Op.bind_ok (Op.need_ok hr), Op.bind_ok (Op.readG_ok y (State.atHand_held hr)), at_, Op.bind_ok (Op.readG_ok x held), read, value]
  refine (Op.bind_ok (Op.syncAddress_ok space ok)).trans ((Op.bind_ok (homeOf_ok home)).trans ((Op.bind_get _).trans ?_))
  have here : (Home.at key == Home.pod) = false := rfl
  have here' : (Home.at key == Home.void) = false := rfl
  unfold State.handedOff
  dsimp only
  simp only [here, here', Bool.false_and, Bool.or_false, Bool.false_or, Bool.false_eq_true, if_false]
  cases mine : (used u addr).me.sync.heldKind == kind && (used u addr).me.sync.heldAddr == addr with
  | false => rfl
  | true =>
    cases (used u addr).me.sync.revoked with
    | true => rfl
    | false => rfl

/-- Reading operands leaves a thread's reservation. -/
theorem State.sync_reads (s : State) (y x : RegNum) (h4 : s.cur.2 < 4) (addr : Word) : (used ((s.src y).2.src x).2 addr).me.sync = s.me.sync := by
  rw [used_me, State.src_part (part := Thread.sync) (fun _ _ _ => rfl) _ x (by rwa [s.src_cur y]), s.src_part (part := Thread.sync) (fun _ _ _ => rfl) y h4]

theorem exec_handOff (ordered : Bool) (c : Chain) (x y : RegNum) (s : State) :
    exec (if ordered then .sco c x y else .sch c x y) s = issue settled c s (handOff c x y (if ordered then 2 else 1) ordered) := by
  cases ordered <;> rfl

/-- Settles O12: the record of the thread decides which of the three it is. -/
theorem handOffResult : Obligations.HandOffResult := by
  intro c x y s key ordered h hr i kind u addr v ok space home
  have sync : (used u addr).me.sync = s.me.sync := s.sync_reads y x (State.admits_lt h) addr
  have cur : (used u addr).cur = s.cur := (used_cur ..).trans ((State.src_cur ..).trans (s.src_cur y))
  have run : exec i s = _ := (exec_handOff ordered c x y s).trans (handOff_performed h hr rfl rfl rfl ok space home)
  rw [run]
  refine ⟨fun hkind haddr stands => ?_, fun hkind haddr lost => ?_, fun other => ?_⟩
  · rw [State.handedOff_own _ (by rw [sync]; exact hkind) (by rw [sync]; exact haddr) (by rw [sync]; exact stands), cur]
    rfl
  · rw [State.handedOff_revoked _ (by rw [sync]; exact hkind) (by rw [sync]; exact haddr) (by rw [sync]; exact lost)]
  · rw [State.handedOff_other _ (by rw [sync]; exact other)]

end
end Sys2Proof.Machine
end

section
/-! Frames of the instructions that also change flags, a reservation, or what the banks keep: what they change beside their operands is changed in the state
that they start from, and the rules for the accesses do the rest. -/

namespace Sys2Proof.Machine

open Sys2Proof.Claims

/-! ### A change of the issuing thread's flags or reservation -/

theorem apart_of_ne {b u : Nat} {p : Nat × Nat} (other : (b, u) ≠ p) : p.1 ≠ b ∨ p.2 ≠ u := by
  by_contra same
  push Not at same
  exact other (Prod.ext same.1.symm same.2.symm)

/-- A change of a thread that leaves its registers, and of what no access changes depends on that alone. -/
structure Steers (f : Thread → Thread) : Prop where
  firm : ∀ {t u : Thread}, u.firm = t.firm → (f u).firm = (f t).firm
  g : ∀ t, (f t).g = t.g
  v : ∀ t, (f t).v = t.v
  q : ∀ t, (f t).q = t.q

namespace Steers

theorem raise (fl : BitVec 5) : Steers fun t => { t with fst := t.fst ||| fl } where
  firm e := congrArg (fun (q, tst, fctl, fst, rest) => (q, tst, fctl, fst ||| fl, rest)) e
  g _ := rfl
  v _ := rfl
  q _ := rfl

theorem sync (r : SyncRec) : Steers fun t => { t with sync := r } where
  firm e := congrArg (fun (q, tst, fctl, fst, srkey, srcnt, tcause, tepc, tval, tvec, tscratch, live, cx, _, rest) =>
    (q, tst, fctl, fst, srkey, srcnt, tcause, tepc, tval, tvec, tscratch, live, cx, r, rest)) e
  g _ := rfl
  v _ := rfl
  q _ := rfl

end Steers

/-- A state with other holders and tickets at its banks. -/
def State.withBanks (s : State) (holders : List Holder) (orders : List OrderEntry) : State := { s with holders := holders, orders := orders }

/-- A state, and one that differs from it in the issuing thread's flags and reservation and in the banks' holders and tickets alone. -/
structure Retouched (s r : State) : Prop where
  cur : r.cur = s.cur
  mem : r.mem = s.mem
  regs : r.me.g = s.me.g ∧ r.me.v = s.me.v ∧ r.me.q = s.me.q
  others : ∀ b u, (b, u) ≠ s.cur → r.thread b u = s.thread b u
  tiles : ∀ b, (r.tile b).unthreaded = (s.tile b).unthreaded
  machine : (r.withBanks s.holders s.orders).machine = s.machine

namespace Retouched
variable {s r : State}

theorem refl (s : State) : Retouched s s := ⟨rfl, rfl, ⟨rfl, rfl, rfl⟩, fun _ _ _ => rfl, fun _ => rfl, rfl⟩

theorem banks (h : Retouched s r) (holders : List Holder) (orders : List OrderEntry) : Retouched s (r.withBanks holders orders) :=
  ⟨h.cur, h.mem, h.regs, h.others, h.tiles, h.machine⟩

theorem modMe (h : Retouched s r) (h4 : s.cur.2 < 4) {f : Thread → Thread} (steers : Steers f) : Retouched s (r.modMe f) where
  cur := h.cur
  mem := h.mem
  regs := by
    obtain ⟨g, v, q⟩ := h.regs
    have me : (r.modMe f).me = f r.me := State.thread_modThread _ _ _ _ (by rwa [h.cur])
    rw [me, steers.g, steers.v, steers.q]
    exact ⟨g, v, q⟩
  others b u other := (r.thread_modThread_ne f (by rw [h.cur]; exact apart_of_ne other)).trans (h.others b u other)
  tiles b := (r.tile_modThread_part r.cur.1 r.cur.2 (part := Tile.unthreaded) (fun _ _ => rfl) b f).trans (h.tiles b)
  machine := h.machine

theorem raise (h : Retouched s r) (h4 : s.cur.2 < 4) (fl : BitVec 5) : Retouched s (r.raise r.cur.1 r.cur.2 fl) := by
  unfold State.raise
  split
  · exact h
  · exact h.modMe h4 (.raise fl)

end Retouched

theorem ThreadFrame.both {dests : List OpRef} {t u : Thread} (h : ThreadFrame dests t u) {f : Thread → Thread} (steers : Steers f) :
    ThreadFrame dests (f t) (f u) where
  firm := steers.firm h.firm
  general n := by rw [steers.g, steers.g]; exact h.general n
  vector n := by rw [steers.v, steers.v]; exact h.vector n

theorem TileFrame.both {reads dests : List OpRef} {p : List Push} {o n : Tile} (h : TileFrame reads dests p o n) (l m : Vector Thread 4) :
    TileFrame reads dests p { o with threads := l } { n with threads := m } :=
  ⟨h.firm, h.schange, h.inbox, h.ln, h.lp, h.streams, h.pushes⟩

/-- A tile that differs in its threads alone. -/
theorem TileFrame.of_unthreaded {reads dests : List OpRef} {o n : Tile} (h : n.unthreaded = o.unthreaded) : TileFrame reads dests [] o n := by
  have same : n = { o with threads := n.threads, digest := o.digest } := (Tile.threaded_of_unthreaded h.symm).symm
  rw [same]
  exact .inside _ _ _

namespace Framed
variable {reads dests : List OpRef} {stores : Nat → Prop} {p : List Push} {s t r w : State}

theorem banks (h : Framed reads dests stores p s t) (holders : List Holder) (orders : List OrderEntry) :
    Framed reads dests stores p (s.withBanks holders orders) (t.withBanks holders orders) :=
  ⟨h.cur, h.me, h.others, h.tile, h.tiles,
    congrArg (fun (sites, grids, gangs, net, _, _, rest) => (sites, grids, gangs, net, holders, orders, rest)) h.machine, h.bytes, h.homes⟩

/-- A change of the issuing thread on both sides. -/
theorem both (h : Framed reads dests stores p s t) (h4 : s.cur.2 < 4) {f : Thread → Thread} (steers : Steers f) :
    Framed reads dests stores p (s.modMe f) (t.modMe f) where
  cur := h.cur
  me := by
    have own (u : State) (same : u.cur = s.cur) : (u.modMe f).me = f u.me := State.thread_modThread _ _ _ _ (by rwa [same])
    rw [own s rfl, own t h.cur]
    exact h.me.both steers
  others b u other := by
    have left (v : State) (same : v.cur = s.cur) : (v.modMe f).thread b u = v.thread b u :=
      v.thread_modThread_ne f (by rw [same]; exact apart_of_ne other)
    rw [left s rfl, left t h.cur]
    exact h.others b u other
  tile := by
    have own (v : State) (same : v.cur = s.cur) : (v.modMe f).tile s.cur.1 =
        { v.tile s.cur.1 with threads := vset (v.tile s.cur.1).threads v.cur.2 (f (vget (v.tile s.cur.1).threads v.cur.2 {})) } := by
      rw [← same]
      exact v.tile_modTile _ _
    rw [State.modMe_cur, own s rfl, own t h.cur]
    exact h.tile.both _ _
  tiles b other := by
    have left (v : State) : ((v.modMe f).tile b).unthreaded = (v.tile b).unthreaded :=
      v.tile_modThread_part _ _ (part := Tile.unthreaded) (fun _ _ => rfl) b f
    rw [left s, left t]
    exact h.tiles b other
  machine := h.machine
  bytes := h.bytes
  homes j k home := by
    have left (v : State) : (v.modMe f).overlayOf s.cur.1 = v.overlayOf s.cur.1 :=
      State.overlayOf_congr rfl (v.tile_modThread_part _ _ (part := Tile.firm) (fun _ _ => rfl) _ f)
    rw [State.modMe_cur, left] at home ⊢
    exact h.homes j k home

theorem raise (h : Framed reads dests stores p s t) (h4 : s.cur.2 < 4) (fl : BitVec 5) :
    Framed reads dests stores p (s.raise s.cur.1 s.cur.2 fl) (t.raise t.cur.1 t.cur.2 fl) := by
  unfold State.raise
  rw [h.cur]
  split
  · exact h
  · have lifted := h.both h4 (.raise fl)
    unfold State.modMe at lifted
    rwa [h.cur] at lifted

/-- What follows of the frame from a state that is retouched. -/
theorem frame_of (h : Framed reads dests stores p r t) (named : Pushed r dests p) (touched : Retouched s r) :
    frame s (t.withBanks s.holders s.orders) reads dests [] stores := by
  obtain ⟨g, v, q⟩ := touched.regs
  have machine : (t.withBanks s.holders s.orders).machine = s.machine :=
    (h.banks s.holders s.orders).machine.trans touched.machine
  have parts (T : State) (cur : T.cur = s.cur) (e : T.machine = s.machine) : keepsMachine s T := by
    simp only [State.machine, Prod.mk.injEq] at e
    exact ⟨cur, e⟩
  have tile : TileFrame reads dests p (s.tile s.cur.1) (t.tile s.cur.1) :=
    (TileFrame.of_unthreaded (touched.tiles s.cur.1)).trans (by rw [← touched.cur]; exact h.tile)
  have pushes : pushesOnly s t dests := by
    have all := tile.pushes
    unfold pushesOnly
    obtain rfl | ⟨q, x, rfl, thread, dest, to_⟩ := named
    · exact .inl (all.trans (List.append_nil _))
    · exact .inr ⟨q, x, all, thread.trans (congrArg Prod.snd touched.cur), dest, to_⟩
  have regs : keepsRegs dests [] s.me t.me := by
    have := h.me.regs
    unfold keepsRegs at this ⊢
    rwa [g, v, q] at this
  refine ⟨regs, fun b u _ other => unrolled_eq ?_, ?_, parts _ (h.cur.trans touched.cur) machine, fun k out => (h.bytes k out).trans (by rw [touched.mem])⟩
  · exact (h.others b u (by rwa [touched.cur])).trans (by rw [touched.others b u other])
  · exact ⟨Tile.refill_of_firm tile.firm, tile.schange, tile.inbox, tile.ln, tile.lp, tile.streams, pushes,
      fun b other => Tile.threaded_of_unthreaded ((h.tiles b (by rwa [touched.cur])).trans (touched.tiles b))⟩

/-- An instruction that changes such parts, writes its result and completes. -/
theorem keeps_of_touched (touched : Retouched s r) (before : Framed reads dests stores [] r w)
    (written : ∃ pushed, Pushed w dests pushed ∧ Framed reads dests stores pushed w t) (c : Chain) :
    frame s ((t.fell c).withBanks s.holders s.orders) reads dests [] stores ∧ keepsControls r.me (t.fell c).me ∧ keepsRest r.me (t.fell c).me ∧
      (t.fell c).holders = r.holders ∧ (t.fell c).orders = r.orders := by
  obtain ⟨pushed, named, result⟩ := written
  have all := (before.trans result).trans (fell t c)
  rw [List.append_nil, List.nil_append] at all
  obtain ⟨controls, rest⟩ := all.me.controls
  have machine := all.machine
  simp only [State.machine, Prod.mk.injEq] at machine
  obtain ⟨-, -, -, -, holders, orders, -⟩ := machine
  exact ⟨all.frame_of (named.of_cur before.cur) touched, controls, rest, holders, orders⟩

end Framed
end Sys2Proof.Machine
end

section
/-! The frames of the synchronisation instructions (R102, R180, R195, R196, R199, R201, R202, R207 to R212). -/

namespace Sys2Proof.Machine

open Sys2Proof.Claims

/-! ### Atomics -/

section
variable {reads dests : List OpRef} {stores : Nat → Prop} {s w : State}

theorem Framed.srcIf (s : State) {b : Bool} {x : RegNum} (read : b = true → .g x ∈ reads) : Framed reads dests stores [] s (s.srcIf b x).2 := by
  cases b with
  | true => exact src s (read rfl)
  | false => exact refl s

theorem State.full_srcIf (s : State) (b : Bool) (x : RegNum) : (s.srcIf b x).2.full = s.full := by
  cases b with
  | true => exact s.full_src x
  | false => rfl

/-- What an atomic stores in its thread's own view stands at its key. -/
theorem Framed.atomStored (w : State) {cx : Bool} {addr : Word} {key n v : Nat} {op : AtomOp} {new : Option Nat} (plain : w.shadows w.cur.1 key = false)
    (own : ∀ k, at_ key n k → stores k) : Framed reads dests stores [] w (w.atomStored w.cur.1 cx addr key n op v new) := by
  cases new with
  | none => exact rollWhere w _
  | some new =>
    have counted (term : Nat) : Framed reads dests stores [] w (w.digest w.cur.1 cx addr n term) := digest w cx addr n term
    have same (term : Nat) : (w.digest w.cur.1 cx addr n term).cur = w.cur := State.digest_cur ..
    have stands (u : State) (cur : u.cur = w.cur) (plain : u.shadows w.cur.1 key = false) (m : Nat) :
        Framed reads dests stores [] u (u.storeAs w.cur.1 key n m) := by
      rw [← cur]
      refine storeAs u fun k at_k => own k ?_
      rwa [storedAt, cur, plain, if_neg Bool.false_ne_true] at at_k
    exact (counted _).trans (stands _ (same _) ((State.shadows_digest ..).trans plain) new)

theorem State.raise_me (h4 : s.cur.2 < 4) (fl : BitVec 5) : ∃ f, (s.raise s.cur.1 s.cur.2 fl).me = { s.me with fst := s.me.fst ||| f } := by
  unfold raise
  split
  · exact ⟨0#5, (congrArg (fun f => { s.me with fst := f }) BitVec.or_zero).symm⟩
  · exact ⟨fl, s.thread_modThread _ _ _ h4⟩

theorem State.withBanks_self {t : State} {holders : List Holder} {orders : List OrderEntry} (hh : t.holders = holders) (ho : t.orders = orders) :
    t.withBanks holders orders = t := by
  subst hh ho
  rfl

theorem State.withBanks_orders {t : State} (holders : List Holder) {orders : List OrderEntry} (ho : t.orders = orders) :
    t.withBanks holders orders = { t with holders := holders } := by
  subst ho
  rfl

theorem State.withBanks_holders {t : State} {holders : List Holder} (orders : List OrderEntry) (hh : t.holders = holders) :
    t.withBanks holders orders = { t with orders := orders } := by
  subst hh
  rfl

/-- Flags that are raised keep those that stood. -/
theorem or_and_left_self {n : Nat} (a b : BitVec n) : (a ||| b) &&& a = a := by
  ext i
  simpa using Or.inl

/-- An atomic starts from flags that are raised and, where it is ordered, from its next ticket. -/
theorem Framed.atomDone (before : Framed reads dests stores [] s w) (h4 : s.cur.2 < 4) (cx : Bool) (addr : Word) {key n : Nat} (v old : Nat) (op : AtomOp)
    (new : Option Nat) (plain : w.shadows w.cur.1 key = false) (own : ∀ k, at_ key n k → stores k) :
    ∃ orders, (op ≠ .faddo → orders = s.orders) ∧ Framed reads dests stores [] ((s.withBanks s.holders orders).raise s.cur.1 s.cur.2 (atomicFlags op n old v))
      (w.atomDone w.cur.1 w.cur.2 cx addr key n op v old new) := by
  have all : Framed reads dests stores [] s (w.atomStored w.cur.1 cx addr key n op v new) := before.trans (.atomStored w plain own)
  rw [State.atomDone]
  generalize w.atomStored w.cur.1 cx addr key n op v new = m at all ⊢
  have machine := all.machine
  simp only [State.machine, Prod.mk.injEq] at machine
  obtain ⟨-, -, -, -, holders, orders, -⟩ := machine
  refine ⟨(m.atomStepped key op).orders, fun unordered => (congrArg State.orders (if_neg unordered)).trans orders, ?_⟩
  have stepped : m.atomStepped key op = m.withBanks s.holders (m.atomStepped key op).orders := (m.atomStepped_eq key op).trans (by rw [State.withBanks, ← holders])
  have raised : Framed reads dests stores [] ((s.withBanks s.holders (m.atomStepped key op).orders).raise s.cur.1 s.cur.2 (atomicFlags op n old v))
      ((m.withBanks s.holders (m.atomStepped key op).orders).raise m.cur.1 m.cur.2 (atomicFlags op n old v)) :=
    (all.banks s.holders (m.atomStepped key op).orders).raise h4 (atomicFlags op n old v)
  rw [← stepped, all.cur] at raised
  rw [before.cur]
  exact raised

end

section
variable {s t u : State} {c : Chain} {x y : RegNum} {n : Nat} {op : AtomOp} {pair : Bool} {addr d2 : Word} {key : Nat}

theorem atomic_frame (h : s.admits settled c = true) (words : n = 4 ∨ n = 8) (paired : pair = (op == .cas || op == .faddo))
    (hr : s.atHand (if pair then [.g y, .g x, .g (x + 1)] else [.g y, .g x]) [.g x] = true) (at_ : (s.src y).1 = addr)
    (read : ((s.src y).2.src x).2.srcIf pair (x + 1) = (d2, u)) (ok : addressed u addr n Use.atomic = true)
    (space : State.syncSpace (op == .faddo) addr = true) (home : goesTo u addr Use.atomic key = true) (free : bankFree u key = true)
    (plain : u.shadows s.cur.1 key = false) (turn : op = .faddo → u.ticketOf key = some d2) (run : issue settled c s (atomic c x y op n) = .next t) :
    keepsRegs [.g x] [] s.me t.me ∧ keepsControls s.me { t.me with fst := s.me.fst } ∧ t.me.fst &&& s.me.fst = s.me.fst ∧ keepsRest s.me t.me ∧
      keepsTiles s t (if pair then [.g y, .g x, .g (x + 1)] else [.g y, .g x]) [.g x] ∧ (op ≠ .faddo → keepsOthers s t ∧ keepsMachine s t ∧ t.full = s.full) ∧
      keepsBytes s t (Claims.at_ key n) := by
  have h4 := State.admits_lt h
  obtain ⟨v, value⟩ : ∃ v, ((s.src y).2.src x).1.toNat % 2 ^ (8 * n) = v := ⟨_, rfl⟩
  obtain ⟨old, seen⟩ : ∃ old, u.viewN s.cur.1 key n = old := ⟨_, rfl⟩
  obtain ⟨new, result⟩ : ∃ new, atomicNew op n old v (d2.toNat % 2 ^ (8 * n)) = new := ⟨_, rfl⟩
  have performed := atomic_performed h words paired hr at_ rfl read ok space home free plain turn value seen result
  obtain rfl := Host.Outcome.next.inj (run.symm.trans performed)
  have later := u.atomTurns_ne_zero s.cur.1 key op
  have after : (((s.src y).2.src x).2.srcIf pair (x + 1)).2 = u := congrArg Prod.snd read
  have before : Framed (if pair then [.g y, .g x, .g (x + 1)] else [.g y, .g x]) [.g x] (Claims.at_ key n) [] s (used u addr) := by
    rw [← after]
    exact (Framed.src s (by cases pair <;> simp)).trans ((Framed.src _ (by cases pair <;> simp)).trans ((Framed.srcIf _ (by rintro rfl; simp)).trans (.used _ _)))
  have inView : (used u addr).shadows (used u addr).cur.1 key = false := by rw [shadows_used, before.cur]; exact plain
  obtain ⟨orders, unordered, done⟩ := before.atomDone h4 s.me.cx addr v old op new inView fun _ at_k => at_k
  rw [before.cur] at done
  have touched := ((Retouched.refl s).banks s.holders orders).raise h4 (atomicFlags op n old v)
  obtain ⟨framed, controls, rest, holders', orders'⟩ :=
    Framed.keeps_of_touched touched done (Framed.dst _ (List.mem_singleton_self _) (BitVec.ofNat 64 old) later) c
  obtain ⟨f, me⟩ := State.raise_me (s := s.withBanks s.holders orders) h4 (atomicFlags op n old v)
  rw [me] at controls rest
  obtain ⟨regs, others, tiles, machine, bytes⟩ := framed
  obtain ⟨tst, fctl, fst, above⟩ := controls
  refine ⟨regs, ⟨tst, fctl, rfl, above⟩, ?_, rest, tiles, fun plainly => ⟨others, ?_, ?_⟩, bytes⟩
  · exact (congrArg (· &&& s.me.fst) fst).trans (or_and_left_self ..)
  · rwa [State.withBanks_self (holders := s.holders) (orders := s.orders) (holders'.trans (State.raise_outside (part := State.holders) _ _ _ _ fun _ _ => rfl))
      (orders'.trans ((State.raise_outside (part := State.orders) _ _ _ _ fun _ _ => rfl).trans (unordered plainly)))] at machine
  · have stored := State.atomDone_outside (part := State.full) (s := used u addr) (a := s.cur.1) (th := s.cur.2) (cx := s.me.cx) (addr := addr) (key := key)
      (n := n) (op := op) (v := v) (old := old) (new := new) (fun _ _ => rfl) (fun _ _ _ _ _ _ => rfl) fun _ _ => rfl
    refine (State.full_dst _ x _ later).trans (stored.trans ((State.full_used ..).trans ?_))
    rw [← after]
    exact (State.full_srcIf ..).trans ((State.full_src ..).trans (s.full_src y))

end

/-! ### Reservations -/

section
variable {reads dests : List OpRef} {stores : Nat → Prop} {s r t u w : State} {c : Chain} {x y : RegNum} {ordered : Bool} {addr v : Word} {key : Nat}

/-- An instruction that changes the reservation of its thread and what its bank keeps, writes its result and completes. -/
theorem Framed.keeps_of_resync (touched : Retouched s r) {q : SyncRec} (me : r.me = { s.me with sync := q }) (before : Framed reads dests stores [] r w)
    (written : ∃ pushed, Pushed w dests pushed ∧ Framed reads dests stores pushed w t) (c : Chain) :
    frame s ((t.fell c).withBanks s.holders s.orders) reads dests [] stores ∧ keepsControls s.me (t.fell c).me ∧
      keepsRest s.me { (t.fell c).me with sync := s.me.sync } ∧ (t.fell c).orders = r.orders := by
  obtain ⟨framed, controls, rest, -, orders⟩ := keeps_of_touched touched before written c
  rw [me] at controls rest
  obtain ⟨live, cx, -, above⟩ := rest
  exact ⟨framed, controls, ⟨live, cx, rfl, above⟩, orders⟩

/-- A thread holds a doubleword, or none any more. -/
theorem Framed.resync (h : Framed reads dests stores [] s w) (h4 : s.cur.2 < 4) (holders : List Holder) (orders : List OrderEntry) (q : SyncRec) :
    Framed reads dests stores [] ((s.withBanks holders orders).modMe fun t => { t with sync := q }) ((w.withBanks holders orders).modMe fun t => { t with sync := q }) :=
  (h.banks holders orders).both h4 (.sync q)

theorem Retouched.resync (s : State) (h4 : s.cur.2 < 4) (holders : List Holder) (orders : List OrderEntry) (q : SyncRec) :
    Retouched s ((s.withBanks holders orders).modMe fun t => { t with sync := q }) := ((refl s).banks holders orders).modMe h4 (.sync q)

theorem State.resync_me (s : State) (h4 : s.cur.2 < 4) (holders : List Holder) (orders : List OrderEntry) (q : SyncRec) :
    ((s.withBanks holders orders).modMe fun t => { t with sync := q }).me = { s.me with sync := q } := (s.withBanks holders orders).thread_modThread _ _ _ h4

theorem reserve_frame (h : s.admits settled c = true) (hr : s.atHand (if ordered then [.g y, .g x] else [.g y]) [.g x] = true) (idle : s.me.sync = {})
    (read : (s.src y).2.srcIf ordered x = (v, u)) (at_ : (s.src y).1 = addr) (ok : addressed u addr 8 Use.atomic = true)
    (space : State.syncSpace ordered addr = true) (home : goesTo u addr Use.atomic key = true) (free : bankFree u key = true)
    (turn : ordered = true → u.ticketOf key = some v) (run : issue settled c s (reserve c x y ordered) = .next t) :
    frame s { t with holders := s.holders } [.g y, .g x] [.g x] [] (fun _ => False) ∧ keepsControls s.me t.me ∧ keepsRest s.me { t.me with sync := s.me.sync } ∧
      t.full = s.full := by
  have h4 := State.admits_lt h
  obtain rfl := Host.Outcome.next.inj (run.symm.trans (reserve_granted h hr idle read at_ ok space home free turn))
  have later := u.homeTurns_ne_zero (used u addr).cur.1 key
  have after : ((s.src y).2.srcIf ordered x).2 = u := congrArg Prod.snd read
  have before : Framed [.g y, .g x] [.g x] (fun _ => False) [] s (used u addr) := by
    rw [← after]
    exact (Framed.src s (by simp)).trans ((Framed.srcIf _ fun _ => by simp).trans (.used _ _))
  have machine := before.machine
  simp only [State.machine, Prod.mk.injEq] at machine
  obtain ⟨-, -, -, -, -, orders, -⟩ := machine
  obtain ⟨framed, controls, rest, orders'⟩ := Framed.keeps_of_resync (.resync s h4 _ _ _) (s.resync_me h4 _ _ _)
    (before.resync h4 ((used u addr).holders ++ [Holder.mk (State.dwordOf key) (used u addr).cur.1 (used u addr).cur.2]) (used u addr).orders
      (State.holdRecord key addr ordered (if ordered then v else 0)))
    (Framed.dst _ (List.mem_singleton_self _) (BitVec.ofNat 64 (u.viewN (used u addr).cur.1 (State.dwordOf key) 8)) later) c
  rw [State.withBanks_orders _ (orders'.trans orders)] at framed
  refine ⟨framed, controls, rest, (State.full_dst _ x _ later).trans ((State.full_used ..).trans ?_)⟩
  rw [← after]
  exact (State.full_srcIf ..).trans (s.full_src y)

/-- Where nothing waits, what a thread gives up goes to nobody. -/
theorem State.dropHold_idle {a th : Nat} (idle : s.resv = []) :
    ∃ holders, s.dropHold a th false = (s.withBanks holders s.orders).modThread a th fun t => { t with sync := {} } := by
  unfold dropHold
  split
  · exact ⟨s.holders, rfl⟩
  · exact ⟨_, regrant_unasked (by rw [modThread_resv, idle]; rfl)⟩

theorem State.full_dropHold {a th : Nat} (idle : s.resv = []) : (s.dropHold a th false).full = s.full := by
  obtain ⟨_, e⟩ := dropHold_idle (s := s) (a := a) (th := th) idle
  rw [e]
  rfl

/-- A ticket step is one of its doubleword. -/
theorem State.ticketStep_orders (s : State) {key d : Nat} (other : d ≠ dwordOf key) :
    (s.ticketStep key).orders.filter (fun o => o.key == d) = s.orders.filter fun o => o.key == d := by
  unfold ticketStep mapIf
  dsimp only
  induction s.orders with
  | nil => rfl
  | cons o l ih =>
    rw [List.map_cons, List.filter_cons, List.filter_cons, ih]
    by_cases here : o.key = dwordOf key
    · simp [here, Ne.symm other]
    · simp [here]

theorem State.storedIn_eq (s : State) (ordered : Bool) (addr : Word) (key v : Nat) :
    s.storedIn ordered addr key v = { stored s addr key 8 v with orders := (s.storedIn ordered addr key v).orders } := by
  cases ordered <;> rfl

theorem State.storedIn_resv (s : State) (ordered : Bool) (addr : Word) (key v : Nat) : (s.storedIn ordered addr key v).resv = s.resv := by
  rw [storedIn_eq]
  exact (storeAs_outside (part := State.resv) (fun _ _ => rfl) (fun _ _ _ _ _ _ => rfl) ..).trans (digest_outside (part := State.resv) (fun _ _ => rfl) ..)

/-- What handing the doubleword on changes beside the stored bytes. -/
theorem Framed.handedOn (before : Framed reads dests stores [] s w) (h4 : s.cur.2 < 4) {n : Nat} (plain : w.shadows w.cur.1 key = false) (idle : w.resv = [])
    (own : ∀ k, at_ key 8 k → stores k) : ∃ r, Retouched s r ∧ r.me = { s.me with sync := {} } ∧
      Framed reads dests stores [] r ((w.storedIn ordered addr key n).dropHold w.cur.1 w.cur.2 false) ∧
      r.orders = (w.storedIn ordered addr key n).orders := by
  have stored : Framed reads dests stores [] s (Claims.stored w addr key 8 n) := before.trans (.stored w addr fun k at_k => own k (by
    rwa [storedAt, plain, if_neg Bool.false_ne_true] at at_k))
  obtain ⟨holders, e⟩ := State.dropHold_idle (s := w.storedIn ordered addr key n) (a := (w.storedIn ordered addr key n).cur.1)
    (th := (w.storedIn ordered addr key n).cur.2) ((w.storedIn_resv ..).trans idle)
  have result := stored.resync h4 holders (w.storedIn ordered addr key n).orders {}
  have same : (Claims.stored w addr key 8 n).withBanks holders (w.storedIn ordered addr key n).orders =
      (w.storedIn ordered addr key n).withBanks holders (w.storedIn ordered addr key n).orders := by
    conv_rhs => rw [State.storedIn_eq]
    rfl
  have cur : (w.storedIn ordered addr key n).cur = w.cur := State.storedIn_cur ..
  rw [same] at result
  rw [← cur, e]
  exact ⟨_, .resync s h4 _ _ _, s.resync_me h4 _ _ _, result, rfl⟩

theorem State.storedIn_orders (w : State) (ordered : Bool) (addr : Word) (n : Nat) {d : Nat} (other : d ≠ dwordOf key) :
    (w.storedIn ordered addr key n).orders.filter (fun o => o.key == d) = w.orders.filter fun o => o.key == d := by
  have kept : (stored w addr key 8 n).orders = w.orders :=
    (storeAs_outside (part := State.orders) (fun _ _ => rfl) (fun _ _ _ _ _ _ => rfl) ..).trans (digest_outside (part := State.orders) (fun _ _ => rfl) ..)
  cases ordered with
  | true => exact (ticketStep_orders _ other).trans (by rw [kept])
  | false => exact congrArg _ kept

/-- What handing on, or the report of a status, changes beside the stored bytes. -/
theorem Framed.handedOff (before : Framed reads dests stores [] s w) (h4 : s.cur.2 < 4) {kind : BitVec 8} (plain : w.shadows w.cur.1 key = false)
    (idle : w.resv = [])
    (own : w.me.sync.heldAddr = addr → w.me.sync.heldKind = kind → w.me.sync.revoked = false → ∀ k, at_ key 8 k → stores k) :
    ∃ r q, Retouched s r ∧ r.me = { s.me with sync := q } ∧ Framed reads dests stores [] r (w.handedOff kind ordered addr v key).1 ∧
      (∀ d, d ≠ State.dwordOf key → r.orders.filter (fun o => o.key == d) = s.orders.filter fun o => o.key == d) ∧
      (w.handedOff kind ordered addr v key).1.full = w.full := by
  have machine := before.machine
  simp only [State.machine, Prod.mk.injEq] at machine
  obtain ⟨-, -, -, -, -, kept, -⟩ := machine
  by_cases mine : w.me.sync.heldKind = kind ∧ w.me.sync.heldAddr = addr
  · obtain ⟨hkind, haddr⟩ := mine
    cases lost : w.me.sync.revoked with
    | true =>
      rw [State.handedOff_revoked w hkind haddr lost]
      exact ⟨_, _, .resync s h4 s.holders s.orders {}, s.resync_me h4 _ _ _, before.both h4 (.sync {}), fun _ _ => rfl, rfl⟩
    | false =>
      rw [State.handedOff_own w hkind haddr lost]
      obtain ⟨r, touched, me, result, orders⟩ := before.handedOn (ordered := ordered) (addr := addr) (n := v.toNat) h4 plain idle (own haddr hkind lost)
      refine ⟨r, {}, touched, me, result, fun d other => ?_, ?_⟩
      · rw [orders, State.storedIn_orders _ _ _ _ other, kept]
      · rw [State.full_dropHold ((w.storedIn_resv ..).trans idle), State.storedIn_eq]
        exact State.full_stored ..
  · rw [State.handedOff_other w (not_and_or.1 mine)]
    exact ⟨s, s.me.sync, .refl s, rfl, before, fun _ _ => rfl, rfl⟩

theorem handOff_frame {kind : BitVec 8} (h : s.admits settled c = true) (hr : s.atHand [.g y, .g x] [.g x] = true) (read : ((s.src y).2.src x).2 = u)
    (at_ : (s.src y).1 = addr) (ok : addressed u addr 8 Use.atomic = true) (space : State.syncSpace ordered addr = true)
    (home : goesTo u addr Use.atomic key = true) (plain : u.shadows s.cur.1 key = false) (idle : u.resv = [])
    (run : issue settled c s (handOff c x y kind ordered) = .next t) :
    frame s (t.withBanks s.holders s.orders) [.g y, .g x] [.g x] []
        (fun k => (s.me.sync.heldAddr = addr ∧ s.me.sync.heldKind = kind ∧ s.me.sync.revoked = false) ∧ Claims.at_ key 8 k) ∧
      keepsControls s.me t.me ∧ keepsRest s.me { t.me with sync := s.me.sync } ∧ t.full = s.full ∧
      ∀ d, d ≠ State.dwordOf key → t.orders.filter (fun o => o.key == d) = s.orders.filter fun o => o.key == d := by
  have h4 := State.admits_lt h
  obtain rfl := Host.Outcome.next.inj (run.symm.trans (handOff_performed h hr read at_ rfl ok space home))
  subst read
  have sync := s.sync_reads y x h4 addr
  have before {stores} : Framed [.g y, .g x] [.g x] stores [] s (used ((s.src y).2.src x).2 addr) := (Framed.reads s y x).trans (.used _ _)
  have inView : (used ((s.src y).2.src x).2 addr).shadows (used ((s.src y).2.src x).2 addr).cur.1 key = false := by
    rw [shadows_used, (before (stores := fun _ => True)).cur]
    exact plain
  have unasked : (used ((s.src y).2.src x).2 addr).resv = [] := (used_part (part := State.resv) (fun _ _ => rfl) ..).trans idle
  obtain ⟨r, q, touched, me, handed, tickets, full⟩ := before.handedOff (ordered := ordered) (v := ((s.src y).2.src x).1) (kind := kind) h4 inView unasked
    (stores := fun k => (s.me.sync.heldAddr = addr ∧ s.me.sync.heldKind = kind ∧ s.me.sync.revoked = false) ∧ Claims.at_ key 8 k)
    (by rw [sync]; exact fun haddr hkind stands k at_k => ⟨⟨haddr, hkind, stands⟩, at_k⟩)
  obtain ⟨framed, controls, rest, orders⟩ := Framed.keeps_of_resync touched me handed (Framed.dst _ (List.mem_singleton_self _) _ Nat.one_ne_zero) c
  refine ⟨framed, controls, rest, ?_, fun d other => (congrArg _ orders).trans (tickets d other)⟩
  exact (State.full_dst _ x _ Nat.one_ne_zero).trans (full.trans ((State.full_used ..).trans ((State.full_src ..).trans (s.full_src y))))

end

/-! ### WAITF, CLRF and OINIT -/

section
variable {s t u : State} {c : Chain} {x y : RegNum} {addr v : Word} {key : Nat}

theorem waitf_frame (h : s.admits settled c = true) (hr : s.atHand [.g y] [] = true) (alone : noFe (s.src y).2 key = true)
    (ok : addressed (s.src y).2 (s.src y).1 4 { read := true, fe := true, plain := false } = true)
    (home : goesTo (s.src y).2 (s.src y).1 { read := true, fe := true, plain := false } key = true) (full : (s.src y).2.isFull key = true)
    (run : exec (.waitf c y) s = .next t) :
    frame s t [.g y] [] [] (fun _ => False) ∧ keepsControls s.me t.me ∧ keepsRest s.me t.me ∧ t.full = s.full := by
  obtain rfl := Host.Outcome.next.inj (run.symm.trans (waitf_passes h hr rfl rfl ok home alone full))
  exact Framed.keeps ((Framed.read s y).trans ((Framed.used _ _).trans (.fell _ c))) (.inl rfl) ((State.full_used ..).trans (s.full_src y))

/-- CLRF of a word that a cruise re-run sees from outside its own pads leaves it. -/
theorem clrf_shadowed (h : s.admits settled c = true) (hr : s.atHand [.g y] [] = true) (read : (s.src y).2 = u) (at_ : (s.src y).1 = addr)
    (ok : addressed u addr 4 { write := true, fe := true, plain := false, parks := true, kind := .store } = true)
    (home : goesTo u addr { write := true, fe := true, plain := false, parks := true, kind := .store } key = true)
    (far : u.shadows u.cur.1 key = true) : exec (.clrf c y) s = .next ((used u addr).fell c) := by
  have checked := (Op.syncAddress_fe false rfl).trans (Op.checkAddress_ok (addressed_iff.1 ok))
  have found : Op.lift (u.resolve u.cur.1 u.cur.2 addr { write := true, fe := true, plain := false, parks := true, kind := .store }) u = .ok (.mem key, u) := by
    rw [goesTo_iff.1 home]
    rfl
  refine (issue_admitted h).trans (Op.run_ok ?_)
  rw [Op.bind_ok (Op.need_ok hr), Op.bind_ok (Op.readG_ok y (State.atHand_held hr)), read, at_]
  refine (Op.bind_ok checked).trans ((Op.bind_get _).trans ((Op.bind_ok found).trans ?_))
  dsimp only
  rw [far, if_pos rfl]
  rfl

theorem clrf_frame (h : s.admits settled c = true) (hr : s.atHand [.g y] [] = true) (alone : noFe (s.src y).2 key = true)
    (ok : addressed (s.src y).2 (s.src y).1 4 { write := true, fe := true, plain := false, parks := true, kind := .store } = true)
    (home : goesTo (s.src y).2 (s.src y).1 { write := true, fe := true, plain := false, parks := true, kind := .store } key = true)
    (run : exec (.clrf c y) s = .next t) :
    frame s t [.g y] [] [] (fun _ => False) ∧ keepsControls s.me t.me ∧ keepsRest s.me t.me ∧ ∀ w, w ≠ key → t.isFull w = s.isFull w := by
  have before := (Framed.read s y (dests := []) (stores := fun _ => False)).trans (.used _ (s.src y).1)
  have same (w : Nat) := State.isFull_congr ((State.full_used (s.src y).2 (s.src y).1).trans (s.full_src y)) w
  cases far : (s.src y).2.shadows (s.src y).2.cur.1 key with
  | true =>
    obtain rfl := Host.Outcome.next.inj (run.symm.trans (clrf_shadowed h hr rfl rfl ok home far))
    exact Framed.keeps (before.trans (.fell _ c)) (.inl rfl) fun w _ => same w
  | false =>
    obtain rfl := Host.Outcome.next.inj (run.symm.trans (clrf_performed h hr rfl rfl ok home alone far))
    have emptied : Framed [.g y] [] (fun _ => False) [] (used (s.src y).2 (s.src y).1) ((used (s.src y).2 (s.src y).1).setFull key false) :=
      .of_mem rfl rfl rfl rfl rfl
    exact Framed.keeps (before.trans (emptied.trans (.fell _ c))) (.inl rfl) fun w other => (State.isFull_setFull_ne _ other false).trans (same w)

/-- A ticket is set at its doubleword alone. -/
theorem State.ticketSet_orders (s : State) (key : Nat) (t : Word) :
    (s.ticketSet key t).orders.filter (fun o => o.key != dwordOf key) = s.orders.filter fun o => o.key != dwordOf key := by
  unfold ticketSet
  dsimp only
  split
  · simp
  · simp

theorem oinit_frame (h : s.admits settled c = true) (hr : s.atHand [.g y, .g x] [] = true) (ok : addressed ((s.src y).2.src x).2 (s.src y).1 8 Use.atomic = true)
    (space : State.syncSpace true (s.src y).1 = true) (home : goesTo ((s.src y).2.src x).2 (s.src y).1 Use.atomic key = true)
    (ready : ((s.src y).2.src x).2.oinitReady key ((s.src y).2.src x).1 = true) (free : bankFree ((s.src y).2.src x).2 key = true)
    (run : exec (.oinit c x y) s = .next t) :
    frame s { t with orders := s.orders } [.g y, .g x] [] [] (fun _ => False) ∧ keepsControls s.me t.me ∧ keepsRest s.me t.me ∧ t.full = s.full ∧
      t.orders.filter (fun o => o.key != State.dwordOf key) = s.orders.filter fun o => o.key != State.dwordOf key := by
  obtain rfl := Host.Outcome.next.inj (run.symm.trans (oinit_performed h hr rfl rfl rfl ok space home ready (.inr (resv_of_bankFree free))))
  have before := (Framed.reads s y x (dests := []) (stores := fun _ => False)).trans (.used _ (s.src y).1)
  have machine := before.machine
  simp only [State.machine, Prod.mk.injEq] at machine
  obtain ⟨-, -, -, -, holders, orders, -⟩ := machine
  obtain ⟨framed, controls, rest, holders', -⟩ := Framed.keeps_of_touched ((Retouched.refl s).banks s.holders _)
    (before.banks s.holders ((used ((s.src y).2.src x).2 (s.src y).1).ticketSet key ((s.src y).2.src x).1).orders) ⟨[], .inl rfl, .refl _⟩ c
  have set : (used ((s.src y).2.src x).2 (s.src y).1).withBanks s.holders ((used ((s.src y).2.src x).2 (s.src y).1).ticketSet key ((s.src y).2.src x).1).orders =
      (used ((s.src y).2.src x).2 (s.src y).1).ticketSet key ((s.src y).2.src x).1 := State.withBanks_holders _ holders
  rw [set] at framed controls rest holders'
  rw [State.withBanks_holders (holders := s.holders) _ holders'] at framed
  refine ⟨framed, controls, rest, (State.full_used ..).trans ((State.full_src ..).trans (s.full_src y)), ?_⟩
  exact (State.ticketSet_orders ..).trans (congrArg _ orders)

end

/-! ### TAKE -/

section
variable {s t u : State} {c : Chain} {x y : RegNum}

theorem ofNat_of_isShared : ∀ n : RegNum, isShared n = true → BitVec.ofNat 6 (32 + (n.toNat - 32)) = n := by decide

theorem take_frame (h : s.admits { held := true } c = true) (hr : s.atHand [.g y] [.g x] = true) (shared : isShared y = true)
    (run : exec (.take c x y) s = .next t) :
    frame s t [.g y] [.g x, .g y] [] (fun _ => False) ∧ keepsControls s.me t.me ∧ keepsRest s.me t.me ∧ t.full = s.full := by
  obtain rfl := Host.Outcome.next.inj (run.symm.trans (take_performed h hr shared))
  have emptied : Framed [.g y] [.g x, .g y] (fun _ => False) [] (s.src y).2
      ((s.src y).2.modTile s.cur.1 fun t => t.addChange ⟨y.toNat - 32, s.cyc s.cur.1 + 1, none, s.cur.2⟩) := by
    have change : Framed [.g y] [.g x, .g y] (fun _ => False) [] (s.src y).2
      ((s.src y).2.modTile (s.src y).2.cur.1 fun t => t.addChange ⟨y.toNat - 32, s.cyc s.cur.1 + 1, none, s.cur.2⟩) :=
      .modTile _ (fun _ => rfl) fun t => .addChange t (by rw [ofNat_of_isShared y shared]; simp)
    rwa [s.src_cur y] at change
  refine ((Framed.read s y).trans emptied).keeps_of_written (Framed.dst _ (by simp) _ Nat.one_ne_zero) c ?_
  exact (State.full_dst _ x _ Nat.one_ne_zero).trans (s.full_src y)

/-- What issues only where nothing is outstanding issues as well as what may leave it so. -/
theorem State.admits_drained (h : s.admits settled c = true) : s.admits { drained := true } c = true := by
  simp only [State.admits, settled] at h ⊢
  simp_all

theorem fence_frame {r : Op.Rules} {scope : Nat} (h : s.admits r c = true) (clear : s.fenceClear s.cur.1 s.cur.2 scope = true)
    (run : issue r c s (fenceOf c scope) = .next t) :
    frame s t [.g y] [] [] (fun _ => False) ∧ keepsControls s.me t.me ∧ keepsRest s.me t.me ∧ t.full = s.full := by
  obtain rfl := Host.Outcome.next.inj (run.symm.trans (fence_passes h clear))
  exact Framed.keeps (.fell s c) (.inl rfl) rfl

theorem waitc_frame {k : BitVec 4} (h : s.admits settled c = true) (hr : s.atHand [.g y] [] = true)
    (reached : (s.src y).1.toNat % 2 ^ 32 ≤ (vget ((s.src y).2.tile s.cur.1).c k.toNat 0).toNat) (run : exec (.waitc c k y) s = .next t) :
    frame s t [.g y] [] [] (fun _ => False) ∧ keepsControls s.me t.me ∧ keepsRest s.me t.me ∧ t.full = s.full := by
  obtain rfl := Host.Outcome.next.inj (run.symm.trans (waitc_passes h hr reached))
  exact Framed.keeps ((Framed.read s y).trans (.fell _ c)) (.inl rfl) (s.full_src y)

end

/-- Settles O47: each instruction is made of operations that keep what it does not name, from a state whose flags, reservation, holders and tickets are
those that it leaves. -/
theorem syncFrame : Obligations.SyncFrame := by
  refine ⟨?_, ?_, ?_, ?_, ?_, ?_, ?_⟩
  · intro i c x y n op pair s t key form h hr u1 u addr v2 ok space home free plain turn run
    obtain ⟨exec_i, paired, words⟩ := exec_atomicOf form
    have read : u1.srcIf pair (x + 1) = (v2, u) := by
      unfold v2 u
      cases pair <;> rfl
    exact atomic_frame h words paired hr rfl read ok space home free plain turn ((congrFun exec_i s).symm.trans run)
  · rintro i c x y s t key h idle (⟨rfl, hr⟩ | ⟨rfl, hr⟩) u addr ok space home free turn run
    · have read : (s.src y).2.srcIf false x = (0, u) := congrArg (Prod.mk 0) (if_pos rfl).symm
      rw [bne_self_eq_false] at space
      exact reserve_frame (ordered := false) h hr idle read rfl ok space home free nofun run
    · have other : Instr.lro c x y ≠ .lrw c x y := nofun
      have read : (s.src y).2.srcIf true x = (((s.src y).2.src x).1, u) := congrArg (Prod.mk _) (if_neg other).symm
      rw [bne_iff_ne.2 other] at space
      exact reserve_frame (ordered := true) h hr idle read rfl ok space home free (fun _ => turn rfl) run
  · rintro i c x y s t key h hr (rfl | rfl) u addr own ok space home plain idle - run
    · have other : Instr.sch c x y ≠ .sco c x y := nofun
      rw [beq_eq_false_iff_ne.2 other] at space
      have stores : own = (s.me.sync.heldAddr = addr ∧ s.me.sync.heldKind = 1 ∧ s.me.sync.revoked = false) := by
        unfold own
        rw [if_pos rfl]
      rw [stores]
      exact handOff_frame (ordered := false) h hr rfl rfl ok space home plain idle run
    · have other : Instr.sco c x y ≠ .sch c x y := nofun
      rw [beq_self_eq_true] at space
      have stores : own = (s.me.sync.heldAddr = addr ∧ s.me.sync.heldKind = 2 ∧ s.me.sync.revoked = false) := by
        unfold own
        rw [if_neg other]
      rw [stores]
      exact handOff_frame (ordered := true) h hr rfl rfl ok space home plain idle run
  · intro c y s t key h hr u addr read write alone
    exact ⟨fun ok home full run => waitf_frame h hr alone ok home full run, fun ok home run => clrf_frame h hr alone ok home run⟩
  · intro c x y s t key h hr u ok space home ready free run
    exact oinit_frame h hr ok space home ready free run
  · intro c x y s t h hr shared run
    exact take_frame h hr shared run
  · rintro i c k y s t h (⟨rfl, hr, reached⟩ | rfl | ⟨rfl, clear⟩ | ⟨rfl, clear⟩ | ⟨rfl, clear⟩) run
    · exact waitc_frame h hr reached run
    · exact fence_frame (State.admits_drained h) (s.fenceClear_thread ..) run
    · exact fence_frame h clear run
    · exact fence_frame h clear run
    · exact fence_frame h clear run

end Sys2Proof.Machine
end

section
/-! Barriers (R215 to R227): arriving at one, speculating past it, and the configuration and the state of a tile's group. -/

namespace Sys2Proof.Machine

open Sys2Proof.Claims

theorem when_eq_some {b : Bool} {t u : State} (h : Claims.when b t = some u) : b = true ∧ t = u := by
  have holds := when_holds (Option.isSome_of_eq_some h)
  rw [holds] at h
  exact ⟨holds, Option.some.inj h⟩

section
variable {s t : State} {c : Chain} {b : BitVec 2} {x : RegNum}

/-! ### Arriving (R182, R219) -/

/-- The place that a thread reserves while it waits is one at a destination that pushes (R160). -/
theorem Op.claim_claims (x : RegNum) (t : Thread) :
    (Op.claim x t).claims = if (40 ≤ x.toNat && x.toNat ≤ 43) || isHandle x then [x] else [] := by
  have links : ∀ x : RegNum, (State.pushesTo .up x || State.pushesTo .down x) = (decide (40 ≤ x.toNat) && decide (x.toNat ≤ 43)) := by decide
  rw [Op.claim, links]

/-- A thread that is parked and then sends its arrival has arrived. -/
theorem State.arrive_parkMe (s : State) (c : Chain) (b : Nat) (w : BarWait) (v : Word) :
    (s.parkMe c (.barrier b)).arrive s.cur.1 s.cur.2 b w v = arrived s c b w v :=
  congrArg (fun u : State => u.arrive s.cur.1 s.cur.2 b w v) (State.modMe_congr rfl)

theorem State.arrive_parkClaim (s : State) (c : Chain) (b : Nat) (x : RegNum) (w : BarWait) (v : Word) (h4 : s.cur.2 < 4) :
    ((s.parkMe c (.barrier b)).modMe (Op.claim x)).arrive s.cur.1 s.cur.2 b w v = arrived s c b w v (Op.claim x s.me).claims :=
  congrArg (fun u : State => u.arrive s.cur.1 s.cur.2 b w v) ((State.modThread_modThread _ _ _ _ _ h4).trans (State.modMe_congr rfl))

theorem beforeArrival_ok (clear : s.fenceClear s.cur.1 s.cur.2 1 = true) : beforeArrival s = .ok ((), s) := by
  show Op.await (s.fenceClear s.cur.1 s.cur.2 1) (.fence 1) s = _
  rw [clear]
  rfl

/-- BAR of a participant arrives and parks. -/
theorem bar_arrives (part : s.participates s.cur.1 s.cur.2 b.toNat = true) (h : s.admits settled c = true)
    (clear : s.fenceClear s.cur.1 s.cur.2 1 = true) : exec (.bar c b) s = .next (arrived s c b.toNat { kind := 1, ident := b } 0) := by
  refine (if_pos part).trans ((issue_admitted h).trans (Op.run_done ((Op.bind_ok (beforeArrival_ok clear)).trans ?_)))
  exact congrArg (fun t => Except.error (Stop.done t)) (s.arrive_parkMe ..)

/-- BARR of a participant arrives with its contribution, its destination's place reserved. -/
theorem barr_arrives {op : BarrOp} (part : s.participates s.cur.1 s.cur.2 b.toNat = true) (h : s.admits settled c = true)
    (hr : s.atHand [.g x] [.g x] = true) (clear : s.fenceClear s.cur.1 s.cur.2 1 = true) :
    exec (.barr c x b op) s = .next (arrived (s.src x).2 c b.toNat { kind := 2, ident := b, op := op, dest := x } (s.src x).1
      (Op.claim x (s.src x).2.me).claims) := by
  have h4 : (s.src x).2.cur.2 < 4 := by rw [s.src_cur x]; exact State.admits_lt h
  refine (if_pos part).trans ((issue_admitted h).trans (Op.run_done ?_))
  rw [Op.bind_ok (Op.need_ok hr), Op.bind_ok (beforeArrival_ok clear), Op.bind_ok (Op.readG_ok x (State.atHand_held hr))]
  exact congrArg (fun t => Except.error (Stop.done t)) (State.arrive_parkClaim _ _ _ _ _ _ h4)

/-! ### Taking no part (R219, R223) -/

theorem bar_falls (out : ¬s.participates s.cur.1 s.cur.2 b.toNat = true) (h : s.admits { held := true } c = true) :
    exec (.bar c b) s = .next (s.fell c) := (if_neg out).trans ((issue_admitted h).trans (Op.run_ok (Op.retire_ok s c)))

theorem bars_falls (out : ¬s.participates s.cur.1 s.cur.2 b.toNat = true) (h : s.admits { held := true } c = true) :
    exec (.bars c b) s = .next (s.fell c) := (if_neg out).trans ((issue_admitted h).trans (Op.run_ok (Op.retire_ok s c)))

theorem barr_falls {op : BarrOp} (out : ¬s.participates s.cur.1 s.cur.2 b.toNat = true) (h : s.admits { held := true } c = true)
    (hr : s.atHand [.g x] [.g x] = true) : exec (.barr c x b op) s = .next (((s.src x).2.dst x (s.src x).1).fell c) := by
  refine (if_neg out).trans ((issue_admitted h).trans (Op.run_ok ?_))
  rw [Op.bind_ok (Op.need_ok hr), Op.bind_ok (Op.readG_ok x (State.atHand_held hr)), Op.bind_ok (Op.writeG_ok _ x _ 1), Op.retire_ok]

/-! ### Speculating (R225, R226) -/

/-- The state in which BARS of the issuing thread has sent its arrival. -/
def State.barsSent (s : State) (b : BitVec 2) : State := s.arrive s.cur.1 s.cur.2 b.toNat { kind := 1, ident := b } 0

/-- Why BARS waits as BAR does: a thread or a module that does not speculate, speculation used in this phase, or a group that the arrival
completes (R225, R423). -/
def State.barsWaits (s : State) (b : BitVec 2) : Bool :=
  s.cur.2 == 0 || !s.feature 2 || (s.tile s.cur.1).specUsed.getLsbD (4 * b.toNat + s.cur.2)
    || (s.barsSent b).isDecided s.cur.1 s.cur.2 b.toNat

theorem bars_arrives (part : s.participates s.cur.1 s.cur.2 b.toNat = true) (h : s.admits settled c = true)
    (clear : s.fenceClear s.cur.1 s.cur.2 1 = true) :
    exec (.bars c b) s = .next (if s.barsWaits b then arrived s c b.toNat { kind := 1, ident := b } 0
      else ((s.barsSent b).modMe fun t => { t with spec := some (checkpoint s c b.toNat) }).fell c) := by
  have may : (s.cur.2 != 0 && s.feature 2 && s.specUnused s.cur.1 s.cur.2 b.toNat && !(s.barsSent b).isDecided s.cur.1 s.cur.2 b.toNat) =
      !s.barsWaits b := by
    simp only [State.barsWaits, State.specUnused, bne, Bool.not_or, Bool.not_not]
  refine (if_pos part).trans ((issue_admitted h).trans ?_)
  cases waits : s.barsWaits b with
  | true =>
    rw [waits] at may
    refine Op.run_done ((Op.bind_ok (beforeArrival_ok clear)).trans ((Op.bind_get _).trans ?_))
    refine (congrFun (if_neg (Bool.eq_false_iff.1 may)) s).trans ?_
    exact congrArg (fun t => Except.error (Stop.done t)) (s.arrive_parkMe ..)
  | false =>
    rw [waits] at may
    exact Op.run_ok ((Op.bind_ok (beforeArrival_ok clear)).trans ((Op.bind_get _).trans (congrFun (if_pos may) s)))

theorem Op.set_retire (u s : State) (c : Chain) : (set u >>= fun _ => Op.retire c) s = .ok ((), u.fell c) := rfl

/-! ### Configuring and asking (R221, R222) -/

/-- BARCFG of an identifier at which no thread of its tile waits. -/
theorem barcfg_result (effect : barrierEffect (.barcfg c b x) s = some t) : exec (.barcfg c b x) s = .next t := by
  obtain ⟨holds, rfl⟩ := when_eq_some effect
  simp only [Bool.and_eq_true] at holds
  obtain ⟨⟨h, hr⟩, none_there⟩ := holds
  have passes : Op.await (vget s.myTile.arrived b.toNat 0 == 0#4) (.barcfg b.toNat) s = .ok ((), s) := congrFun (if_pos none_there) s
  refine (issue_admitted h).trans (Op.run_ok ?_)
  rw [Op.bind_ok (Op.need_ok hr), Op.bind_get, Op.bind_ok passes, Op.bind_ok (Op.readG_ok x (State.atHand_held hr)), ← s.src_cur x, Op.bind_get]
  refine (Op.set_retire ..).trans (congrArg (fun u : State => Except.ok ((), (u.decideGroup (s.src x).2.cur.1 b.toNat).fell c)) ?_)
  cases ((s.src x).2.membersOf (s.src x).2.cur.1 b.toNat).filter (· != (s.src x).2.cur.1) <;> rfl

/-- A byte of flags below a configuration: their bits do not meet. -/
theorem ofNat_or_shiftLeft_eight {n : Nat} (low : n < 256) (cfg : BitVec 16) :
    BitVec.ofNat 64 n ||| cfg.setWidth 64 <<< 8 = BitVec.ofNat 64 (n + 256 * cfg.toNat) := by
  have small := cfg.isLt
  apply BitVec.eq_of_toNat_eq
  rw [BitVec.toNat_or, BitVec.toNat_shiftLeft, BitVec.toNat_setWidth, BitVec.toNat_ofNat, BitVec.toNat_ofNat, Nat.mod_eq_of_lt (by omega),
    Nat.mod_eq_of_lt (by omega), Nat.shiftLeft_eq, Nat.mod_eq_of_lt (by omega), Nat.mod_eq_of_lt (by omega), Nat.or_comm, ← Nat.shiftLeft_eq,
    ← Nat.shiftLeft_add_eq_or_of_lt low, Nat.shiftLeft_eq]
  omega

/-- The word of BARQ as the sum of its fields. -/
theorem barq_word (phase : BitVec 2) (waiting past : Bool) (cfg : BitVec 16) :
    (phase.setWidth 64 ||| ((if waiting then 4 else 0 : Nat) : Word) ||| (if past then 8 else 0 : Word) ||| (cfg.setWidth 64 <<< 8) : Word) =
      BitVec.ofNat 64 (phase.toNat + (if waiting then 4 else 0) + (if past then 8 else 0) + 256 * cfg.toNat) := by
  have flags : ∀ (p : BitVec 2) (w a : Bool), (p.setWidth 64 ||| ((if w then 4 else 0 : Nat) : Word) ||| (if a then 8 else 0 : Word)) =
      BitVec.ofNat 64 (p.toNat + (if w then 4 else 0) + (if a then 8 else 0)) ∧
      p.toNat + (if w then 4 else 0) + (if a then 8 else 0) < 256 := by decide
  obtain ⟨sum, low⟩ := flags phase waiting past
  rw [sum, ofNat_or_shiftLeft_eight low]

/-- BARQ reads the phase, the two marks and the configuration. -/
theorem barq_result (effect : barrierEffect (.barq c x b) s = some t) : exec (.barq c x b) s = .next t := by
  obtain ⟨holds, rfl⟩ := when_eq_some effect
  obtain ⟨h, hr⟩ := Bool.and_eq_true_iff.1 holds
  refine (issue_admitted h).trans (Op.run_ok ?_)
  rw [Op.bind_ok (Op.need_ok hr), Op.bind_get, barq_word, State.threadsIn, List.any_filter, Op.bind_ok (Op.writeG_ok ..), Op.retire_ok]
  cases s.me.spec <;> rfl

/-! ### Either form (R216) -/

theorem bar_result (effect : barrierEffect (.bar c b) s = some t) : exec (.bar c b) s = .next t := by
  by_cases part : s.participates s.cur.1 s.cur.2 b.toNat = true
  · obtain ⟨holds, rfl⟩ := when_eq_some ((if_pos part).symm.trans effect)
    simp only [Bool.and_eq_true] at holds
    obtain ⟨⟨⟨h, clear⟩, -⟩, -⟩ := holds
    exact bar_arrives part h clear
  · obtain ⟨h, rfl⟩ := when_eq_some ((if_neg part).symm.trans effect)
    exact bar_falls part h

theorem bars_result (effect : barrierEffect (.bars c b) s = some t) : exec (.bars c b) s = .next t := by
  by_cases part : s.participates s.cur.1 s.cur.2 b.toNat = true
  · obtain ⟨holds, rfl⟩ := when_eq_some ((if_pos part).symm.trans effect)
    simp only [Bool.and_eq_true] at holds
    obtain ⟨⟨⟨h, clear⟩, -⟩, -⟩ := holds
    exact bars_arrives part h clear
  · obtain ⟨h, rfl⟩ := when_eq_some ((if_neg part).symm.trans effect)
    exact bars_falls part h

theorem barr_result {op : BarrOp} (effect : barrierEffect (.barr c x b op) s = some t) : exec (.barr c x b op) s = .next t := by
  by_cases part : s.participates s.cur.1 s.cur.2 b.toNat = true
  · obtain ⟨holds, rfl⟩ := when_eq_some ((if_pos part).symm.trans effect)
    simp only [Bool.and_eq_true] at holds
    obtain ⟨⟨h, hr⟩, clear⟩ := holds
    rw [← Op.claim_claims x (s.src x).2.me]
    exact barr_arrives part h hr clear
  · obtain ⟨holds, rfl⟩ := when_eq_some ((if_neg part).symm.trans effect)
    obtain ⟨h, hr⟩ := Bool.and_eq_true_iff.1 holds
    exact barr_falls part h hr

end

/-- Settles O15: by whether the thread takes part, and for BARS by whether it waits. -/
theorem barrierResult : Obligations.BarrierResult := by
  intro i s t effect
  cases i with
  | bar c b => exact bar_result effect
  | bars c b => exact bars_result effect
  | barr c x b op => exact barr_result effect
  | barcfg c b x => exact barcfg_result effect
  | barq c x b => exact barq_result effect
  | _ => exact nomatch effect

end Sys2Proof.Machine
end

section
/-! The instructions of messages, counters and triggers (R239 to R256) where nothing holds them back. -/

namespace Sys2Proof.Machine

open Sys2Proof.Claims

section
variable {s u : State} {c : Chain} {x y : RegNum}

/-! ### What reading operands leaves of the checks -/

namespace Framed
variable {reads dests : List OpRef} {stores : Nat → Prop} {p : List Push}

theorem inGrid (h : Framed reads dests stores p s u) (v : BitVec 32) : u.inGrid s.cur.1 v = s.inGrid s.cur.1 v := by
  have handle : (u.tile s.cur.1).handle = (s.tile s.cur.1).handle := (congrArg Tile.handle h.tile.firm :)
  have machine := h.machine
  simp only [State.machine, Prod.mk.injEq] at machine
  obtain ⟨-, grids, -⟩ := machine
  rw [State.inGrid, State.grid?, handle, grids, ← State.grid?, ← State.inGrid]

end Framed

/-- A remote-pad address is legal by its fields and its issuer's grid (R142). -/
theorem remotePad_eq (s : State) (addr : Word) : remotePad s addr = (State.tagOf addr == 1 && (State.fieldOf addr 48 12 == 0 &&
    decide (State.fieldOf addr 0 16 < 0x6000) && s.inGrid s.cur.1 (addr.extractLsb' 16 32))) := by
  unfold remotePad State.addressOk
  by_cases remote : State.tagOf addr = 1
  · simp [remote]
  · rw [beq_false_of_ne remote, Bool.and_false, Bool.false_and]

theorem Framed.remotePad {reads dests : List OpRef} {stores : Nat → Prop} {p : List Push} (h : Framed reads dests stores p s u) (addr : Word) :
    remotePad u addr = remotePad s addr := by
  rw [remotePad_eq, remotePad_eq, h.cur, h.inGrid]

theorem Framed.runMark {reads dests : List OpRef} {stores : Nat → Prop} {p : List Push} (h : Framed reads dests stores p s u) :
    (u.tile u.cur.1).mark = (s.tile s.cur.1).mark := by
  rw [h.cur]
  exact (congrArg Tile.mark h.tile.firm :)

/-! ### Handing a message over (R239, R257) -/

namespace State

/-- Translating a destination fills the residency cache of the asking tile, and does nothing else. -/
theorem route_cases (s : State) (a : Nat) (h : Word) (mark : RunMark) (v : BitVec 32) :
    (s.route a h mark v).2 = s ∨ ∃ l, (s.route a h mark v).2 = s.modTile a fun t => { t with resCache := l } := by
  have cached (g : Grid) (gang : Nat) : (s.cachedEntry a g gang).2 = s ∨ ∃ l, (s.cachedEntry a g gang).2 = s.modTile a fun t => { t with resCache := l } := by
    unfold cachedEntry
    split
    · exact .inl rfl
    · dsimp only
      split
      · exact .inr ⟨_ :: (s.tile a).resCache.take 63, rfl⟩
      · exact .inl rfl
  unfold route
  split
  · exact .inl rfl
  · split
    · exact .inl rfl
    · dsimp only
      split
      · exact .inl rfl
      · split_ifs <;> exact cached _ _

/-- A message of the issuing thread to a virtual tile is handed over at the site that translation gives. -/
theorem sendTo_eq_postedTo (s : State) (kind : MsgKind) (dest : BitVec 32) : s.sendTo s.cur.1 s.cur.2 kind dest none = postedTo s kind dest := by
  have handed (u : State) (r : u = s ∨ ∃ l, u = s.modTile s.cur.1 fun t => { t with resCache := l }) (site : Option Nat) (gen : BitVec 16) :
      u.postMsg { id := 0, kind := kind, agent := s.cur.1, thread := s.cur.2, vtn := (s.tile s.cur.1).vtn, handle := (s.tile s.cur.1).handle,
                  vd := s.vdOf s.cur.1, dest := dest, site := site, gen := gen, slot := none, mark := (s.tile s.cur.1).mark,
                  sup := (s.thread s.cur.1 s.cur.2).sup } true = handedOver u kind dest site gen := by
    obtain rfl | ⟨l, rfl⟩ := r
    · rfl
    · simp only [postMsg, handedOver, vdOf, me, thread, modTile_cur, tile_modTile]
      rfl
  have routed := s.route_cases s.cur.1 (s.tile s.cur.1).handle (s.tile s.cur.1).mark dest
  unfold sendTo postedTo
  dsimp only
  cases (s.route s.cur.1 (s.tile s.cur.1).handle (s.tile s.cur.1).mark dest).1 <;> exact handed _ routed _ _

end State

theorem fieldOf_low (addr : Word) : State.fieldOf addr 0 16 = addr.toNat % 65536 := by
  rw [State.fieldOf, BitVec.extractLsb'_toNat, Nat.shiftRight_zero]

/-- A PUT or PUTV of a first run counts its digest terms and hands its message over (R243, R363). -/
theorem State.postPut_original {cx : Bool} {addr : Word} {ctr size v : Nat} {kind : MsgKind} (first : (s.tile s.cur.1).mark = .original)
    (names : (if size = 8 then MsgKind.put (fieldOf addr 0 16) ctr (BitVec.ofNat 64 v) else .putv (fieldOf addr 0 16) ctr (BitVec.ofNat 128 v)) = kind) :
    s.postPut s.cur.1 s.cur.2 cx addr ctr size v none = postedTo (s.digest s.cur.1 cx addr size v) kind (addr.extractLsb' 16 32) := by
  have counted : Framed [] [] (fun _ => False) [] s (s.digest s.cur.1 cx addr size v) := .digest ..
  have run : ((s.digest s.cur.1 cx addr size v).tile s.cur.1).mark = .original := by
    rw [← first, ← counted.runMark, counted.cur]
  unfold postPut
  dsimp only
  rw [run, names, if_neg (by simp), ← sendTo_eq_postedTo, counted.cur]

/-! ### Posted operations (R243, R244, R246, R256) -/

theorem outbound_ok (room : decide ((s.tile s.cur.1).outb.length < 16) = true) : outbound s = .ok ((), s) := congrFun (if_pos room) s

theorem Op.modify_retire (f : State → State) (s : State) (c : Chain) : (modify f >>= fun _ => Op.retire c) s = .ok ((), (f s).fell c) := rfl

theorem Op.aligned_of {w : Word} {n : Nat} (even : (w.toNat % n == 0) = true) (s : State) : Op.require (aligned w n) 0x04 w s = .ok ((), s) :=
  Op.require_of even ..

/-- A posted operation with an outbound entry reads its operands, the destination first. -/
theorem Op.posted_reads {f : Word → Word → Op Unit} (hr : s.atHand [.g y, .g x] [] = true) (h4 : s.cur.2 < 4)
    (room : decide ((s.tile s.cur.1).outb.length < 16) = true) :
    (do need [.g y, .g x] []; outbound; let a ← readG y; let b ← readG x; f a b : Op Unit) s
      = f (s.src y).1 ((s.src y).2.src x).1 ((s.src y).2.src x).2 := by
  have first := State.atHand_held hr
  rw [bind_ok (need_ok hr), bind_ok (outbound_ok room), bind_ok (readG_ok y first), bind_ok (readG_ok x ((s.src_held y h4).trans first))]

theorem Op.posted_readsV {f : Word → VReg → Op Unit} (hr : s.atHand [.g y, .v x] [] = true) (h4 : s.cur.2 < 4)
    (room : decide ((s.tile s.cur.1).outb.length < 16) = true) :
    (do need [.g y, .v x] []; outbound; let a ← readG y; let b ← readV x; f a b : Op Unit) s
      = f (s.src y).1 ((s.src y).2.srcV x).1 ((s.src y).2.srcV x).2 := by
  have first := State.atHand_held hr
  rw [bind_ok (need_ok hr), bind_ok (outbound_ok room), bind_ok (readG_ok y first), bind_ok (readV_ok x ((s.src_held y h4).trans first))]

/-- With its operands read, a PUT or PUTV of a first run is handed over. -/
theorem State.postPut_retire {reads : List OpRef} {addr : Word} {ctr size v : Nat} {kind : MsgKind} (read : Framed reads [] (fun _ => False) [] s u)
    (cx : u.me.cx = s.me.cx) (first : ((s.tile s.cur.1).mark == .original) = true)
    (names : (if size = 8 then MsgKind.put (fieldOf addr 0 16) ctr (BitVec.ofNat 64 v) else .putv (fieldOf addr 0 16) ctr (BitVec.ofNat 128 v)) = kind) :
    (do modify fun u => u.postPut u.cur.1 u.cur.2 u.me.cx addr ctr size v none; Op.retire c : Op Unit) u
      = .ok ((), (postedTo (u.digest s.cur.1 s.me.cx addr size v) kind (addr.extractLsb' 16 32)).fell c) := by
  rw [Op.modify_retire, postPut_original (read.runMark.trans (beq_iff_eq.1 first)) names, cx, read.cur]

/-- A message of a first run to a virtual tile is handed over. -/
theorem State.sendTo_retire {reads : List OpRef} (read : Framed reads [] (fun _ => False) [] s u) (first : ((s.tile s.cur.1).mark == .original) = true)
    (kind : MsgKind) (dest : BitVec 32) :
    (do modify fun u => if u.myTile.mark != .original && gangOf dest != gangOf u.myTile.vtn then u else u.sendTo u.cur.1 u.cur.2 kind dest none
        Op.retire c : Op Unit) u = .ok ((), (postedTo u kind dest).fell c) := by
  have run : u.myTile.mark = .original := read.runMark.trans (beq_iff_eq.1 first)
  rw [Op.modify_retire, run, if_neg (by simp), sendTo_eq_postedTo]

end
section
variable {s t : State} {c : Chain} {x y : RegNum} {k : BitVec 4}

theorem put_result (effect : messageEffect (.put c x y k) s = some t) : exec (.put c x y k) s = .next t := by
  obtain ⟨holds, rfl⟩ := when_eq_some effect
  simp only [Bool.and_eq_true] at holds
  obtain ⟨⟨⟨⟨⟨h, hr⟩, room⟩, first⟩, remote⟩, even⟩ := holds
  have h4 := State.admits_lt h
  have cx : ((s.src y).2.src x).2.me.cx = s.me.cx := by rw [State.src_cx _ x (by rwa [s.src_cur y]), s.src_cx y h4]
  refine (issue_admitted h).trans (Op.run_ok ?_)
  rw [Op.posted_reads hr h4 room, Op.bind_ok (Op.require_of remote ..), Op.bind_ok (Op.aligned_of even _)]
  exact State.postPut_retire (.reads s y x) cx first (by rw [if_pos rfl, fieldOf_low, BitVec.ofNat_toNat, BitVec.setWidth_eq])

theorem putv_result (effect : messageEffect (.putv c x y k) s = some t) : exec (.putv c x y k) s = .next t := by
  obtain ⟨holds, rfl⟩ := when_eq_some effect
  simp only [Bool.and_eq_true] at holds
  obtain ⟨⟨⟨⟨⟨h, hr⟩, room⟩, first⟩, remote⟩, even⟩ := holds
  have h4 := State.admits_lt h
  have cx : ((s.src y).2.srcV x).2.me.cx = s.me.cx := by rw [State.srcV_cx _ x (by rwa [s.src_cur y]), s.src_cx y h4]
  refine (issue_admitted h).trans (Op.run_ok ?_)
  rw [Op.posted_readsV hr h4 room, Op.bind_ok (Op.require_of remote ..), Op.bind_ok (Op.aligned_of even _)]
  exact State.postPut_retire (.readsV s y x) cx first (by rw [if_neg (by decide), fieldOf_low, BitVec.ofNat_toNat, BitVec.setWidth_eq])

theorem get_result (effect : messageEffect (.get c x y k) s = some t) : exec (.get c x y k) s = .next t := by
  obtain ⟨holds, rfl⟩ := when_eq_some effect
  simp only [Bool.and_eq_true] at holds
  obtain ⟨⟨⟨⟨⟨⟨⟨h, hr⟩, room⟩, first⟩, remote⟩, even⟩, local_⟩, localEven⟩ := holds
  have near : inPad ((s.src y).2.src x).1 1 = true := by
    simp only [inPad, Bool.and_eq_true, decide_eq_true_iff] at local_ ⊢
    exact ⟨local_.1, by omega⟩
  refine (issue_admitted h).trans (Op.run_ok ?_)
  rw [Op.posted_reads hr (State.admits_lt h) room, Op.bind_ok (Op.require_of remote ..), Op.bind_ok (Op.require_of near ..),
    Op.bind_ok (Op.aligned_of even _), Op.bind_ok (Op.aligned_of localEven _)]
  refine (State.sendTo_retire (.reads s y x) first ..).trans ?_
  rw [fieldOf_low, fieldOf_low]

theorem send_result (effect : messageEffect (.send c x y) s = some t) : exec (.send c x y) s = .next t := by
  obtain ⟨holds, rfl⟩ := when_eq_some effect
  simp only [Bool.and_eq_true] at holds
  obtain ⟨⟨⟨⟨h, hr⟩, room⟩, first⟩, names⟩ := holds
  refine (issue_admitted h).trans (Op.run_ok ?_)
  rw [Op.posted_reads hr (State.admits_lt h) room, Op.bind_ok (Op.require_of names ..)]
  exact State.sendTo_retire (.reads s y x) first ..

theorem post_result (effect : messageEffect (.post c x y) s = some t) : exec (.post c x y) s = .next t := by
  obtain ⟨holds, rfl⟩ := when_eq_some effect
  simp only [Bool.and_eq_true] at holds
  obtain ⟨⟨⟨⟨⟨⟨⟨h, hr⟩, room⟩, first⟩, near⟩, even⟩, rim⟩, rimEven⟩ := holds
  have read : Framed [.g y, .g x] [] (fun _ => False) [] s ((s.src y).2.src x).2 := .reads s y x
  have run : ((s.src y).2.src x).2.myTile.mark = .original := read.runMark.trans (beq_iff_eq.1 first)
  refine (issue_admitted h).trans (Op.run_ok ?_)
  rw [Op.posted_reads hr (State.admits_lt h) room, Op.bind_ok (Op.require_of near ..), Op.bind_ok (Op.aligned_of even _),
    Op.bind_ok (Op.require_of rim ..), Op.bind_ok (Op.aligned_of rimEven _), Op.modify_retire]
  refine congrArg (fun u : State => Except.ok ((), u.fell c)) ((if_neg (by rw [run]; decide)).trans ?_)
  rw [fieldOf_low, ← read.cur]
  rfl

/-! ### Counters (R241, R242) -/

theorem cinc_result (effect : messageEffect (.cinc c k x y) s = some t) : exec (.cinc c k x y) s = .next t := by
  by_cases own : y = 0
  · obtain ⟨holds, rfl⟩ := when_eq_some ((if_pos own).symm.trans effect)
    obtain ⟨h, hr⟩ := Bool.and_eq_true_iff.1 holds
    refine (if_pos (beq_iff_eq.2 own)).trans ((issue_admitted h).trans (Op.run_ok ?_))
    rw [Op.bind_ok (Op.need_ok hr), Op.bind_ok (Op.readG_ok x (State.atHand_held hr)), Op.modify_retire, s.src_cur x]
    rfl
  · obtain ⟨holds, rfl⟩ := when_eq_some ((if_neg own).symm.trans effect)
    simp only [Bool.and_eq_true] at holds
    obtain ⟨⟨⟨⟨h, hr⟩, room⟩, first⟩, names⟩ := holds
    refine (if_neg (by simpa using own)).trans ((issue_admitted h).trans (Op.run_ok ?_))
    rw [Op.posted_reads hr (State.admits_lt h) room, Op.bind_ok (Op.require_of names ..)]
    exact State.sendTo_retire (.reads s y x) first ..

theorem cset_result (effect : messageEffect (.cset c k x) s = some t) : exec (.cset c k x) s = .next t := by
  obtain ⟨holds, rfl⟩ := when_eq_some effect
  obtain ⟨h, hr⟩ := Bool.and_eq_true_iff.1 holds
  refine (issue_admitted h).trans (Op.run_ok ?_)
  rw [Op.bind_ok (Op.need_ok hr), Op.bind_ok (Op.readG_ok x (State.atHand_held hr)), Op.modify_retire, s.src_cur x]
  rfl

theorem crd_result (effect : messageEffect (.crd c x k) s = some t) : exec (.crd c x k) s = .next t := by
  obtain ⟨holds, rfl⟩ := when_eq_some effect
  obtain ⟨h, hr⟩ := Bool.and_eq_true_iff.1 holds
  refine (issue_admitted h).trans (Op.run_ok ?_)
  rw [Op.bind_ok (Op.need_ok hr), Op.bind_get]
  rfl

/-! ### Triggers (R250 to R253) -/

theorem disarm_result {slot : BitVec 3} (effect : messageEffect (.disarm c slot) s = some t) : exec (.disarm c slot) s = .next t := by
  obtain ⟨h, rfl⟩ := when_eq_some effect
  exact (issue_admitted h).trans (Op.run_ok rfl)

/-- A slot's word as it is armed: bits 46 to 43 clear, ARMED set (R250). -/
theorem armed_word (cfg : Word) : (cfg &&& ~~~(0xF#64 <<< 43)) ||| (1#64 <<< 47) =
    BitVec.ofNat 64 (cfg.toNat % 2 ^ 43 + 2 ^ 47 + cfg.toNat / 2 ^ 48 * 2 ^ 48) := by
  have masks : ∀ i < 64, (~~~(0xF#64 <<< 43)).getLsbD i = (decide (i < 43) || decide (47 ≤ i)) ∧ (1#64 <<< 47).getLsbD i = decide (i = 47) := by decide
  have fields : cfg.toNat % 2 ^ 43 + 2 ^ 47 + cfg.toNat / 2 ^ 48 * 2 ^ 48 = 2 ^ 48 * (cfg.toNat / 2 ^ 48) + (2 ^ 47 * 1 + cfg.toNat % 2 ^ 43) := by ring
  apply BitVec.eq_of_getLsbD_eq
  intro i lt
  obtain ⟨clear, one⟩ := masks i lt
  rw [BitVec.getLsbD_or, BitVec.getLsbD_and, clear, one, fields, BitVec.getLsbD_ofNat, Nat.testBit_two_pow_mul_add _ (by omega),
    Nat.testBit_two_pow_mul_add _ (by omega), Nat.testBit_div_two_pow, Nat.testBit_mod_two_pow, BitVec.getLsbD]
  have high : 48 ≤ i → i - 48 + 48 = i := by omega
  grind

theorem armed_kind (cfg : Word) :
    ((BitVec.ofNat 64 (cfg.toNat % 2 ^ 43 + 2 ^ 47 + cfg.toNat / 2 ^ 48 * 2 ^ 48)).extractLsb' 40 3).toNat = cfg.toNat / 2 ^ 40 % 8 := by
  rw [BitVec.extractLsb'_toNat, BitVec.toNat_ofNat, Nat.shiftRight_eq_div_pow]
  omega

theorem armed_ctr (cfg : Word) :
    ((BitVec.ofNat 64 (cfg.toNat % 2 ^ 43 + 2 ^ 47 + cfg.toNat / 2 ^ 48 * 2 ^ 48)).extractLsb' 32 4).toNat = cfg.toNat / 2 ^ 32 % 16 := by
  rw [BitVec.extractLsb'_toNat, BitVec.toNat_ofNat, Nat.shiftRight_eq_div_pow]
  omega

theorem Framed.armFault {reads dests : List OpRef} {stores : Nat → Prop} {p : List Push} {u : State} (h : Framed reads dests stores p s u)
    (kind : Nat) (d1 d2 : Word) : Machine.armFault u kind d1 d2 = Machine.armFault s kind d1 d2 := by
  unfold Machine.armFault
  rw [h.remotePad]

theorem State.read64_reads (s : State) (y x : RegNum) (key : Nat) : ((s.src y).2.src x).2.read64 key = s.read64 key := by
  rw [read64, readN, src_mem, src_mem, ← readN, ← read64]

/-- The slot that ARM makes of a configuration word and of three doublewords at a key (R251). -/
def State.armedSlot (s : State) (cfg : Word) (key : Nat) : Trigger :=
  { cfg := BitVec.ofNat 64 (cfg.toNat % 2 ^ 43 + 2 ^ 47 + cfg.toNat / 2 ^ 48 * 2 ^ 48), d1 := s.read64 key, d2 := s.read64 (key + 8), d3 := s.read64 (key + 16) }

theorem arm_result {slot : BitVec 3} (effect : messageEffect (.arm c slot x y) s = some t) : exec (.arm c slot x y) s = .next t := by
  obtain ⟨holds, rfl⟩ := when_eq_some effect
  simp only [Bool.and_eq_true] at holds
  obtain ⟨⟨⟨⟨h, hr⟩, near⟩, even⟩, legal⟩ := holds
  have read : Framed [.g y, .g x] [] (fun _ => False) [] s ((s.src y).2.src x).2 := .reads s y x
  have first := State.atHand_held hr
  generalize made : s.armedSlot ((s.src y).2.src x).1 (tileKey s.cur.1 ((s.src y).1.toNat % 65536)) = g
  have kind : State.Trig.kind g = ((s.src y).2.src x).1.toNat / 2 ^ 40 % 8 := by rw [← made]; exact armed_kind _
  have ctr : State.Trig.ctr g = ((s.src y).2.src x).1.toNat / 2 ^ 32 % 16 := by rw [← made]; exact armed_ctr _
  have passes : Machine.armFault ((s.src y).2.src x).2 (State.Trig.kind g) g.d1 g.d2 = none := by
    rw [read.armFault, kind, ← made]
    exact Option.isNone_iff_eq_none.1 legal
  refine (issue_admitted h).trans (Op.run_ok ?_)
  rw [Op.bind_ok (Op.need_ok hr), Op.bind_ok (Op.readG_ok y first), Op.bind_ok (Op.readG_ok x ((s.src_held y (State.admits_lt h)).trans first)),
    Op.bind_ok (Op.require_of near ..), Op.bind_ok (Op.aligned_of even _), Op.bind_get]
  have slotMade : ({ cfg := (((s.src y).2.src x).1 &&& ~~~(0xF#64 <<< 43)) ||| (1#64 <<< 47)
                     d1 := ((s.src y).2.src x).2.read64 (tileKey ((s.src y).2.src x).2.cur.1 (State.fieldOf (s.src y).1 0 16))
                     d2 := ((s.src y).2.src x).2.read64 (tileKey ((s.src y).2.src x).2.cur.1 (State.fieldOf (s.src y).1 0 16) + 8)
                     d3 := ((s.src y).2.src x).2.read64 (tileKey ((s.src y).2.src x).2.cur.1 (State.fieldOf (s.src y).1 0 16) + 16) } : Trigger) = g := by
    rw [← made, State.armedSlot, armed_word, s.read64_reads, s.read64_reads, s.read64_reads, fieldOf_low, read.cur]
  rw [slotMade, passes]
  refine (Op.modify_retire _ _ c).trans ?_
  rw [ctr, State.modMyTile, read.cur, ← made]
  rfl

end

/-- Settles O16: the forms one by one; a message of a first run goes where translation sends it. -/
theorem messageResult : Obligations.MessageResult := by
  intro i s t effect
  cases i with
  | put c x y k => exact put_result effect
  | putv c x y k => exact putv_result effect
  | get c x y k => exact get_result effect
  | send c x y => exact send_result effect
  | cinc c k x y => exact cinc_result effect
  | cset c k x => exact cset_result effect
  | crd c x k => exact crd_result effect
  | post c x y => exact post_result effect
  | arm c slot x y => exact arm_result effect
  | disarm c slot => exact disarm_result effect
  | _ => exact nomatch effect

end Sys2Proof.Machine
end

section
/-! The frame of the instructions of messages, counters, triggers and barriers: what each does is made of operations that keep every register but a destination,
and every byte of memory. -/

namespace Sys2Proof.Machine

open Sys2Proof.Claims

namespace Keeps
variable {dests : List OpRef} {stores : Nat → Prop} {but : Nat → Nat → Prop} {s : State}

/-! ### Handing a message over -/

theorem srcV (s : State) (n : RegNum) : Keeps dests stores but s (s.srcV n).2 := by
  by_cases pops : isHandle n = true
  · obtain ⟨threads, cur, mem⟩ := s.readV_frame s.cur.1 s.cur.2 n
    rw [s.srcV_popping n pops]
    exact (of_threads cur threads mem).trans (modThread _ _ _ fun _ => ⟨rfl, rfl⟩)
  · rw [s.srcV_plain n pops]
    exact .refl s

theorem reads (s : State) (y x : RegNum) : Keeps dests stores but s ((s.src y).2.src x).2 := (src s y).trans (src _ x)

theorem digest (s : State) (a : Nat) (cx : Bool) (addr : Word) (n v : Nat) : Keeps dests stores but s (s.digest a cx addr n v) := by
  obtain ⟨f, counts, e | e⟩ := s.digest_eq a cx addr n v
  · rw [e]
    exact refl s
  · rw [e]
    exact modTile s a fun x => by
      obtain ⟨d, same⟩ := counts x
      rw [same]

theorem route (s : State) (a : Nat) (h : Word) (mark : RunMark) (v : BitVec 32) : Keeps dests stores but s (s.route a h mark v).2 := by
  obtain e | ⟨l, e⟩ := s.route_cases a h mark v
  · rw [e]
    exact refl s
  · rw [e]
    exact modTile s a fun _ => rfl

theorem handedOver (s : State) (kind : MsgKind) (dest : BitVec 32) (site : Option Nat) (gen : BitVec 16) :
    Keeps dests stores but s (Claims.handedOver s kind dest site gen) := by
  have sent (net n) : Keeps dests stores but s { s with net := net, nextMsg := n } := of_threads rfl (fun _ _ => rfl) rfl
  unfold Claims.handedOver
  dsimp only
  exact (sent ..).trans (modTile _ _ fun _ => rfl)

theorem postedTo (s : State) (kind : MsgKind) (dest : BitVec 32) : Keeps dests stores but s (Claims.postedTo s kind dest) := by
  unfold Claims.postedTo
  dsimp only
  split <;> exact (route ..).trans (handedOver ..)

theorem posted_fell (s : State) (kind : MsgKind) (dest : BitVec 32) (c : Chain) : Keeps dests stores but s ((Claims.postedTo s kind dest).fell c) :=
  (postedTo s kind dest).trans (fell _ c)

/-! ### Counters and triggers -/

theorem settleEvals (a : Nat) : ∀ (n : Nat) (s : State), Keeps dests stores but s (s.settleEvals a n)
  | 0, s => refl s
  | n + 1, s => by
    unfold State.settleEvals
    dsimp only
    split
    · exact refl s
    · split
      · refine .trans ?_ (settleEvals a n _)
        exact modTile s a fun _ => rfl
      · exact modTile s a fun _ => rfl

theorem evaluate (s : State) (a : Nat) (e : TrigEval) : Keeps dests stores but s (s.evaluate a e) := by
  refine .trans ?_ (settleEvals a _ _)
  exact modTile s a fun _ => rfl

theorem finishThread (s : State) (a th : Nat) : Keeps dests stores but s (s.finishThread a th) := modThread s a th fun x => x.complete_same _ _

theorem releaseWaitc (s : State) (a k : Nat) : Keeps dests stores but s (s.releaseWaitc a k) := by
  refine foldl (fun s th => ?_) _ s
  split
  · split
    · exact finishThread s a th
    · exact refl s
  · exact refl s

theorem wakeSleepers (s : State) (a : Nat) : Keeps dests stores but s (s.wakeSleepers a) := by
  unfold State.wakeSleepers
  refine foldl (fun s th => ?_) _ s
  split
  · exact finishThread s a th
  · exact refl s

theorem counterSet (s : State) (a k : Nat) (v : BitVec 32) : Keeps dests stores but s (Claims.counterSet s a k v) := by
  refine .trans ?_ (evaluate ..)
  refine .trans ?_ ((releaseWaitc _ a k).trans (wakeSleepers ..))
  exact modTile s a fun _ => rfl

/-! ### Barriers -/

theorem decideGroup (s : State) (a b : Nat) : Keeps dests stores but s (s.decideGroup a b) := by
  unfold State.decideGroup
  dsimp only
  split
  · exact of_threads rfl (fun _ _ => rfl) rfl
  · exact refl s

theorem arrived (s : State) (c : Chain) (b : Nat) (w : BarWait) (v : Word) (claims : List RegNum) :
    Keeps dests stores but s (Claims.arrived s c b w v claims) := by
  unfold Claims.arrived
  refine .trans ?_ (decideGroup ..)
  refine .trans ?_ (modTile _ _ fun _ => rfl)
  exact modMe s fun _ => ⟨rfl, rfl⟩

theorem barsSent (s : State) (b : BitVec 2) : Keeps dests stores but s (s.barsSent b) := by
  refine .trans ?_ (decideGroup ..)
  exact modTile s _ fun _ => rfl

end Keeps

section
variable {s t : State} {stores : Nat → Prop} {but : Nat → Nat → Prop} {ds : List OpRef} {i : Instr}

/-- What a message, counter or trigger instruction leaves is made of such operations. -/
theorem messageEffect_keeps (form : messageForm i = some ds) (effect : messageEffect i s = some t) : Keeps ds stores but s t := by
  cases i with
  | put c x y k =>
    obtain ⟨-, rfl⟩ := when_eq_some effect
    exact (Keeps.reads s y x).trans <| (Keeps.digest ..).trans (.posted_fell ..)
  | putv c x y k =>
    obtain ⟨-, rfl⟩ := when_eq_some effect
    exact (Keeps.src s y).trans <| (Keeps.srcV _ x).trans <| (Keeps.digest ..).trans (.posted_fell ..)
  | get c x y k =>
    obtain ⟨-, rfl⟩ := when_eq_some effect
    exact (Keeps.reads s y x).trans (.posted_fell ..)
  | send c x y =>
    obtain ⟨-, rfl⟩ := when_eq_some effect
    exact (Keeps.reads s y x).trans (.posted_fell ..)
  | cinc c k x y =>
    by_cases own : y = 0
    · obtain ⟨-, rfl⟩ := when_eq_some ((if_pos own).symm.trans effect)
      exact (Keeps.src s x).trans <| (Keeps.counterSet ..).trans (.fell _ c)
    · obtain ⟨-, rfl⟩ := when_eq_some ((if_neg own).symm.trans effect)
      exact (Keeps.reads s y x).trans (.posted_fell ..)
  | cset c k x =>
    obtain ⟨-, rfl⟩ := when_eq_some effect
    exact (Keeps.src s x).trans <| (Keeps.counterSet ..).trans (.fell _ c)
  | post c x y =>
    obtain ⟨-, rfl⟩ := when_eq_some effect
    exact (Keeps.reads s y x).trans <| (Keeps.handedOver ..).trans (.fell _ c)
  | arm c slot x y =>
    obtain ⟨-, rfl⟩ := when_eq_some effect
    refine .trans (.trans (Keeps.reads s y x) ?_) ((Keeps.evaluate ..).trans (.fell _ c))
    exact Keeps.modTile _ _ fun _ => rfl
  | disarm c slot =>
    obtain ⟨-, rfl⟩ := when_eq_some effect
    refine .trans ?_ (.fell _ c)
    exact Keeps.modTile s _ fun _ => rfl
  | crd => exact nomatch form
  | _ => exact nomatch effect

/-- What a barrier instruction leaves is, too. -/
theorem barrierEffect_keeps (form : messageForm i = some ds) (effect : barrierEffect i s = some t) : Keeps ds stores but s t := by
  cases i with
  | bar c b =>
    by_cases part : s.participates s.cur.1 s.cur.2 b.toNat = true
    · obtain ⟨-, rfl⟩ := when_eq_some ((if_pos part).symm.trans effect)
      exact .arrived ..
    · obtain ⟨-, rfl⟩ := when_eq_some ((if_neg part).symm.trans effect)
      exact .fell s c
  | bars c b =>
    by_cases part : s.participates s.cur.1 s.cur.2 b.toNat = true
    · obtain ⟨-, rfl⟩ := when_eq_some ((if_pos part).symm.trans effect)
      split
      · exact .arrived ..
      · refine .trans (.trans (Keeps.barsSent s b) ?_) (.fell _ c)
        exact Keeps.modMe _ fun _ => ⟨rfl, rfl⟩
    · obtain ⟨-, rfl⟩ := when_eq_some ((if_neg part).symm.trans effect)
      exact .fell s c
  | barr c x b op =>
    cases form
    by_cases part : s.participates s.cur.1 s.cur.2 b.toNat = true
    · obtain ⟨-, rfl⟩ := when_eq_some ((if_pos part).symm.trans effect)
      exact (Keeps.src s x).trans (.arrived ..)
    · obtain ⟨-, rfl⟩ := when_eq_some ((if_neg part).symm.trans effect)
      exact (Keeps.src s x).trans (.written_fell _ (List.mem_singleton_self _) _ c)
  | barcfg c b x =>
    obtain ⟨-, rfl⟩ := when_eq_some effect
    have configured := (Keeps.src (dests := ds) (stores := stores) (but := but) s x).trans
      (.modTile (s.src x).2 s.cur.1 (f := fun t => { t with barCfg := vset t.barCfg b.toNat ((s.src x).1.setWidth 16 &&& 0x0F1F#16) }) fun _ => rfl)
    refine .trans ?_ ((Keeps.decideGroup _ s.cur.1 b.toNat).trans (.fell _ c))
    split
    · exact configured.trans (.decideGroup ..)
    · exact configured
  | barq c x b =>
    cases form
    obtain ⟨-, rfl⟩ := when_eq_some effect
    exact .written_fell s (List.mem_singleton_self _) _ c
  | _ => exact nomatch effect

end

/-- Settles O48: the effect that each form has keeps what the frame lists. -/
theorem messageFrame : Obligations.MessageFrame := by
  intro i ds s t form effect run
  have kept : Keeps ds (fun _ => False) (fun _ _ => False) s t := by
    obtain effect | effect := effect
    · obtain ⟨u, effect⟩ := Option.isSome_iff_exists.1 effect
      obtain rfl := Host.Outcome.next.inj (run.symm.trans (messageResult i s u effect))
      exact messageEffect_keeps form effect
    · obtain ⟨u, effect⟩ := Option.isSome_iff_exists.1 effect
      obtain rfl := Host.Outcome.next.inj (run.symm.trans (barrierResult i s u effect))
      exact barrierEffect_keeps form effect
  exact kept.quiet fun no => no

end Sys2Proof.Machine
end

section
/-! Two messages of one number. The model marks as waiting every message that has the number of the SEND that found its ring full, each for the
gang of its own destination; the statement marks them all for the gang of the SEND's, and does not ask that numbers differ. -/

namespace Sys2Proof.Machine

open Sys2Proof.Claims

namespace TwinMessages

/-- A SEND of rank 0 of grid 5 to a virtual tile. -/
def sendTo (dest : BitVec 32) : Msg :=
  { id := 0, kind := .send 7, agent := 70, thread := 0, vtn := 0, handle := 5, vd := 0, dest := dest, site := some 71 }

/-- A SEND to rank 1 of gang 0, whose inbox at site 71 is full and whose overflow ring, of one record and with its header at address 0, is
full too (TAIL is 1); behind it a SEND to gang 1 with the same number. -/
def state : State :=
  { tiles := [(71, { handle := 5, vtn := 1, inbox := List.replicate 64 9 })]
    grids := [{ handle := 5, vd := 0, desc := { gsz := 2 }, table := 0x40000, lo := 0, hi := 2 }]
    net := [sendTo 1, sendTo 0x10001]
    mem := Mem.writeN [] (rimKey 16) 8 1 }

/-- What the messages in the network wait for after an outcome. -/
def waits : Host.Outcome State Fault Refusal → List (Option Park)
  | .next t => t.net.map Msg.hold
  | _ => []

theorem stated : (arrivalEffect (.sendLand 0) state).map (fun t => waits (.next t)) = some [some (.ringFull 0), some (.ringFull 0)] := by decide +kernel

theorem performed : waits (exec (.sendLand 0) state) = [some (.ringFull 0), some (.ringFull 1)] := by decide +kernel

end TwinMessages

/-- Refutes O17: where two messages have one number, a SEND that finds its ring full makes the other wait for a ring as well; the model names the
gang of that message, the statement the gang of the SEND. -/
theorem not_arrivalResult : ¬Obligations.ArrivalResult := by
  intro holds
  obtain ⟨t, effect, waiting⟩ := Option.map_eq_some_iff.1 TwinMessages.stated
  have performed := TwinMessages.performed
  rw [holds _ _ t effect, waiting] at performed
  exact absurd performed (by decide)

end Sys2Proof.Machine
end

section
/-! Dealing (R347): a round of a dispatcher hands the lowest undealt gangs of its range to its children in ascending order. -/

namespace Sys2Proof.Machine

open Sys2Proof.Claims

/-! ### What one hand-over leaves -/

/-- The undealt rest of a range at a node. -/
def undealt (node x hi : Nat) : List DealRange := if x < hi then [{ node := node, lo := x, hi := hi }] else []

/-- After children have had their shares (`done`: child and share), the gangs from `lo` up to `x` of a range that ends at `hi` are theirs, in
their order, none lost or doubled, `node` has the rest, and a child that is due a share has gangs while any are left. -/
structure Dealt (node lo hi : Nat) (done : List (Nat × Nat)) (x : Nat) (l : List DealRange) : Prop where
  lower : lo ≤ x
  upper : x ≤ hi
  rest : l.filter (fun q => q.node == node) = undealt node x hi
  given : ∀ q ∈ l, q.node ≠ node → (∃ n ≠ 0, (q.node, n) ∈ done) ∧ lo ≤ q.lo ∧ q.lo < q.hi ∧ q.hi ≤ x
  whole : ∀ i, lo ≤ i → i < x → ∃ q ∈ l, q.node ≠ node ∧ q.lo ≤ i ∧ i < q.hi
  rising : ∀ p ∈ l, ∀ q ∈ l, p.node ≠ node → q.node ≠ node → q.node < p.node → q.hi ≤ p.lo
  served : ∀ p ∈ done, p.2 ≠ 0 → (∃ q ∈ l, q.node ≠ node ∧ q.node = p.1) ∨ x = hi

namespace Dealt
variable {node lo hi x c n : Nat} {done : List (Nat × Nat)} {l : List DealRange}

theorem mem_rest (h : Dealt node lo hi done x l) {q : DealRange} (mem : q ∈ l) (own : q.node = node) : x < hi ∧ q = { node := node, lo := x, hi := hi } := by
  have : q ∈ undealt node x hi := h.rest ▸ List.mem_filter.2 ⟨mem, beq_iff_eq.2 own⟩
  unfold undealt at this
  grind

theorem rest_mem (h : Dealt node lo hi done x l) (left : x < hi) : { node := node, lo := x, hi := hi } ∈ l := by
  have : { node := node, lo := x, hi := hi } ∈ l.filter (fun q => q.node == node) := by simp [h.rest, undealt, left]
  exact (List.mem_filter.1 this).1

theorem lowestAt (h : Dealt node lo hi done x l) : State.lowestAt l node = if x < hi then some { node := node, lo := x, hi := hi } else none := by
  unfold State.lowestAt
  rw [h.rest]
  unfold undealt
  split <;> rfl

/-- A range alone, whose dispatcher has not begun. -/
theorem start {r : DealRange} (some_ : r.lo < r.hi) : Dealt r.node r.lo r.hi [] r.lo [r] where
  lower := le_rfl
  upper := some_.le
  rest := by simp [undealt, some_]
  given q mem other := absurd (by rw [List.mem_singleton.1 mem]) other
  whole i := by omega
  rising p memp q memq other := absurd (by rw [List.mem_singleton.1 memp]) other
  served := by simp

/-- A child without a share, or one that comes when all is dealt. -/
theorem pass (h : Dealt node lo hi done x l) (none_ : n = 0 ∨ x = hi) : Dealt node lo hi (done ++ [(c, n)]) x l :=
  { h with
    given := fun q mem other => (h.given q mem other).imp_left fun ⟨n, some_, old⟩ => ⟨n, some_, List.mem_append_left _ old⟩
    served := fun p mem due => by
      obtain old | rfl := List.mem_append.1 mem |>.imp_right List.mem_singleton.1
      · exact h.served p old due
      · exact .inr (none_.resolve_left due) }

theorem dealOut_pass (h : Dealt node lo hi done x l) (none_ : n = 0 ∨ x = hi) : State.dealOut l node c n = l := by
  unfold State.dealOut
  rw [h.lowestAt]
  have := h.upper
  split <;> grind

/-- What is in a node's list after a child has had its share. -/
theorem mem_dealOut (h : Dealt node lo hi done x l) (left : x < hi) (due : n ≠ 0) {q : DealRange} :
    q ∈ State.dealOut l node c n ↔ q ∈ l ∧ q.node ≠ node ∨ min hi (x + n) < hi ∧ q = { node := node, lo := min hi (x + n), hi := hi }
      ∨ q = { node := c, lo := x, hi := min hi (x + n) } := by
  unfold State.dealOut
  rw [h.lowestAt, if_pos left]
  have other (mem : q ∈ l) : q ≠ { node := node, lo := x, hi := hi } ↔ q.node ≠ node :=
    ⟨fun ne own => ne (h.mem_rest mem own).2, fun ne e => ne (by rw [e])⟩
  simp only [due, if_false, List.mem_append, List.mem_filter, bne_iff_ne, List.mem_singleton, List.mem_ite_nil_right]
  grind

/-- A child gets its share of what is left. -/
theorem deal (h : Dealt node lo hi done x l) (left : x < hi) (due : n ≠ 0) (child : c ≠ node) (later : ∀ p ∈ done, p.1 < c) :
    Dealt node lo hi (done ++ [(c, n)]) (min hi (x + n)) (State.dealOut l node c n) where
  lower := by have := h.lower; omega
  upper := by omega
  rest := by
    have gone : (l.filter fun q => q != { node := node, lo := x, hi := hi }).filter (fun q => q.node == node) = [] := by
      rw [List.filter_comm, h.rest, undealt, if_pos left]
      simp
    unfold State.dealOut undealt
    rw [h.lowestAt, if_pos left]
    simp only [due, if_false, List.filter_append, gone]
    split <;> simp [child]
  given q mem other := by
    obtain ⟨old, -⟩ | ⟨-, rfl⟩ | rfl := (h.mem_dealOut left due).1 mem
    · obtain ⟨⟨k, some_, old⟩, range⟩ := h.given q old other
      exact ⟨⟨k, some_, List.mem_append_left _ old⟩, by omega⟩
    · exact absurd rfl other
    · have := h.lower
      exact ⟨⟨n, due, by simp⟩, by grind⟩
  whole i from_ to_ := by
    by_cases old : i < x
    · obtain ⟨q, mem, other, inside⟩ := h.whole i from_ old
      exact ⟨q, (h.mem_dealOut left due).2 (.inl ⟨mem, other⟩), other, inside⟩
    · exact ⟨_, (h.mem_dealOut left due).2 (.inr (.inr rfl)), child, Nat.not_lt.1 old, to_⟩
  rising p memp q memq otherp otherq less := by
    obtain ⟨oldp, -⟩ | ⟨-, rfl⟩ | rfl := (h.mem_dealOut left due).1 memp
    · obtain ⟨oldq, -⟩ | ⟨-, rfl⟩ | rfl := (h.mem_dealOut left due).1 memq
      · exact h.rising p oldp q oldq otherp otherq less
      · exact absurd rfl otherq
      · obtain ⟨⟨k, -, old⟩, -⟩ := h.given p oldp otherp
        exact absurd less (Nat.lt_asymm (later _ old))
    · exact absurd rfl otherp
    · obtain ⟨oldq, -⟩ | ⟨-, rfl⟩ | rfl := (h.mem_dealOut left due).1 memq
      · obtain ⟨-, -, -, below⟩ := h.given q oldq otherq
        exact below
      · exact absurd rfl otherq
      · exact absurd less (Nat.lt_irrefl _)
  served p mem some_ := by
    obtain old | rfl := List.mem_append.1 mem |>.imp_right List.mem_singleton.1
    · obtain ⟨q, memq, other, is⟩ | all := h.served p old some_
      · exact .inl ⟨q, (h.mem_dealOut left due).2 (.inl ⟨memq, other⟩), other, is⟩
      · omega
    · exact .inl ⟨_, (h.mem_dealOut left due).2 (.inr (.inr rfl)), child, rfl⟩

/-- A round over children in ascending order. -/
theorem round : ∀ {todo done : List (Nat × Nat)} {x : Nat} {l : List DealRange}, Dealt node lo hi done x l →
    (done ++ todo).Pairwise (fun p q => p.1 < q.1) → (∀ p ∈ todo, p.1 ≠ node) →
    ∃ y, Dealt node lo hi (done ++ todo) y (todo.foldl (fun l p => State.dealOut l node p.1 p.2) l)
  | [], done, x, l, h, _, _ => ⟨x, by simpa using h⟩
  | (c, n) :: todo, done, x, l, h, order, children => by
    rw [List.append_cons] at order ⊢
    have later : ∀ p ∈ done, p.1 < c := fun p mem => by
      have := (List.pairwise_append.1 (List.pairwise_append.1 order).1).2.2
      exact this p mem (c, n) (List.mem_singleton_self _)
    have others : ∀ p ∈ todo, p.1 ≠ node := fun p mem => children p (List.mem_cons_of_mem _ mem)
    by_cases none_ : n = 0 ∨ x = hi
    · rw [List.foldl_cons, h.dealOut_pass none_]
      exact (h.pass none_).round order others
    · obtain ⟨due, notAll⟩ := not_or.1 none_
      have := h.upper
      exact (h.deal (by omega) due (children (c, n) List.mem_cons_self) later).round order others

end Dealt

/-! ### A round -/

theorem childrenOf_eq_kidsOf {node gsz : Nat} (h : above node gsz) : State.childrenOf node = kidsOf node := by
  unfold State.childrenOf kidsOf
  obtain ⟨rfl, -⟩ | ⟨lower, upper, -⟩ := h
  · rfl
  · simp [lower, upper, show node ≠ 260 by omega]

theorem not_placesAt {node gsz : Nat} (h : above node gsz) : State.placesAt node gsz = false := by
  unfold State.placesAt
  obtain ⟨rfl, small⟩ | ⟨lower, upper, small⟩ := h
  · simpa using small
  · simp [show ¬node < 256 by omega, upper, small]

theorem kidsOf_lt {node gsz : Nat} (h : above node gsz) : ∀ c ∈ kidsOf node, c < node := by
  unfold kidsOf
  obtain ⟨rfl, -⟩ | ⟨lower, upper, -⟩ := h
  · simp
  · simp only [show node ≠ 260 by omega, if_false, List.mem_map, List.mem_range]
    omega

theorem kidsOf_rising (node : Nat) : (kidsOf node).Pairwise (· < ·) := by
  unfold kidsOf
  split
  · decide
  · exact List.pairwise_map.2 (List.pairwise_lt_range.imp (by omega))

/-- The children of a node and what a round hands to each. -/
def sharesOf (s : State) (g : Grid) (node : Nat) : List (Nat × Nat) :=
  ((kidsOf node).zip (List.range (kidsOf node).length)).map fun p => (p.1, s.shareOf g.vd p.1 g.desc.gsz p.2)

theorem map_fst_sharesOf (s : State) (g : Grid) (node : Nat) : (sharesOf s g node).map Prod.fst = kidsOf node := by
  simp [sharesOf, Function.comp_def, List.map_fst_zip]

/-- Only children that are not withheld are due a share. -/
theorem share_due {s : State} {g : Grid} {node c n : Nat} (share : (c, n) ∈ sharesOf s g node) (due : n ≠ 0) : c ∈ kidsOf node ∧ c ∉ s.withheld := by
  obtain ⟨⟨c, k⟩, mem, e⟩ := List.mem_map.1 share
  obtain ⟨rfl, rfl⟩ := Prod.mk.inj e
  refine ⟨(List.of_mem_zip mem).1, fun held => due ?_⟩
  simp [State.shareOf, held]

/-- A child that can place a gang gets at least one. -/
theorem exists_share {s : State} {g : Grid} {node c : Nat} (kid : c ∈ kidsOf node) (within : c ∉ s.withheld) (free : s.freeUnder g.vd c ≠ 0)
    (places : s.canPlace g.vd c g.desc.gsz = true) : ∃ n ≠ 0, (c, n) ∈ sharesOf s g node := by
  obtain ⟨⟨c, n⟩, share, rfl⟩ := List.mem_map.1 ((map_fst_sharesOf s g node).symm ▸ kid)
  refine ⟨n, ?_, share⟩
  obtain ⟨⟨d, k⟩, -, e⟩ := List.mem_map.1 share
  obtain ⟨rfl, rfl⟩ := Prod.mk.inj e
  simp [State.shareOf, within, free, places]

theorem State.grid?_modGrid (s : State) {h : Word} {f : Grid → Grid} (handle : ∀ g, (f g).handle = g.handle) : (s.modGrid h f).grid? h = (s.grid? h).map f := by
  unfold State.modGrid State.grid? mapIf
  simp only
  induction s.grids with
  | nil => rfl
  | cons g l ih => grind

/-- The dispatcher has the pad image of a grid that has not failed: read before, or none to read. -/
theorem dealtImage_ready {s : State} {g : Grid} (here : s.grid? g.handle = some g) (run : g.cancelled = false) (whole : g.imageFault = false)
    (image : g.image.isSome = true ∨ g.desc.imsz = 0) :
    ∃ i grids, s.dealtImage g = (some { g with image := i }, { s with grids := grids }) ∧
      ({ s with grids := grids } : State).grid? g.handle = some { g with image := i } := by
  have read : s.dealtImage g = s.readImage g := if_neg (by simp [run, whole])
  rw [read]
  unfold State.readImage
  split
  case h_1 => exact ⟨g.image, s.grids, rfl, here⟩
  case h_2 none_ =>
    have empty : g.desc.imsz = 0 := image.resolve_left (by simp [none_])
    refine ⟨some [], (s.modGrid g.handle fun g => { g with image := some [] }).grids, if_pos empty, ?_⟩
    exact (s.grid?_modGrid (h := g.handle) (f := fun g => { g with image := some [] }) fun _ => rfl).trans (by rw [here]; rfl)

theorem exec_dealRound {s u : State} {g h : Grid} {node : Nat} (here : s.grid? g.handle = some g) (high : above node g.desc.gsz)
    (dealt : s.dealtImage g = (some h, u)) : exec (.dealRound node g.handle) s = .next (u.dealRound h node) := by
  show execDealRound node g.handle s = _
  unfold execDealRound
  rw [here]
  simp only [not_placesAt high, Bool.false_eq_true, if_false, dealt]

/-- The ranges of a grid after a round. -/
theorem grid?_dealRound {s : State} {g h : Grid} {node : Nat} (here : s.grid? h.handle = some g) (high : above node h.desc.gsz) :
    (s.dealRound h node).grid? h.handle
      = some { g with ranges := (sharesOf s h node).foldl (fun l p => State.dealOut l node p.1 p.2) h.ranges } := by
  have dealt : s.dealRound h node = { s with free := s.free + 1 }.modGrid h.handle fun g =>
      { g with ranges := (sharesOf s h node).foldl (fun l (p : Nat × Nat) => State.dealOut l node p.1 p.2) h.ranges } := by
    unfold State.dealRound
    rw [childrenOf_eq_kidsOf high]
    rfl
  rw [dealt, State.grid?_modGrid]
  · exact congrArg (Option.map _) here
  · exact fun _ => rfl

namespace Dealt
variable {node lo hi x : Nat} {done : List (Nat × Nat)} {l : List DealRange}

/-- A gang of the range lies in one of the ranges left, and only those do. -/
theorem covers (h : Dealt node lo hi done x l) (i : Nat) : (lo ≤ i ∧ i < hi) ↔ ∃ q ∈ l, q.lo ≤ i ∧ i < q.hi := by
  have lower := h.lower
  have upper := h.upper
  constructor
  · rintro ⟨from_, to_⟩
    by_cases dealt : i < x
    · obtain ⟨q, mem, -, inside⟩ := h.whole i from_ dealt
      exact ⟨q, mem, inside⟩
    · exact ⟨_, h.rest_mem (by omega), Nat.not_lt.1 dealt, to_⟩
  · rintro ⟨q, mem, from_, to_⟩
    by_cases own : q.node = node
    · obtain ⟨-, rfl⟩ := h.mem_rest mem own
      exact ⟨lower.trans from_, to_⟩
    · obtain ⟨-, range⟩ := h.given q mem own
      omega

theorem behind (h : Dealt node lo hi done x l) {p q : DealRange} (memp : p ∈ l) (memq : q ∈ l) (child : q.node ≠ node)
    (order : p.node = node ∨ q.node < p.node) : q.hi ≤ p.lo := by
  by_cases own : p.node = node
  · obtain ⟨-, rfl⟩ := h.mem_rest memp own
    exact (h.given q memq child).2.2.2
  · exact h.rising p memp q memq own child (order.resolve_left own)

end Dealt

/-- A round of a dispatcher that holds one range deals it out as R347 says. -/
theorem range_dealt_out : dealingShares := by
  intro s g r node here run whole image high ranges at_ some_
  subst at_
  obtain ⟨i, grids, dealt, found⟩ := dealtImage_ready here run whole image
  have children : ∀ p ∈ sharesOf s g r.node, p.1 ∈ kidsOf r.node := fun p mem => map_fst_sharesOf s g r.node ▸ List.mem_map_of_mem mem
  obtain ⟨x, done⟩ := (Dealt.start some_).round (todo := sharesOf s g r.node)
    (List.pairwise_map.1 (by rw [List.nil_append, map_fst_sharesOf]; exact kidsOf_rising r.node))
    (fun p mem => (kidsOf_lt high _ (children p mem)).ne)
  rw [List.nil_append, ← ranges] at done
  refine ⟨_, _, exec_dealRound here high dealt, grid?_dealRound (h := { g with image := i }) found high, done.covers, fun q mem => ?_,
    fun p memp q memq => done.behind memp memq, fun c kid within free places => ?_⟩
  · by_cases own : q.node = r.node
    · obtain ⟨left, rfl⟩ := done.mem_rest mem own
      exact ⟨left, .inl rfl⟩
    · obtain ⟨⟨n, due, share⟩, -, nonempty, -⟩ := done.given q mem own
      exact ⟨nonempty, .inr (share_due share due)⟩
  · obtain ⟨n, due, share⟩ := exists_share kid within free places
    refine (done.served _ share due).imp (fun ⟨q, mem, _, is⟩ => ⟨q, mem, is⟩) fun all q mem own => ?_
    exact absurd (done.mem_rest mem own).1 (by omega)

end Sys2Proof.Machine
end

section
/-! The dispatcher's answer to a LAUNCH (R336, R338), and what one is rejected for (R332, R334). -/

namespace Sys2Proof.Machine

open Sys2Proof.Claims

variable {s t u : State} {m : Msg} {d : RegNum} {desc : Word}

/-! ### The answer -/

/-- The acknowledgement of a message of this module changes the network only. -/
theorem State.ackMsg_local (s : State) (here : m.agent < 2 * 65536) : ∃ net, s.ackMsg m = { s with net := net } := by
  have away : ¬State.podAgent 0 ≤ m.agent := by unfold State.podAgent; omega
  unfold State.ackMsg
  rw [if_neg away]
  split
  · exact ⟨_, rfl⟩
  · exact ⟨_, rfl⟩

/-- A thread whose LAUNCH is answered, before its register is written: the checkpoint of one that speculates takes the value too (R232). -/
def answeredThread (m : Msg) (d : RegNum) (v : Word) (x : Thread) : Thread :=
  { x with
    launching := x.launching.filter (fun k => k.2 != m.id)
    spec := x.spec.map fun (sp : Spec) => if d.toNat < 32 && d != 0 then { sp with g := vset sp.g d.toNat v } else sp }

/-- The answer to a LAUNCH of a thread goes to the register that waits for it; besides that only the network changes. -/
theorem answerLaunch_launched (one : launching s m d) (same : t.tiles = s.tiles) (v : Word) :
    ∃ net tiles, t.answerLaunch m v = { t with net := net, tiles := tiles } ∧ launched (t.answerLaunch m v) m d v := by
  obtain ⟨-, -, -, -, slot, queue, here, fourth, -, -, waits, pos, general⟩ := one
  obtain ⟨net, acked⟩ := t.ackMsg_local here
  have waits' : (({ t with net := net } : State).thread m.agent m.thread).launching = [(d, m.id)] := by
    rw [← waits]
    simp only [State.thread, State.tile, same]
  have class_ := regClass_general pos general
  have answered : t.answerLaunch m v = ({ t with net := net }.modThread m.agent m.thread (answeredThread m d v)).modThread m.agent m.thread
      fun x => x.setG d.toNat v := by
    unfold State.answerLaunch
    simp only [acked, queue, slot, Option.isSome_none, Bool.false_eq_true, if_false, waits', List.find?_cons, beq_self_eq_true]
    exact State.writeG_general _ _ _ _ _ class_
  refine ⟨net, _, by rw [answered]; rfl, ?_⟩
  rw [answered, launched, State.thread_modThread _ _ _ _ fourth, State.thread_modThread _ _ _ _ fourth]
  refine ⟨vget_vset_self _ _ _ _ general, ?_⟩
  show (({ t with net := net } : State).thread m.agent m.thread).launching.filter _ = _
  rw [waits']
  simp

/-! ### Reading a range of one page -/

/-- The rim address of an offset below 2^56. -/
theorem rim_address {addr : Word} (rim : addr.toNat / 2 ^ 56 = 0x40) : BitVec.ofNat 64 (addr.toNat % 2 ^ 56) ||| 0x4000000000000000#64 = addr := by
  have low : addr.toNat % 2 ^ 56 < 2 ^ 56 := Nat.mod_lt _ (by decide)
  have sum := Nat.two_pow_add_eq_or_of_lt low 0x40
  apply BitVec.eq_of_toNat_eq
  rw [BitVec.toNat_or, BitVec.toNat_ofNat, Nat.mod_eq_of_lt (low.trans (by decide)), Nat.or_comm]
  exact sum.symm.trans (by omega)

/-- The leaf that a unit reads through gives the place that `unitAt` names. -/
theorem leafPa_eq_leafPlace {e : TlbEntry} {addr : Word} (rim : addr.toNat / 2 ^ 56 = 0x40) (inside : leafPlace e addr < rimBytes) :
    State.leafPa e (addr.toNat % 2 ^ 56) = leafPlace e addr := by
  unfold leafPlace rimBytes at *
  have lt := addr.isLt
  have small : e.bits ≤ 62 := by
    by_contra large
    have wide : 2 ^ 63 ≤ 2 ^ e.bits := Nat.pow_le_pow_right (by decide) (by omega)
    have := Nat.mod_eq_of_lt (show addr.toNat < 2 ^ e.bits by omega)
    omega
  have page : addr.toNat % 2 ^ 56 % 2 ^ e.bits = addr.toNat % 2 ^ e.bits := by
    obtain ⟨k, whole⟩ := Nat.pow_dvd_pow 2 small
    have sum : addr.toNat % 2 ^ 56 + 2 ^ e.bits * k = addr.toNat := by omega
    exact (Nat.add_mul_mod_self_left ..).symm.trans (by rw [sum])
  have base : e.leaf.toNat / 2 ^ 13 % 2 ^ 51 = e.leaf.toNat / 8192 := by omega
  simp only [State.leafPa, BitVec.extractLsb'_toNat, Nat.shiftRight_eq_div_pow, page, base]

theorem pagesOf_one {addr : Word} {n : Nat} (some_ : 0 < n) (one : addr.toNat % 65536 + n ≤ 65536) :
    State.pagesOf addr n = [addr.toNat % 2 ^ 56 / 65536 * 65536] := by
  unfold State.pagesOf
  rw [if_neg (Nat.ne_of_gt some_)]
  show (List.range ((addr.toNat % 2 ^ 56 + n - 1) / 65536 - addr.toNat % 2 ^ 56 / 65536 + 1)).map _ = _
  rw [show (addr.toNat % 2 ^ 56 + n - 1) / 65536 - addr.toNat % 2 ^ 56 / 65536 + 1 = 1 by omega]
  rfl

/-- What `unitAt` asks, taken apart. -/
theorem unitAt_eq_some {st vd space n key : Nat} {sup write : Bool} {addr : Word} (h : unitAt s st vd space sup addr n write = some key) :
    addr.toNat / 2 ^ 56 = 0x40 ∧ spaceThere s vd space = true ∧ 0 < n ∧ addr.toNat % 65536 + n ≤ 65536 ∧
    ∃ e, cachedLeaf s st vd space addr = some e ∧ leafPlace e addr + n ≤ rimBytes ∧ e.leaf.getLsbD (if write then 2 else 1) = true ∧
      (sup = true ∨ e.leaf.getLsbD 4 = true) ∧ (write = true → e.leaf.getLsbD 5 = false) ∧ key = rimKey (leafPlace e addr) := by
  unfold unitAt at h
  split at h
  case h_2 => exact nomatch h
  case h_1 e cached =>
    obtain ⟨⟨rim, there, some_, one, inside, may, user, held⟩, e⟩ := Option.ite_none_right_eq_some.1 h
    exact ⟨rim, there, some_, one, _, cached, inside, may, user, held, (Option.some.inj e).symm⟩

/-- A unit's read through a cached leaf finds its place. -/
theorem translateAt_unitAt {q : State.Asker} {n key : Nat} {addr : Word} {u : Use} (h : unitAt s q.station q.vd q.space q.sup addr n false = some key)
    (read : u.read = true) (write : u.write = false) (exec_ : u.exec = false) : s.translateAt q addr u = .ok key := by
  obtain ⟨rim, -, some_, -, e, cached, inside, may, user, -, rfl⟩ := unitAt_eq_some h
  have place := leafPa_eq_leafPlace rim (e := e) (by omega)
  have found : s.tlbFind q.station q.vd q.space (addr.toNat % 2 ^ 56) = some e := cached
  have readable : State.leafR e.leaf = true := may
  have open_ : (!q.sup && !State.leafU e.leaf) = false := by
    obtain sup | user := user
    · rw [sup]; rfl
    · rw [State.leafU, user, Bool.not_true, Bool.and_false]
  unfold State.translateAt
  simp only [found]
  rw [place, if_neg (by rw [read, write, exec_, readable, open_]; simp), if_neg (by rw [write]; simp), if_neg (by omega)]

/-- The use of memory by a dispatcher that reads. -/
def unitRead : Use := { read := true, plain := false, kind := .engineRead }

theorem segments_unitAt {q : State.Asker} {n key : Nat} {addr : Word} (h : unitAt s q.station q.vd q.space q.sup addr n false = some key) :
    s.segments q addr n unitRead = .ok [(key, n)] := by
  have found := translateAt_unitAt h (u := unitRead) rfl rfl rfl
  obtain ⟨rim, there, some_, one, -⟩ := unitAt_eq_some h
  have tag : State.tagOf addr = 4 := by
    unfold State.tagOf
    rw [BitVec.extractLsb'_toNat, Nat.shiftRight_eq_div_pow]
    omega
  have high : State.fieldOf addr 56 4 = 0 := by
    unfold State.fieldOf
    rw [BitVec.extractLsb'_toNat, Nat.shiftRight_eq_div_pow]
    omega
  have valid : s.spaceValid q.vd q.space = true := there
  have lower : max (addr.toNat % 2 ^ 56) (addr.toNat % 2 ^ 56 / 65536 * 65536) = addr.toNat % 2 ^ 56 := by omega
  have upper : min (addr.toNat % 2 ^ 56 + n) (addr.toNat % 2 ^ 56 / 65536 * 65536 + 65536) - addr.toNat % 2 ^ 56 = n := by omega
  unfold State.segments
  rw [if_neg (Nat.ne_of_gt some_), if_neg (by simp [valid, tag, high]), pagesOf_one some_ one]
  simp only [List.foldr_cons, List.foldr_nil, lower, upper, rim_address rim, found]

theorem poisonAt_none {addr : Word} {key n : Nat} (clean : anyPoison s key n = false) : s.poisonAt addr [(key, n)] = none := by
  have none_ : (s.poison.filter fun d => key / 8 * 8 ≤ d && d < key + n) = [] := List.filter_eq_nil_iff.2 fun d mem => by
    simpa using List.any_eq_false.1 clean d mem
  simp [State.poisonAt, none_]

theorem poisonAt_some {addr : Word} {key n : Nat} (bad : anyPoison s key n = true) : ∃ d, s.poisonAt addr [(key, n)] = some d := by
  obtain ⟨d, mem, inside⟩ := List.any_eq_true.1 bad
  have : d ∈ s.poison.filter fun d => key / 8 * 8 ≤ d && d < key + n := List.mem_filter.2 ⟨mem, inside⟩
  simp only [State.poisonAt]
  cases found : s.poison.filter fun d => key / 8 * 8 ≤ d && d < key + n with
  | nil => exact absurd (found ▸ this) List.not_mem_nil
  | cons e l => exact ⟨_, rfl⟩

/-- A unit reads what stands at the place of a range without poison. -/
theorem readRange_ok {q : State.Asker} {n key : Nat} {addr : Word} (h : unitAt s q.station q.vd q.space q.sup addr n false = some key)
    (clean : anyPoison s key n = false) : s.readRange q addr n = .ok (s.readN key n) := by
  have pieces := segments_unitAt h
  unfold unitRead at pieces
  unfold State.readRange
  rw [pieces]
  simp [poisonAt_none clean]

theorem readRange_poison {q : State.Asker} {n key : Nat} {addr : Word} (h : unitAt s q.station q.vd q.space q.sup addr n false = some key)
    (bad : anyPoison s key n = true) : ∃ d, s.readRange q addr n = .error (.trap 0x0A d) := by
  have pieces := segments_unitAt h
  unfold unitRead at pieces
  obtain ⟨d, found⟩ := poisonAt_some (addr := addr) bad
  unfold State.readRange
  rw [pieces]
  simp [found]

/-- A range of a space that is not there. -/
theorem readRange_nowhere {q : State.Asker} {n : Nat} {addr : Word} (some_ : 0 < n) (gone : spaceThere s q.vd q.space = false) :
    s.readRange q addr n = .error (.trap 0x03 addr) := by
  have invalid : s.spaceValid q.vd q.space = false := gone
  unfold State.readRange State.segments
  rw [if_neg (Nat.ne_of_gt some_), if_pos (by simp [invalid])]

theorem readRange_zero (q : State.Asker) (addr : Word) : s.readRange q addr 0 = .ok 0 := rfl

end Sys2Proof.Machine
end

section
/-! What a LAUNCH is rejected for (R332, R334), and what its descriptor means. -/

namespace Sys2Proof.Machine

open Sys2Proof.Claims

variable {s t u : State} {m : Msg} {d : RegNum} {desc : Word}

/-! ### The descriptor (R332) -/

theorem dfield_lt (d off n : Nat) : dfield d off n < 256 ^ n := Nat.mod_lt _ (by positivity)

theorem toNat_dfield (d off : Nat) : (BitVec.ofNat 64 (dfield d off 8)).toNat = dfield d off 8 :=
  BitVec.toNat_ofNat .. |>.trans (Nat.mod_eq_of_lt (dfield_lt d off 8))

theorem ofNat_dfield_eq_zero (d off : Nat) : (BitVec.ofNat 64 (dfield d off 8) == 0) = (dfield d off 8 == 0) := by
  rw [Bool.eq_iff_iff, beq_iff_eq, beq_iff_eq, ← BitVec.toNat_inj, toNat_dfield]
  rfl

theorem rimField_dfield (d off n : Nat) : State.rimField (BitVec.ofNat 64 (dfield d off 8)) n = rimAddr d off n := by
  have lt := dfield_lt d off 8
  have tag : State.tagOf (BitVec.ofNat 64 (dfield d off 8)) = dfield d off 8 / 2 ^ 60 := by
    rw [State.tagOf, BitVec.extractLsb'_toNat, toNat_dfield, Nat.shiftRight_eq_div_pow]
    omega
  rw [State.rimField, rimAddr, tag, toNat_dfield]

theorem flags_dfield (d : Nat) : (BitVec.ofNat 8 (dfield d 41 1)).toNat = dfield d 41 1 :=
  BitVec.toNat_ofNat .. |>.trans (Nat.mod_eq_of_lt (dfield_lt d 41 1))

theorem cnote_dfield (d : Nat) : ((BitVec.ofNat 64 (dfield d 88 8)).extractLsb' 36 27 == 0#27) = (dfield d 88 8 / 2 ^ 36 % 2 ^ 27 == 0) := by
  rw [Bool.eq_iff_iff, beq_iff_eq, beq_iff_eq, ← BitVec.toNat_inj, BitVec.extractLsb'_toNat, toNat_dfield, Nat.shiftRight_eq_div_pow]
  rfl

theorem parseDesc_means (d : Nat) : descMeans d (State.parseDesc d) :=
  ⟨toNat_dfield d 0, rfl, rfl, toNat_dfield d 16, rfl, rfl, rfl, rfl, toNat_dfield d 32, rfl, flags_dfield d, rfl, rfl, toNat_dfield d 48,
    toNat_dfield d 56, toNat_dfield d 64, rfl, toNat_dfield d 80, toNat_dfield d 88⟩

/-- The model's check of the fields is the table of R332. -/
theorem descLegal_eq (d : Nat) : State.descLegal d = descAllowed d := by
  have field : State.descField = dfield := rfl
  unfold State.descLegal State.parseDesc descAllowed
  simp only [field, rimField_dfield, ofNat_dfield_eq_zero, flags_dfield, cnote_dfield, bne]
  ac_rfl

/-! ### The notices, the pool and the modules of a descriptor (R332, R334) -/

theorem cnote_setWidth (d : Nat) : ((BitVec.ofNat 64 (dfield d 88 8)).setWidth 32).toNat = dfield d 88 8 % 2 ^ 32 := by
  rw [BitVec.toNat_setWidth, toNat_dfield]

theorem noticesLegal_iff (s : State) (h : Word) (v : BitVec 32) (d : Nat) : s.noticesLegal (some (h, v)) (State.parseDesc d) = true ↔
    dfield d 88 8 / 2 ^ 63 = 0 ∨ ∃ g, s.grid? h = some g ∧ dfield d 88 8 / 2 ^ 16 % 2 ^ 16 < g.desc.gcnt ∧ dfield d 88 8 % 2 ^ 16 < g.desc.gsz := by
  have field : State.descField = dfield := rfl
  have lt := dfield_lt d 88 8
  have silent : (BitVec.ofNat 64 (dfield d 88 8)).getLsbD 63 = false ↔ dfield d 88 8 / 2 ^ 63 = 0 := by
    rw [← BitVec.testBit_toNat, toNat_dfield, Nat.testBit_eq_decide_div_mod_eq, decide_eq_false_iff_not]
    omega
  have gang : State.gangOf ((BitVec.ofNat 64 (dfield d 88 8)).setWidth 32) = dfield d 88 8 / 2 ^ 16 % 2 ^ 16 := by
    rw [State.gangOf, BitVec.extractLsb'_toNat, cnote_setWidth, Nat.shiftRight_eq_div_pow]
    omega
  have rank : State.rankOf ((BitVec.ofNat 64 (dfield d 88 8)).setWidth 32) = dfield d 88 8 % 2 ^ 16 := by
    rw [State.rankOf, BitVec.extractLsb'_toNat, cnote_setWidth, Nat.shiftRight_eq_div_pow]
    omega
  unfold State.noticesLegal State.parseDesc
  simp only [field, gang, rank, Option.isSome_some, Bool.or_true, Bool.and_true, Bool.or_eq_true, Bool.not_eq_true', silent]
  cases s.grid? h <;> simp

theorem length_poolOf (s : State) (vd : Nat) : (s.poolOf vd).length = if s.vdActive vd = true then poolSize s vd else 0 := by
  unfold State.poolOf poolSize
  split
  · rw [List.filter_map, List.length_map]
    rfl
  · rfl

theorem mem_maskModules {x : GridDesc} {d : Nat} (mask : x.mask = BitVec.ofNat 64 (dfield d 32 8)) (some_ : x.mask ≠ 0) (k : Nat) :
    k ∈ s.maskModules x ↔ k < 64 ∧ (dfield d 32 8).testBit k = true := by
  unfold State.maskModules
  rw [if_neg (by simpa using some_), List.mem_filter, List.mem_range, mask, BitVec.getLsbD_ofNat]
  grind

/-- A gang fits into the partition of a VD (R334). -/
def fitsPool (s : State) (vd gsz : Nat) : Prop := s.mcrN (0x10000 + 512 * vd) 1 % 2 = 1 ∧ gsz ≤ poolSize s vd

theorem lt_length_poolOf (s : State) (vd : Nat) {gsz : Nat} (some_ : 1 ≤ gsz) : (s.poolOf vd).length < gsz ↔ ¬fitsPool s vd gsz := by
  have active : s.vdActive vd = true ↔ s.mcrN (0x10000 + 512 * vd) 1 % 2 = 1 := beq_iff_eq
  rw [length_poolOf, fitsPool, ← active]
  split
  case isTrue active => simp [active]
  case isFalse idle => simp [idle]; omega

theorem tooBig_of_not_fits {vd : Nat} {x : GridDesc} (some_ : 1 ≤ x.gsz) (small : ¬fitsPool s vd x.gsz) : s.tooBig vd x = true := by
  rw [State.tooBig, decide_eq_true ((lt_length_poolOf s vd some_).2 small), Bool.true_or]

/-- What a LAUNCH is not too big for: a pool that holds a gang, and no other module of the pod. -/
theorem tooBig_of_fits {vd : Nat} {x : GridDesc} (some_ : 1 ≤ x.gsz) (fits : fitsPool s vd x.gsz)
    (out : ∀ k ∈ s.maskModules x, k ≠ s.moduleNo → s.inPod k = false) : s.tooBig vd x = false := by
  have others : (s.maskModules x).any (fun k => k != s.moduleNo && s.inPod k && (s.podPartner vd k).isSome) = false :=
    List.any_eq_false.2 fun k mem => by
      by_cases own : k = s.moduleNo
      · simp [own]
      · simp [out k mem own]
  rw [State.tooBig, decide_eq_false (fun lt => (lt_length_poolOf s vd some_).1 lt fits), others, Bool.false_and, Bool.false_or]

theorem maskLegal_of_out {vd k : Nat} {x : GridDesc} (mem : k ∈ s.maskModules x) (other : k ≠ s.moduleNo) (out : s.inPod k = false) :
    s.maskLegal vd x = false :=
  List.all_eq_false.2 ⟨k, mem, by simp [other, out]⟩

theorem maskModules_alone {x : GridDesc} (alone : x.mask = 0) : s.maskModules x = [s.moduleNo] := if_pos (by simp [alone])

theorem maskLegal_alone {vd : Nat} {x : GridDesc} (alone : x.mask = 0) : s.maskLegal vd x = true := by
  simp [State.maskLegal, maskModules_alone alone]

theorem inPod_eq_false {k : Nat} (other : k ≠ s.moduleNo) (out : s.mcrN (0x4000 + 8 * k) 2 / 2 ^ 15 % 2 = 0 ∨ k ∈ s.podLeft) : s.inPod k = false := by
  unfold State.inPod
  obtain invalid | left := out
  · rw [invalid, beq_false_of_ne other]
    rfl
  · simp [other, left]

/-! ### The check -/

/-- The space that a LAUNCH's descriptor is read in, and the request of the dispatcher for it. -/
def launchSpace (s : State) (m : Msg) : Nat := if State.isCore m.agent then 0 else ((s.grid? m.handle).map fun g => g.desc.space).getD 0
def launchAsker (s : State) (m : Msg) : State.Asker := State.dispAsker m.vd (launchSpace s m) (m.sup || State.isCore m.agent)

/-- A LAUNCH that stands alone has its turn. -/
theorem launchTurn_alone (one : launching s m d) (queue : Option Nat) : s.launchTurn m queue = true := by
  obtain ⟨-, -, -, alone, -⟩ := one
  unfold State.launchTurn
  rw [Bool.not_eq_true', List.any_eq_false]
  intro x mem
  have only := List.all_eq_true.1 alone x mem
  by_cases same : x = m
  · simp [same]
  · split
    · simp_all
    · simp

theorem exec_launchAccept_unchecked (one : launching s m d) (kind : m.kind = .launch desc) (unchecked : m.checked = none) :
    exec (.launchAccept m.id) s = .next (s.checkLaunch m desc) := by
  have turn := launchTurn_alone one none
  obtain ⟨-, found, flight, -⟩ := one
  show execLaunchAccept m.id s = _
  unfold execLaunchAccept
  simp [found, kind, unchecked, flight, turn]

theorem usedRange_eq (s : State) (q : State.Asker) (addr : Word) (n : Nat) : ∃ p, s.usedRange q addr n = { s with tlbPlru := p } := by
  unfold State.usedRange
  generalize State.pagesOf addr n = l
  induction l generalizing s with
  | nil => exact ⟨_, rfl⟩
  | cons p l ih =>
    have one : ∃ t, s.usedBy q (BitVec.ofNat 64 p) = { s with tlbPlru := t } := by
      unfold State.usedBy State.useLeaf
      split
      · exact ⟨_, rfl⟩
      · exact ⟨_, rfl⟩
    obtain ⟨t, e⟩ := one
    obtain ⟨u, rest⟩ := ih { s with tlbPlru := t }
    exact ⟨u, by rw [List.foldl_cons, e, rest]⟩

/-- The check of a LAUNCH whose descriptor cannot be read. -/
theorem checkLaunch_unread {cause : BitVec 8} {addr : Word} (fresh : m.hold = none) (read : s.readRange (launchAsker s m) desc 128 = .error (.trap cause addr)) :
    s.checkLaunch m desc = s.answerLaunch m (State.rejection 4) := by
  unfold State.checkLaunch
  extract_lets sup own reject
  have own_ : own = launchSpace s m := by
    unfold own launchSpace
    cases s.grid? m.handle <;> simp
  have read : s.readRange (State.dispAsker m.vd (launchSpace s m) sup) desc 128 = .error (.trap cause addr) := read
  rw [own_, fresh, read]
  rfl

/-- The check of a LAUNCH whose descriptor is read, up to its list and image: where it has neither, it is taken in with what the descriptor says. -/
theorem checkLaunch_read {v : Nat} (fresh : m.hold = none) (queue : m.queue = none) (read : s.readRange (launchAsker s m) desc 128 = .ok v) :
    ∃ p r, s.checkLaunch m desc =
      (if (!descAllowed v || !s.noticesLegal (some (m.handle, m.vtn)) (State.parseDesc v)) = true then
        { s with tlbPlru := p }.answerLaunch m (State.rejection 1)
      else if s.tooBig m.vd (State.parseDesc v) = true then { s with tlbPlru := p, free := s.free + 1 }.answerLaunch m (State.rejection 2)
      else if (!s.maskLegal m.vd (State.parseDesc v)) = true then { s with tlbPlru := p }.answerLaunch m (State.rejection 3)
      else r) ∧
    (dfield v 8 4 = 0 → dfield v 72 4 = 0 → r = { s with tlbPlru := p, free := s.free + 1 }.acceptLaunch m desc (State.parseDesc v) []) := by
  obtain ⟨p, used⟩ := usedRange_eq s (launchAsker s m) desc 128
  unfold State.checkLaunch
  extract_lets sup own reject w counted
  have own_ : own = launchSpace s m := by
    unfold own launchSpace
    cases s.grid? m.handle <;> simp
  have read : s.readRange (State.dispAsker m.vd (launchSpace s m) sup) desc 128 = .ok v := read
  have used : w = { s with tlbPlru := p } := by
    rw [← used]
    unfold w
    rw [own_]
    rfl
  have counted_ : counted = { s with tlbPlru := p, free := s.free + 1 } := by
    unfold counted
    rw [used]
  have launcher : State.launcherOf m = some (m.handle, m.vtn) := by
    unfold State.launcherOf
    rw [queue]
    rfl
  rw [own_, fresh, read, counted_, used]
  simp only [State.attempt, descLegal_eq, launcher]
  refine ⟨p, _, rfl, fun noImage noList => ?_⟩
  have image : (State.parseDesc v).imsz = 0 := noImage
  have list : (State.parseDesc v).iocnt = 0 := noList
  unfold State.probeImage State.usedImage
  simp only [image, list, if_true, Nat.mul_zero, readRange_zero]
  rfl

/-- What a LAUNCH that is rejected leaves. -/
theorem launch_rejected (one : launching s m d) {n f : Nat} {tree}
    (ran : exec (.launchAccept m.id) s = .next ({ s with tlbPlru := tree, free := f }.answerLaunch m (State.rejection n))) :
    ∃ t, exec (.launchAccept m.id) s = .next t ∧ launched t m d (BitVec.ofNat 64 (2 ^ 63 + n)) ∧
      t.grids = s.grids ∧ t.mem = s.mem ∧ t.serials = s.serials ∧ t.records = s.records := by
  obtain ⟨net, tiles, answer, told⟩ := answerLaunch_launched (t := { s with tlbPlru := tree, free := f }) one rfl (State.rejection n)
  refine ⟨_, ran, told, ?_⟩
  rw [answer]
  exact ⟨rfl, rfl, rfl, rfl⟩

end Sys2Proof.Machine
end

section
/-! A grid's residency table, headers and rings (R257, R336): several fields written to memory that do not overlap, and what is read of them. -/

namespace Sys2Proof.Machine

open Sys2Proof.Claims

variable {s : State}

/-! ### Fields written one after the other -/

/-- A field of `size` bytes at a key, and its value. -/
structure Piece where
  key   : Nat
  size  : Nat
  value : Nat

/-- A field lies apart from `size` bytes at a key. -/
def Piece.Clear (p : Piece) (key size : Nat) : Prop := p.key + p.size ≤ key ∨ key + size ≤ p.key

/-- Write fields in order. -/
def Mem.writePieces (m : List Host.Cell) (l : List Piece) : List Host.Cell := l.foldl (fun m p => Mem.writeN m p.key p.size p.value) m

theorem Mem.readN_writeN_clear (m : List Host.Cell) {p : Piece} {key size : Nat} (clear : p.Clear key size) :
    Mem.readN (Mem.writeN m p.key p.size p.value) key size = Mem.readN m key size :=
  Mem.readN_congr size key fun a low high => Mem.read_writeN_outside p.size m p.value (by unfold Piece.Clear at clear; omega)

theorem Mem.writePieces_append (m : List Host.Cell) (l l' : List Piece) : Mem.writePieces m (l ++ l') = Mem.writePieces (Mem.writePieces m l) l' :=
  List.foldl_append

/-- What lies apart from every field stays. -/
theorem Mem.readN_writePieces_clear {key size : Nat} : ∀ {l : List Piece} {m : List Host.Cell}, (∀ p ∈ l, p.Clear key size) →
    Mem.readN (Mem.writePieces m l) key size = Mem.readN m key size
  | [], _, _ => rfl
  | p :: _, m, h => (readN_writePieces_clear fun q mem => h q (List.mem_cons_of_mem _ mem)).trans (Mem.readN_writeN_clear m (h p List.mem_cons_self))

/-- Each of several fields that lie apart reads what was written to it. -/
theorem Mem.readN_writePieces {p : Piece} : ∀ {l : List Piece} {m : List Host.Cell}, Mem.wf m = true →
    l.Pairwise (fun p q => q.Clear p.key p.size) → p ∈ l → p.value < 256 ^ p.size → Mem.readN (Mem.writePieces m l) p.key p.size = p.value
  | q :: l, _, wf, apart, mem, small => by
    obtain ⟨first, rest⟩ := List.pairwise_cons.1 apart
    obtain rfl | later := List.mem_cons.1 mem
    · exact (Mem.readN_writePieces_clear first).trans ((Mem.readN_writeN p.size p.key p.value wf).trans (Nat.mod_eq_of_lt small))
    · exact readN_writePieces (l := l) (Mem.writeN_wf q.size q.key q.value wf) rest later small

theorem Mem.read_clear_inside {lo n k : Nat} (from_ : lo ≤ k) (to_ : k < lo + n) : ∀ m : List Host.Cell, Mem.read (Mem.clear m lo n) k = 0
  | [] => rfl
  | (j, b) :: t => by
    have ih := read_clear_inside from_ to_ t
    unfold Mem.clear at ih ⊢
    by_cases out : j < lo ∨ lo + n ≤ j
    · have : j ≠ k := by omega
      simp [out, Mem.read, ih, this]
    · simp [out, ih]

theorem Mem.readN_clear (m : List Host.Cell) {lo n : Nat} : ∀ (size : Nat) {key : Nat}, lo ≤ key → key + size ≤ lo + n →
    Mem.readN (Mem.clear m lo n) key size = 0
  | 0, _, _, _ => rfl
  | size + 1, key, low, high => by
    rw [Mem.readN, Mem.read_clear_inside low (by omega), readN_clear m size (by omega) (by omega)]
    rfl

/-! ### The layout of a grid's block -/

/-- Bytes of the headers and rings of one gang. -/
def gangBytes (k : Nat) : Nat := 128 + 32 * ((State.capsOf k).1 + (State.capsOf k).2)
/-- Where the residency entry of gang `lo + j` of a grid of `gcnt` stands, and the headers of its rings. -/
def entryAt (base lo j : Nat) : Nat := base + 32 * (lo + j)
def headersAt (k gcnt base j : Nat) : Nat := base + 32 * gcnt + gangBytes k * j

/-- The fields of one gang that are not zero: the addresses of its rings' headers, and each ring's address and capacity. -/
def gangPieces (k gcnt base lo j : Nat) : List Piece :=
  let e := entryAt base lo j
  let h := headersAt k gcnt base j
  [⟨e + 16, 8, h⟩, ⟨e + 24, 8, h + 64⟩, ⟨h, 8, h + 128⟩, ⟨h + 8, 4, (State.capsOf k).1⟩, ⟨h + 64, 8, h + 128 + 32 * (State.capsOf k).1⟩,
    ⟨h + 72, 4, (State.capsOf k).2⟩]

/-- The fields of the gangs of a module's range. -/
def gridPieces (s : State) (k : Nat) (x : GridDesc) (base : Nat) : List Piece :=
  (List.range ((s.moduleRange k x).2 - (s.moduleRange k x).1)).flatMap (gangPieces k x.gcnt base (s.moduleRange k x).1)

/-- The tables of one gang are laid out. -/
def State.layGang (s : State) (k gcnt base lo j : Nat) : State := { s with mem := Mem.writePieces s.mem (gangPieces k gcnt base lo j) }

theorem State.foldl_layGang (k gcnt base lo : Nat) : ∀ (l : List Nat) (s : State),
    l.foldl (fun s j => s.layGang k gcnt base lo j) s = { s with mem := Mem.writePieces s.mem (l.flatMap (gangPieces k gcnt base lo)) }
  | [], _ => rfl
  | j :: l, s => by
    rw [List.foldl_cons, foldl_layGang k gcnt base lo l, List.flatMap_cons, Mem.writePieces_append, layGang]

theorem State.layGang_eq (s : State) (k gcnt base lo j : Nat) : s.layGang k gcnt base lo j =
    let e := entryAt base lo j
    let h := headersAt k gcnt base j
    let s := (s.pokeN (rimKey (e + 16)) 8 h).pokeN (rimKey (e + 24)) 8 (h + 64)
    let s := (s.pokeN (rimKey h) 8 (h + 128)).pokeN (rimKey (h + 8)) 4 (State.capsOf k).1
    (s.pokeN (rimKey (h + 64)) 8 (h + 128 + 32 * (State.capsOf k).1)).pokeN (rimKey (h + 72)) 4 (State.capsOf k).2 := by
  simp only [layGang, Mem.writePieces, gangPieces, List.foldl_cons, List.foldl_nil, pokeN, rimKey]

theorem State.writeTables_eq_layGang (s : State) (k : Nat) (x : GridDesc) (base : Nat) : s.writeTables k x base =
    (List.range ((s.moduleRange k x).2 - (s.moduleRange k x).1)).foldl (fun t j => t.layGang k x.gcnt base (s.moduleRange k x).1 j)
      (s.zeroRange (rimKey base) (s.tableBytes k x)) := by
  simp only [State.writeTables, State.layGang_eq, entryAt, headersAt, gangBytes]

/-! ### What is read of the block -/

/-- The fields of a gang lie in its residency entry and its headers. -/
theorem gangPieces_within {k gcnt base lo j : Nat} {p : Piece} (mem : p ∈ gangPieces k gcnt base lo j) :
    (entryAt base lo j + 16 ≤ p.key ∧ p.key + p.size ≤ entryAt base lo j + 32) ∨
    (headersAt k gcnt base j ≤ p.key ∧ p.key + p.size ≤ headersAt k gcnt base j + 128) := by
  simp only [gangPieces, List.mem_cons, List.not_mem_nil, or_false] at mem
  obtain rfl | rfl | rfl | rfl | rfl | rfl := mem <;> simp

theorem entryAt_lt_headersAt {k gcnt base lo j : Nat} (low : lo + j < gcnt) : entryAt base lo j + 32 ≤ headersAt k gcnt base j := by
  unfold entryAt headersAt
  omega

theorem gangPieces_apart {k gcnt base lo j : Nat} (low : lo + j < gcnt) : (gangPieces k gcnt base lo j).Pairwise (fun p q => q.Clear p.key p.size) := by
  have := entryAt_lt_headersAt (k := k) (base := base) low
  simp [gangPieces, Piece.Clear]
  omega

theorem headersAt_apart {k gcnt base i j : Nat} (less : i < j) : headersAt k gcnt base i + gangBytes k ≤ headersAt k gcnt base j := by
  have := Nat.mul_le_mul_left (gangBytes k) (Nat.succ_le_of_lt less)
  rw [Nat.mul_succ] at this
  unfold headersAt
  omega

theorem le_gangBytes (k : Nat) : 128 ≤ gangBytes k := by
  unfold gangBytes
  omega

/-- The fields of different gangs lie apart. -/
theorem gangPieces_clear {k gcnt base lo i j : Nat} (less : i < j) (low : lo + j < gcnt) {p q : Piece} (memp : p ∈ gangPieces k gcnt base lo i)
    (memq : q ∈ gangPieces k gcnt base lo j) : q.Clear p.key p.size := by
  have apart := headersAt_apart (k := k) (gcnt := gcnt) (base := base) less
  have wide := le_gangBytes k
  have first := gangPieces_within memp
  have second := gangPieces_within memq
  have table : base + 32 * gcnt ≤ headersAt k gcnt base i := Nat.le_add_right ..
  unfold Piece.Clear
  unfold entryAt at first second
  omega

/-- The fields of a grid lie apart from each other. -/
theorem gridPieces_apart {s : State} {k base : Nat} {x : GridDesc} (within : (s.moduleRange k x).2 ≤ x.gcnt) :
    (gridPieces s k x base).Pairwise (fun p q => q.Clear p.key p.size) := by
  refine List.pairwise_flatMap.2 ⟨fun j mem => gangPieces_apart (by have := List.mem_range.1 mem; omega), ?_⟩
  refine List.pairwise_lt_range.imp_of_mem fun {i j} _ memj less p memp q memq => gangPieces_clear less ?_ memp memq
  have := List.mem_range.1 memj
  omega

/-- A module runs gangs of the grid only. -/
theorem State.moduleRange_le (s : State) (k : Nat) (x : GridDesc) : (s.moduleRange k x).2 ≤ x.gcnt := by
  unfold State.moduleRange
  dsimp only
  split
  · exact le_rfl
  · split
    · exact Nat.zero_le _
    · split
      · exact Nat.min_le_right ..
      · exact (Nat.min_le_right ..).trans (Nat.sub_le ..)

/-- The entry of a gang, and the headers of its rings. -/
def inSlot (k gcnt base lo j key size : Nat) : Prop :=
  (entryAt base lo j ≤ key ∧ key + size ≤ entryAt base lo j + 32) ∨ (headersAt k gcnt base j ≤ key ∧ key + size ≤ headersAt k gcnt base j + 128)

section
variable {k base j : Nat} {x : GridDesc} {key size : Nat}

theorem slot_in_block (here : j < (s.moduleRange k x).2 - (s.moduleRange k x).1) (slot : inSlot k x.gcnt base (s.moduleRange k x).1 j key size) :
    base ≤ key ∧ key + size ≤ base + s.tableBytes k x := by
  have within := s.moduleRange_le k x
  have wide := le_gangBytes k
  have room := Nat.mul_le_mul_left (gangBytes k) (Nat.succ_le_of_lt here)
  rw [Nat.mul_succ, Nat.mul_comm _ ((s.moduleRange k x).2 - _)] at room
  have bytes : s.tableBytes k x = 32 * x.gcnt + ((s.moduleRange k x).2 - (s.moduleRange k x).1) * gangBytes k := rfl
  unfold inSlot entryAt headersAt at slot
  omega

/-- A place in the slot of a gang lies apart from the fields of the others. -/
theorem gridPieces_clear (here : j < (s.moduleRange k x).2 - (s.moduleRange k x).1) (slot : inSlot k x.gcnt base (s.moduleRange k x).1 j key size)
    (own : ∀ p ∈ gangPieces k x.gcnt base (s.moduleRange k x).1 j, p.Clear key size) : ∀ p ∈ gridPieces s k x base, p.Clear key size := by
  intro p mem
  obtain ⟨i, memi, mem⟩ := List.mem_flatMap.1 mem
  have there := List.mem_range.1 memi
  have within := s.moduleRange_le k x
  have place := gangPieces_within mem
  have wide := le_gangBytes k
  have table (j : Nat) : base + 32 * x.gcnt ≤ headersAt k x.gcnt base j := Nat.le_add_right ..
  have tablei := table i
  have tablej := table j
  unfold Piece.Clear
  unfold inSlot entryAt at slot
  unfold entryAt at place
  obtain less | rfl | less := Nat.lt_trichotomy i j
  · have := headersAt_apart (k := k) (gcnt := x.gcnt) (base := base) less
    omega
  · exact own p mem
  · have := headersAt_apart (k := k) (gcnt := x.gcnt) (base := base) less
    omega

/-- Memory with the block of a grid laid out. -/
def gridBlock (s : State) (k : Nat) (x : GridDesc) (base : Nat) : List Host.Cell :=
  Mem.writePieces (Mem.clear s.mem (rimKey base) (s.tableBytes k x)) (gridPieces s k x base)

theorem readN_gridBlock_zero (here : j < (s.moduleRange k x).2 - (s.moduleRange k x).1)
    (slot : inSlot k x.gcnt base (s.moduleRange k x).1 j key size)
    (own : ∀ p ∈ gangPieces k x.gcnt base (s.moduleRange k x).1 j, p.Clear key size) : Mem.readN (gridBlock s k x base) key size = 0 := by
  obtain ⟨low, high⟩ := slot_in_block here slot
  exact (Mem.readN_writePieces_clear (gridPieces_clear here slot own)).trans (Mem.readN_clear _ size low high)

theorem readN_gridBlock_piece (wf : Mem.wf s.mem = true) (here : j < (s.moduleRange k x).2 - (s.moduleRange k x).1) {p : Piece}
    (mem : p ∈ gangPieces k x.gcnt base (s.moduleRange k x).1 j) (small : p.value < 256 ^ p.size) :
    Mem.readN (gridBlock s k x base) p.key p.size = p.value :=
  Mem.readN_writePieces (Mem.clear_wf _ _ wf) (gridPieces_apart (s.moduleRange_le k x)) (List.mem_flatMap.2 ⟨j, List.mem_range.2 here, mem⟩) small

theorem capsOf_bounds (k : Nat) : (1 ≤ (State.capsOf k).1 ∧ (State.capsOf k).1 < 2 ^ 32) ∧ 1 ≤ (State.capsOf k).2 ∧ (State.capsOf k).2 < 2 ^ 32 := by
  simp only [State.capsOf]
  omega

/-- The bytes of a gang's slot that no field takes: the head of the entry, and what follows the capacity in each header. -/
theorem gangPieces_gap {gcnt lo : Nat} (table : entryAt base lo j + 32 ≤ headersAt k gcnt base j) (gap : key + size ≤ entryAt base lo j + 16 ∨
    headersAt k gcnt base j + 12 ≤ key ∧ key + size ≤ headersAt k gcnt base j + 64 ∨ headersAt k gcnt base j + 76 ≤ key) :
    ∀ p ∈ gangPieces k gcnt base lo j, p.Clear key size := by
  simp only [gangPieces, List.forall_mem_cons, Piece.Clear]
  refine ⟨?_, ?_, ?_, ?_, ?_, ?_, by simp⟩ <;> omega

/-- In a state that reads a grid's block as it was laid out, every entry of the module's gangs is zero but for two empty rings. -/
theorem tables_laid {t : State} {i : Nat} (wf : Mem.wf s.mem = true) (room : base + s.tableBytes k x ≤ rimBytes)
    (laid : ∀ key size, base ≤ key → key + size ≤ base + s.tableBytes k x → t.readN key size = Mem.readN (gridBlock s k x base) key size)
    (from_ : (s.moduleRange k x).1 ≤ i) (to_ : i < (s.moduleRange k x).2) : let e := rimKey (base + 32 * i)
    t.readN e 16 = 0 ∧ emptyRing t (t.readN (e + 16) 8) ∧ emptyRing t (t.readN (e + 24) 8) := by
  obtain ⟨j, rfl⟩ := Nat.exists_eq_add_of_le from_
  have here : j < (s.moduleRange k x).2 - (s.moduleRange k x).1 := by omega
  have table := entryAt_lt_headersAt (k := k) (base := base) (show (s.moduleRange k x).1 + j < x.gcnt from to_.trans_le (s.moduleRange_le k x))
  have field {p : Piece} (mem : p ∈ gangPieces k x.gcnt base (s.moduleRange k x).1 j) (small : p.value < 256 ^ p.size) : t.readN p.key p.size = p.value := by
    obtain ⟨low, high⟩ := slot_in_block here ((gangPieces_within mem).imp_left fun h => ⟨by omega, h.2⟩)
    rw [laid p.key p.size low high, readN_gridBlock_piece wf here mem small]
  obtain ⟨-, inside⟩ := slot_in_block (key := headersAt k x.gcnt base j) (size := 128) here (.inr ⟨le_rfl, le_rfl⟩)
  have bounded : headersAt k x.gcnt base j + 128 ≤ 1649267441664 := inside.trans room
  have zero {key size : Nat} (gap : entryAt base (s.moduleRange k x).1 j ≤ key ∧ key + size ≤ entryAt base (s.moduleRange k x).1 j + 16 ∨
      headersAt k x.gcnt base j + 12 ≤ key ∧ key + size ≤ headersAt k x.gcnt base j + 64 ∨
      headersAt k x.gcnt base j + 76 ≤ key ∧ key + size ≤ headersAt k x.gcnt base j + 128) : t.readN key size = 0 := by
    have slot : inSlot k x.gcnt base (s.moduleRange k x).1 j key size := by
      unfold inSlot
      omega
    obtain ⟨low, high⟩ := slot_in_block here slot
    rw [laid key size low high, readN_gridBlock_zero here slot (gangPieces_gap table (by omega))]
  obtain ⟨⟨one, wide⟩, one', wide'⟩ := capsOf_bounds k
  have skid : t.readN (entryAt base (s.moduleRange k x).1 j + 16) 8 = headersAt k x.gcnt base j :=
    field (p := ⟨_, 8, headersAt k x.gcnt base j⟩) (by simp [gangPieces]) (by simp; omega)
  have ovf : t.readN (entryAt base (s.moduleRange k x).1 j + 24) 8 = headersAt k x.gcnt base j + 64 :=
    field (p := ⟨_, 8, headersAt k x.gcnt base j + 64⟩) (by simp [gangPieces]) (by simp; omega)
  have skidCap : t.readN (headersAt k x.gcnt base j + 8) 4 = (State.capsOf k).1 :=
    field (p := ⟨_, 4, (State.capsOf k).1⟩) (by simp [gangPieces]) wide
  have ovfCap : t.readN (headersAt k x.gcnt base j + 72) 4 = (State.capsOf k).2 :=
    field (p := ⟨_, 4, (State.capsOf k).2⟩) (by simp [gangPieces]) wide'
  show t.readN (entryAt base _ j) 16 = 0 ∧ emptyRing t (t.readN (entryAt base _ j + 16) 8) ∧ emptyRing t (t.readN (entryAt base _ j + 24) 8)
  rw [skid, ovf]
  unfold emptyRing rimKey
  exact ⟨zero (by omega), ⟨one.trans_eq skidCap.symm, zero (by omega), zero (by omega), zero (by omega)⟩,
    ⟨one'.trans_eq ovfCap.symm, zero (by omega), zero (by omega), zero (by omega)⟩⟩

end

end Sys2Proof.Machine
end

section
/-! A LAUNCH that is taken in (R257, R335, R336): its queue's turn, its block of the swap region, its grid and its answer. -/

namespace Sys2Proof.Machine

open Sys2Proof.Claims

variable {s t u : State} {m : Msg} {d : RegNum} {desc : Word} {x : GridDesc} {io : List IoRegion} {b : SwapBlock}

/-! ### The turn of a LAUNCH that stands alone -/

theorem queueHead_alone (one : launching s m d) (queue : Nat) : s.queueHead m queue = true := by
  obtain ⟨-, -, -, alone, -⟩ := one
  have plain (y : Msg) (mem : y ∈ s.net) : (y.id != m.id && State.waitsIn y m.vd queue) = false := by
    have only := List.all_eq_true.1 alone y mem
    by_cases same : y = m
    · simp [same]
    · unfold State.waitsIn
      split
      · simp_all
      · simp
  unfold State.queueHead
  rw [Bool.not_eq_true', List.any_eq_false]
  intro y mem
  rw [plain y]
  · simp
  · split at mem
    · exact (List.takeWhile_sublist _).subset mem
    · exact mem

/-! ### What is made -/

/-- A block of the swap region lies in rim memory; nothing else changes. -/
theorem allocSwap_eq_some {vd bytes : Nat} (h : s.allocSwap vd bytes = some (b, u)) :
    b.base + bytes ≤ rimBytes ∧ ∃ swap count, u = { s with swap := swap, swapCount := count } := by
  unfold State.allocSwap at h
  dsimp only at h
  split at h
  · next lo found =>
    cases h
    have fits := List.find?_some found
    simp only [State.swapFits, Bool.and_eq_true, decide_eq_true_eq] at fits
    exact ⟨fits.1.2, _, _, rfl⟩
  · exact nomatch h

theorem writeTables_eq (s : State) (k : Nat) (x : GridDesc) (base : Nat) :
    s.writeTables k x base = { s.zeroRange (rimKey base) (s.tableBytes k x) with mem := gridBlock s k x base } := by
  rw [State.writeTables_eq_layGang, State.foldl_layGang]
  rfl

/-- The handle of the next grid of a VD and a queue (R336). -/
def nextHandle (s : State) (vd queue : Nat) : Word := BitVec.ofNat 64 ((s.nextSerial vd).toNat + queue * 2 ^ 32 + s.moduleNo * 2 ^ 48)

theorem nextHandle_eq (s : State) (vd : Nat) {queue : Nat} (small : queue < 256) :
    (s.nextSerial vd).setWidth 64 ||| BitVec.ofNat 64 (queue * 2 ^ 32 + s.moduleNo * 2 ^ 48) = nextHandle s vd queue := by
  have serial := (s.nextSerial vd).isLt
  have module : s.moduleNo < 64 := Nat.mod_lt _ (by decide)
  have sum := Nat.two_pow_add_eq_or_of_lt serial (queue + s.moduleNo * 2 ^ 16)
  apply BitVec.eq_of_toNat_eq
  rw [nextHandle, BitVec.toNat_or, BitVec.toNat_setWidth, BitVec.toNat_ofNat, BitVec.toNat_ofNat, Nat.mod_eq_of_lt (by omega),
    Nat.mod_eq_of_lt (show queue * 2 ^ 32 + s.moduleNo * 2 ^ 48 < 2 ^ 64 by omega), Nat.mod_eq_of_lt (by omega),
    show queue * 2 ^ 32 + s.moduleNo * 2 ^ 48 = 2 ^ 32 * (queue + s.moduleNo * 2 ^ 16) by omega, Nat.or_comm, ← sum]
  omega

/-- A grid as it enters the tables. -/
def newGrid (s : State) (k : Nat) (m : Msg) (launcher : Option (Word × BitVec 32)) (x : GridDesc) (io : List IoRegion) (b : SwapBlock) (h : Word) : Grid :=
  { handle := State.gidOf m.vd h, vd := m.vd, desc := x, io := io, launcher := launcher
    replay := if s.vdReplay m.vd then some (BitVec.ofNat 64 (s.vdN m.vd 72 8)) else none
    table := b.base, blocks := [b], lo := (s.moduleRange k x).1, hi := (s.moduleRange k x).2
    ranges := if (s.moduleRange k x).1 < (s.moduleRange k x).2 then [{ node := 260, lo := (s.moduleRange k x).1, hi := (s.moduleRange k x).2 }] else []
    seedId := State.handleOf (State.gidOf m.vd h), seedFrom := s.mcrN 0x1018 8 }

/-- What the entry of a grid changes. -/
theorem enterGrid_eq {k : Nat} {launcher : Option (Word × BitVec 32)} (small : x.queue < 256) : ∃ full poison,
    s.enterGrid k m launcher x io b = (nextHandle s m.vd x.queue, { s with
      mem := Mem.writeN (gridBlock s k x b.base) (mcrKey (State.vdOff m.vd 72)) 8 0, full := full, poison := poison
      grids := s.grids ++ [newGrid s k m launcher x io b (nextHandle s m.vd x.queue)]
      serials := Tab.set s.serials m.vd (if s.nextSerial m.vd + 1 == 0#32 then 1 else s.nextSerial m.vd + 1) }) := by
  unfold State.enterGrid State.addGrid
  dsimp only
  rw [nextHandle_eq s m.vd small, writeTables_eq]
  exact ⟨_, _, rfl⟩

theorem Mem.writePieces_wf : ∀ (l : List Piece) {m : List Host.Cell}, Mem.wf m = true → Mem.wf (Mem.writePieces m l) = true
  | [], _, h => h
  | p :: l, _, h => writePieces_wf l (Mem.writeN_wf p.size p.key p.value h)

theorem gridBlock_wf {k base : Nat} (wf : Mem.wf s.mem = true) : Mem.wf (gridBlock s k x base) = true := Mem.writePieces_wf _ (Mem.clear_wf _ _ wf)

theorem gridBlock_swap (s : State) (k base : Nat) (x : GridDesc) (swap : List SwapBlock) (count : Nat) :
    gridBlock { s with swap := swap, swapCount := count } k x base = gridBlock s k x base := by
  have range : ({ s with swap := swap, swapCount := count } : State).moduleRange k x = s.moduleRange k x := rfl
  unfold gridBlock gridPieces State.tableBytes
  rw [range]

/-! ### Acceptance -/

theorem launcherOf_thread (queue : m.queue = none) : State.launcherOf m = some (m.handle, m.vtn) := by
  unfold State.launcherOf
  rw [queue]
  rfl

/-- A LAUNCH that has its turn and finds room enters its grid and is answered with its handle. -/
theorem acceptLaunch_taken (one : launching s m d) (room : (s.queueGrids m.vd x.queue).length < 256)
    (place : s.allocSwap m.vd (s.tableBytes s.swapCount x) = some (b, u)) : s.acceptLaunch m desc x io =
      (u.enterGrid s.swapCount m (some (m.handle, m.vtn)) x io b).2.answerLaunch m (u.enterGrid s.swapCount m (some (m.handle, m.vtn)) x io b).1 := by
  have turn := launchTurn_alone one (some x.queue)
  have head := queueHead_alone one x.queue
  obtain ⟨-, -, -, -, -, queue, -⟩ := one
  unfold State.acceptLaunch
  simp only [turn, head, launcherOf_thread queue, place, Bool.not_true, Bool.or_self, Bool.false_or, decide_eq_true_eq, Nat.not_le.2 room, if_false]

/-- What such a LAUNCH makes. -/
theorem acceptLaunch_makes (one : launching s m d) (small : x.queue < 256) (room : (s.queueGrids m.vd x.queue).length < 256)
    (place : s.allocSwap m.vd (s.tableBytes s.swapCount x) = some (b, u)) : let t := s.acceptLaunch m desc x io
    t.grids = s.grids ++ [newGrid s s.swapCount m (some (m.handle, m.vtn)) x io b (nextHandle s m.vd x.queue)] ∧
    t.mem = Mem.writeN (gridBlock s s.swapCount x b.base) (mcrKey (State.vdOff m.vd 72)) 8 0 ∧
    t.serials = Tab.set s.serials m.vd (if s.nextSerial m.vd + 1 == 0#32 then 1 else s.nextSerial m.vd + 1) ∧
    launched t m d (nextHandle s m.vd x.queue) := by
  rw [acceptLaunch_taken one room place]
  obtain ⟨-, swap, count, rfl⟩ := allocSwap_eq_some place
  obtain ⟨full, poison, entered⟩ := enterGrid_eq (s := { s with swap := swap, swapCount := count }) (m := m) (io := io) (b := b) (k := s.swapCount)
    (launcher := some (m.handle, m.vtn)) small
  rw [entered]
  dsimp only
  generalize made : ({ s with mem := _, full := _, poison := _, grids := _, swap := _, swapCount := _, serials := _ } : State) = t
  obtain ⟨net, tiles, answer, told⟩ := answerLaunch_launched (t := t) one (by rw [← made]) (nextHandle s m.vd x.queue)
  refine ⟨?_, ?_, ?_, told⟩
  · refine (congrArg State.grids answer).trans ?_
    rw [← made]
    rfl
  · refine (congrArg State.mem answer).trans ?_
    rw [← made, gridBlock_swap]
  · refine (congrArg State.serials answer).trans ?_
    rw [← made]
    rfl

theorem exec_launchAccept_checked (one : launching s m d) (kind : m.kind = .launch desc) (checked : m.checked = some (x, io)) :
    exec (.launchAccept m.id) s = .next (s.acceptLaunch m desc x io) := by
  obtain ⟨-, found, -⟩ := one
  show execLaunchAccept m.id s = _
  unfold execLaunchAccept
  simp only [found, kind, checked]

theorem newGrid_handle {k : Nat} {launcher : Option (Word × BitVec 32)} {h : Word} (vd : m.vd < 256) :
    (newGrid s k m launcher x io b h).handle = h ||| (BitVec.ofNat 64 m.vd <<< 54) := by
  rw [newGrid, State.gidOf, Nat.mod_eq_of_lt vd]

theorem newGrid_replay {k : Nat} {launcher : Option (Word × BitVec 32)} {h : Word} : (newGrid s k m launcher x io b h).replay =
    if s.mcrN (0x10000 + 512 * m.vd) 1 / 4 % 2 = 1 ∧ s.mcrN 0x50 16 / 32 % 2 = 1 then some (BitVec.ofNat 64 (s.mcrN (0x10000 + 512 * m.vd + 72) 8)) else none := by
  have bound : s.vdReplay m.vd = true ↔ s.mcrN (0x10000 + 512 * m.vd) 1 / 4 % 2 = 1 ∧ s.mcrN 0x50 16 / 32 % 2 = 1 := by
    unfold State.vdReplay State.feature
    rw [Bool.and_eq_true, beq_iff_eq, beq_iff_eq, and_comm]
    rfl
  exact if_congr bound rfl rfl

theorem moduleRange_alone {k : Nat} (alone : x.mask = 0) : s.moduleRange k x = (0, x.gcnt) := by
  unfold State.moduleRange
  rw [maskModules_alone alone]
  exact if_pos (beq_self_eq_true _)

/-- A LAUNCH that is accepted makes a grid as R257, R335 and R336 say. -/
theorem accepted_makes_grid : acceptMakesGrid := by
  intro s u m desc x io b d one kind checked small room place
  obtain ⟨grids, mem, serials, told⟩ := acceptLaunch_makes (desc := desc) (io := io) one small room place
  have runs := exec_launchAccept_checked one kind checked
  obtain ⟨wf, -, -, -, -, -, -, -, vd, -⟩ := one
  obtain ⟨inside, -⟩ := allocSwap_eq_some place
  refine ⟨_, _, runs, grids, told, newGrid_handle vd, rfl, rfl, rfl, rfl, rfl, rfl, rfl, rfl,
    fun alone => Prod.mk.inj (moduleRange_alone alone), newGrid_replay, ?_, ?_, fun i from_ to_ => ?_⟩
  · exact (congrArg (fun m => Mem.readN m (mcrKey (State.vdOff _ 72)) 8) mem).trans (Mem.readN_writeN 8 _ 0 (gridBlock_wf wf))
  · rw [serials, Tab.get?_set_self]
    simp only [beq_iff_eq]
    rfl
  · refine tables_laid wf inside (fun key size _ high => ?_) from_ to_
    refine (congrArg (fun m => Mem.readN m key size) mem).trans (Mem.readN_writeN_clear _ (p := ⟨_, 8, 0⟩) (.inr ?_))
    show key + size ≤ 8796093022208 + State.vdOff m.vd 72
    unfold rimBytes at inside
    omega

end Sys2Proof.Machine
end

section
/-! What the descriptor of a LAUNCH decides (R332, R334), and the statement on launching as a whole. -/

namespace Sys2Proof.Machine

open Sys2Proof.Claims

variable {s t u : State} {m : Msg} {d : RegNum} {desc : Word} {x : GridDesc} {io : List IoRegion}

/-- A LAUNCH that waits, and did not before, stands behind the others. -/
theorem standLaunch_fresh (fresh : State.reached m = false) (m' : Msg) : s.standLaunch m m' = { s with net := (s.net.filter fun y => y.id != m.id) ++ [m'] } := by
  unfold State.standLaunch
  rw [fresh]
  rfl

/-- A LAUNCH that has been checked makes a grid, or waits with what its descriptor says. -/
theorem acceptLaunch_outcome (one : launching s m d) (fresh : State.reached m = false) (small : x.queue < 256) :
    (∃ g, (s.acceptLaunch m desc x io).grids = s.grids ++ [g] ∧ g.desc = x ∧ g.io = io) ∨
    ((s.acceptLaunch m desc x io).grids = s.grids ∧ ∃ m' ∈ (s.acceptLaunch m desc x io).net, m'.id = m.id ∧ m'.checked = some (x, io)) := by
  have turn := launchTurn_alone one (some x.queue)
  have head := queueHead_alone one x.queue
  by_cases full : 256 ≤ (s.queueGrids m.vd x.queue).length
  · refine .inr ?_
    unfold State.acceptLaunch
    simp only [turn, head, full, decide_true, Bool.or_true, if_true, standLaunch_fresh fresh]
    exact ⟨trivial, _, List.mem_append_right _ (List.mem_singleton_self _), rfl, rfl⟩
  · cases place : s.allocSwap m.vd (s.tableBytes s.swapCount x) with
    | some p =>
      obtain ⟨grids, -⟩ := acceptLaunch_makes (desc := desc) (io := io) one small (Nat.not_le.1 full) place
      exact .inl ⟨_, grids, rfl, rfl⟩
    | none =>
      refine .inr ?_
      unfold State.acceptLaunch
      simp only [turn, head, full, place, decide_false, Bool.not_true, Bool.or_self, Bool.false_eq_true, if_false]
      split
      · rw [standLaunch_fresh fresh]
        exact ⟨rfl, _, List.mem_append_right _ (List.mem_singleton_self _), rfl, rfl⟩
      · rw [standLaunch_fresh fresh]
        exact ⟨rfl, _, List.mem_append_right _ (List.mem_singleton_self _), rfl, rfl⟩

/-- Fields of a legal descriptor that the check relies on. -/
theorem descAllowed_bounds {v : Nat} (legal : descAllowed v = true) : 1 ≤ dfield v 12 4 ∧ dfield v 28 2 < 256 := by
  unfold descAllowed at legal
  simp only [Bool.and_eq_true, decide_eq_true_eq] at legal
  omega

theorem mask_eq_zero {v : Nat} : (State.parseDesc v).mask = 0 ↔ dfield v 32 8 = 0 := by
  rw [← BitVec.toNat_inj]
  exact Eq.congr_left (toNat_dfield v 32)

/-- A LAUNCH is taken up for the first time. -/
structure FirstTaken (s : State) (m : Msg) (desc : Word) (d : RegNum) : Prop where
  one : launching s m d
  kind : m.kind = .launch desc
  unchecked : m.checked = none
  fresh : m.hold = none

/-- A LAUNCH is rejected with a reason, and nothing is made. -/
def RejectedWith (s : State) (m : Msg) (d : RegNum) (n : Nat) : Prop :=
  ∃ t, exec (.launchAccept m.id) s = .next t ∧ launched t m d (BitVec.ofNat 64 (2 ^ 63 + n)) ∧
    t.grids = s.grids ∧ t.mem = s.mem ∧ t.serials = s.serials ∧ t.records = s.records

/-- What CNOTE asks: bit 63 is clear, or it names a tile of the launcher's grid. -/
def noteAllowed (s : State) (m : Msg) (v : Nat) : Prop :=
  dfield v 88 8 / 2 ^ 63 = 0 ∨ ∃ g, s.grid? m.handle = some g ∧ dfield v 88 8 / 2 ^ 16 % 2 ^ 16 < g.desc.gcnt ∧ dfield v 88 8 % 2 ^ 16 < g.desc.gsz

namespace FirstTaken

theorem queue (h : FirstTaken s m desc d) : m.queue = none := by
  obtain ⟨-, -, -, -, -, queue, -⟩ := h.one
  exact queue

theorem not_reached (h : FirstTaken s m desc d) : State.reached m = false := by
  rw [State.reached, h.unchecked, h.fresh]
  rfl

/-- A LAUNCH whose descriptor cannot be read is rejected with reason 4. -/
theorem unread (h : FirstTaken s m desc d) {cause : BitVec 8} {addr : Word} (read : s.readRange (launchAsker s m) desc 128 = .error (.trap cause addr)) :
    RejectedWith s m d 4 := by
  refine launch_rejected (tree := s.tlbPlru) (f := s.free) h.one ?_
  rw [exec_launchAccept_unchecked h.one h.kind h.unchecked, checkLaunch_unread h.fresh read]

section
variable {v : Nat} (h : FirstTaken s m desc d) (read : s.readRange (launchAsker s m) desc 128 = .ok v)
include h read

theorem illegal (bad : descAllowed v = false ∨ ¬noteAllowed s m v) : RejectedWith s m d 1 := by
  have runs := exec_launchAccept_unchecked h.one h.kind h.unchecked
  obtain ⟨p, r, checked, -⟩ := checkLaunch_read h.fresh h.queue read
  rw [checked, if_pos] at runs
  · exact launch_rejected (f := s.free) h.one runs
  · obtain field | note := bad
    · rw [field]
      rfl
    · rw [Bool.eq_false_iff.2 (mt (noticesLegal_iff ..).1 note), Bool.not_false, Bool.or_true]

/-- A LAUNCH with a legal descriptor goes on to the pool and the modules, then to its list and image. -/
theorem legal (fields : descAllowed v = true) (note : noteAllowed s m v) : ∃ p r, exec (.launchAccept m.id) s = .next
      (if s.tooBig m.vd (State.parseDesc v) = true then { s with tlbPlru := p, free := s.free + 1 }.answerLaunch m (State.rejection 2)
      else if (!s.maskLegal m.vd (State.parseDesc v)) = true then { s with tlbPlru := p }.answerLaunch m (State.rejection 3)
      else r) ∧
    (dfield v 8 4 = 0 → dfield v 72 4 = 0 → r = { s with tlbPlru := p, free := s.free + 1 }.acceptLaunch m desc (State.parseDesc v) []) := by
  have runs := exec_launchAccept_unchecked h.one h.kind h.unchecked
  obtain ⟨p, r, checked, taken⟩ := checkLaunch_read h.fresh h.queue read
  have passes : ¬(!descAllowed v || !s.noticesLegal (some (m.handle, m.vtn)) (State.parseDesc v)) = true := by
    rw [fields, (noticesLegal_iff ..).2 note]
    exact Bool.false_ne_true
  rw [checked, if_neg passes] at runs
  exact ⟨p, r, runs, taken⟩

theorem unfit (fields : descAllowed v = true) (note : noteAllowed s m v) (large : ¬fitsPool s m.vd (dfield v 12 4)) : RejectedWith s m d 2 := by
  obtain ⟨p, r, runs, -⟩ := h.legal read fields note
  rw [if_pos (tooBig_of_not_fits (x := State.parseDesc v) (descAllowed_bounds fields).1 large)] at runs
  exact launch_rejected h.one runs

theorem abroad (fields : descAllowed v = true) (note : noteAllowed s m v) (fits : fitsPool s m.vd (dfield v 12 4))
    (other : ∃ k < 64, (dfield v 32 8).testBit k = true ∧ k ≠ s.moduleNo)
    (out : ∀ k < 64, (dfield v 32 8).testBit k = true → k ≠ s.moduleNo → s.mcrN (0x4000 + 8 * k) 2 / 2 ^ 15 % 2 = 0 ∨ k ∈ s.podLeft) :
    RejectedWith s m d 3 := by
  obtain ⟨k, range, named, foreign⟩ := other
  have some_ : (State.parseDesc v).mask ≠ 0 := fun none_ => by
    rw [mask_eq_zero.1 none_, Nat.zero_testBit] at named
    exact nomatch named
  have gone (k : Nat) (mem : k ∈ s.maskModules (State.parseDesc v)) (foreign : k ≠ s.moduleNo) : s.inPod k = false := by
    obtain ⟨range, named⟩ := (mem_maskModules rfl some_ k).1 mem
    exact inPod_eq_false foreign (out k range named foreign)
  have mem := (mem_maskModules (s := s) rfl some_ k).2 ⟨range, named⟩
  have small := tooBig_of_fits (x := State.parseDesc v) (descAllowed_bounds fields).1 fits gone
  have away := maskLegal_of_out (vd := m.vd) mem foreign (gone k mem foreign)
  obtain ⟨p, r, runs, -⟩ := h.legal read fields note
  rw [small, away] at runs
  exact launch_rejected (f := s.free) h.one runs

/-- A LAUNCH for this module alone that passes, with neither list nor image, becomes a grid or waits. -/
theorem passed (fields : descAllowed v = true) (note : noteAllowed s m v) (fits : fitsPool s m.vd (dfield v 12 4)) (alone : dfield v 32 8 = 0)
    (noImage : dfield v 8 4 = 0) (noList : dfield v 72 4 = 0) : ∃ t, exec (.launchAccept m.id) s = .next t ∧
      ((∃ g, t.grids = s.grids ++ [g] ∧ g.desc = State.parseDesc v ∧ g.io = []) ∨
       (t.grids = s.grids ∧ ∃ m' ∈ t.net, m'.id = m.id ∧ m'.checked = some (State.parseDesc v, []))) := by
  have home : (State.parseDesc v).mask = 0 := mask_eq_zero.2 alone
  have gone (k : Nat) (mem : k ∈ s.maskModules (State.parseDesc v)) (foreign : k ≠ s.moduleNo) : s.inPod k = false := by
    rw [maskModules_alone home] at mem
    exact absurd (List.mem_singleton.1 mem) foreign
  have small := tooBig_of_fits (x := State.parseDesc v) (descAllowed_bounds fields).1 fits gone
  obtain ⟨p, r, runs, taken⟩ := h.legal read fields note
  rw [small, maskLegal_alone home, if_neg Bool.false_ne_true, if_neg (by exact Bool.false_ne_true), taken noImage noList] at runs
  exact ⟨_, runs, acceptLaunch_outcome (s := { s with tlbPlru := p, free := s.free + 1 }) (x := State.parseDesc v) h.one h.not_reached
    (descAllowed_bounds fields).2⟩

end

end FirstTaken

/-- What a descriptor decides is what R332 and R334 say. -/
theorem descriptor_decides : descriptorDecides := by
  intro s m desc d one kind unchecked fresh _ _ space rejected
  have h : FirstTaken s m desc d := ⟨one, kind, unchecked, fresh⟩
  refine ⟨fun gone => h.unread (readRange_nowhere (q := launchAsker s m) (by decide) gone), fun key here => ⟨fun bad => ?_, fun clean => ?_⟩⟩
  · obtain ⟨addr, read⟩ := readRange_poison (q := launchAsker s m) here bad
    exact h.unread read
  · have read := readRange_ok (q := launchAsker s m) here clean
    refine ⟨h.illegal read, h.unfit read, h.abroad read, fun fields note fits alone noImage noList => ?_⟩
    have means := parseDesc_means (s.readN key 128)
    obtain ⟨t, runs, ⟨g, grids, desc_, io⟩ | ⟨grids, m', mem, number, checked⟩⟩ := h.passed read fields note fits alone noImage noList
    · exact ⟨t, runs, .inl ⟨g, grids, desc_ ▸ means, io⟩⟩
    · exact ⟨t, runs, .inr ⟨grids, m', mem, number, _, checked, means⟩⟩

/-- Settles O58: a LAUNCH that is accepted, what its descriptor decides, and the dealing of a range. -/
theorem launchContent : Obligations.LaunchContent := ⟨accepted_makes_grid, descriptor_decides, range_dealt_out⟩

end Sys2Proof.Machine
end
